-- ==== Sys2Proof/Word.lean ====
section
/-! DEFINITION. The word types of the M16 and the carrier of its sparse stores.
The manual's smallest unit of any store is the 256-byte line (R15, R79, R292), so a line is one bit vector,
byte `i` being bits `8 i + 7 .. 8 i` (little-endian, R33). -/

namespace Sys2Proof

/-- One byte. -/
abbrev Byte := BitVec 8

/-- A register of the register space, 32 bits (00_scope.md, Notation). -/
abbrev Word := BitVec 32

/-- A 64-bit word: a window, a wait entry, a key. -/
abbrev DWord := BitVec 64

/-- A 256-byte line of tensor data (R12, *line*). -/
abbrev Line := BitVec 2048

/-- A 128-byte command header (R102). -/
abbrev Header := BitVec 1024

/-- A 128-bit tensor-core instruction (R113). -/
abbrev TcWord := BitVec 128

/-- A 64-byte command packet (R366) or mailbox message (R375). -/
abbrev Packet := BitVec 512

/-- A sparse store: pairs of index and value, indices strictly rising, no pair holding the store's default value. -/
abbrev Sparse (α : Type) := List (Nat × α)

end Sys2Proof
end

