-- ==== Sys2Proof/Syntax.lean ====
section
/-! DEFINITION. The commands of the M16: one constructor of `Instr` per row of spec/opcode_table.json, with the
operands the row takes from outside. What the chip itself holds (a program buffer, a placed header, a ring
counter, a window) is no operand: it is read from the state. -/

namespace Sys2Proof

/-- The units of the die that run commands (01_architecture.md, R20 for the engine indices). -/
inductive UnitId where
  | tc (n : Fin 16)
  | rid (n : Fin 2)
  | skp (n : Fin 2)
  | coil (n : Fin 2)
  | twn (n : Fin 4)
  | plt (n : Fin 2)
  | wal (n : Fin 2)
  | mv (n : Fin 8)
deriving DecidableEq, Repr

/-- A physical disturbance that strikes while one command or instruction runs. The manual's checks (R78, R93, R318,
R416 to R427) are judged on it; with none the hardware computes what the manual defines. -/
inductive Upset where
  /-- the exact sum of column `col` (0 to 129) is off by `err` in activation row `row` (R418) -/
  | array (row col : Nat) (err : Int)
  /-- byte parity fails on the path of activation row `row` (R422) -/
  | feed (row : Nat)
  /-- the duplicate of the special-value logic, or the second 16-bit path, differs in `col` (R420, R421) -/
  | special (row col : Nat)
  /-- the duplicated FP32 accumulation adder differs (R424) -/
  | adder (row col : Nat)
  /-- bit `bit` of the accumulator entry at `row`, `col` flips before the drain reads it (R423) -/
  | residue (row col bit : Nat)
  /-- byte parity of weight row `row`, or one of its four duplicated preparation steps, fails (R422) -/
  | weightFeed (row : Nat)
  | weightPrep (row : Nat)
  /-- the line-buffer store's parity fails at the read of window row `row` (R427) -/
  | lineBuffer (row : Nat)
  /-- the mover's creel access of line `k` falls into slot period `period` of the core's running command (R83, R299):
  where two units' commands stand to each other is not held -/
  | meet (k period : Nat)
  /-- the mover's creel access of line `k` falls into the slot period in which mover `other` accesses the same core's creel for
  line `j` of its running command (R83, R293) -/
  | meetMover (k : Nat) (other : Fin 8) (j : Nat)
  /-- the mover writes back a tag line read before another mover's running command replaced the tag of DRAM line `line`
  in it (R319) -/
  | tagRace (line : Nat)
  /-- the command reads hamper line `line` in a slot period not later than the one in which another unit's running command writes
  it (R300) -/
  | early (line : Nat)
  /-- the command reads hamper line `line`, in a slot period later than the one in which another unit's running command, whose row
  comes later, writes it: the line and its tag where that write does not make it match (R300) -/
  | late (line : Nat) (data : Line) (tag : Option Word)
  /-- the two vector copies differ in register write or assembler transfer `i` of the instruction, counted from 0 (R93) -/
  | vector (i : Nat)
  /-- the layout of the weight tile that a LOADW names violates R48, a fact of its tensors that no field of the instruction
  shows (log 95) -/
  | layout
  /-- a parity error in an internal store that the command reads (R208, R427) -/
  | store
  /-- the 64-line output queue of a camera instance is full (R259) -/
  | overrun
  /-- the mover's line buffer changed under line `k` (R318) -/
  | buffer (k : Nat)
  /-- the unit took `n` cycles more than its rules give (R150) -/
  | extraCycles (n : Nat)
deriving DecidableEq, Repr

/-- One command of a graph image: its header (R102, R201, R206, R316) and, for a tensor core, its program. -/
structure Cmd where
  hdr : Header
  /-- a tensor core's program: in a loaded image, what PROG_OFFSET and PROG_LEN find in the program section -/
  prog : List TcWord
deriving DecidableEq, Repr

/-- A tie with its end-of-frame or restart values E and S (R331, R456). -/
structure TieLine where
  tie : Nat
  e : Word
  s : Word
deriving DecidableEq, Repr

/-- An output tensor: its first context address and its lines (R27). -/
structure OutTensor where
  addr : Nat
  lines : Nat
deriving DecidableEq, Repr

/-- An entry of the refetch table (R440): a command index and the commands to run again, or NONE. -/
structure Refetch where
  index : Nat
  list : Option (List Nat)
deriving DecidableEq, Repr

/-- The fall-back graph of an image (R343). -/
structure FallGraph where
  graphId : Word
  queues : List (List Cmd)
  entries : List (List Nat)
  recon : List TieLine
  refetch : List Refetch
  outputs : List OutTensor
deriving DecidableEq, Repr

/-- The slot and phase tables that Protil builds when it merges the image's slot plan (R295, R296, R306, R307). -/
structure SlotTables where
  /-- owner of position `x` in period `p` at index `32 p + x` -/
  slots : List Nat
  /-- phases of the engines by engine index, then of the movers -/
  phases : List Nat
  /-- owner of DRAM slot `k` on channel `c` at index `16 k + c`: mover number, 8 the Osier cluster, 0xFF nobody -/
  dram : List Nat
  /-- DRAM phases of the movers, FCLK offsets -/
  dramPhases : List Nat
deriving DecidableEq, Repr

/-- The unit classes with ports that a slot plan names (R293, R296). -/
inductive UnitClass where
  | rid | skp | coil | twn | plt | wal | mv
deriving DecidableEq, Repr

/-- A grant of a slot plan that one instance of a class needs (R296): position and period relative to its command start, on
its read or write port. -/
structure PlanGrant where
  cls : UnitClass
  write : Bool
  position : Nat
  period : Nat
deriving DecidableEq, Repr

/-- A DRAM grant that a mover needs (R306): channel, FCLK cycles after its DRAM phase, direction. -/
structure DramGrant where
  channel : Nat
  offset : Nat
  write : Bool
deriving DecidableEq, Repr

/-- The slot plan of an image (R296, R306). -/
structure SlotPlan where
  grants : List PlanGrant
  dram : List DramGrant
deriving DecidableEq, Repr

/-- A graph image (R12). Its byte layout is not in the manual, so it is given as its contents. -/
structure GraphImage where
  /-- Protil's signature check passes (R368) -/
  signedOk : Bool
  /-- a PCIe completion error met while Protil reads it (R368) -/
  readError : Bool
  arithRev : Nat
  minCreel : Nat
  ncore : Nat
  graphId : Word
  queues : List (List Cmd)
  /-- checkpoint number and REM in nanoseconds (R342) -/
  checkpoints : List (Nat × Nat)
  fallback : Option FallGraph
  recon : List TieLine
  restart : List TieLine
  refetch : List Refetch
  /-- peer table: chip ID and fall-back entry K (R465) -/
  peers : List (Nat × Nat)
  /-- chips of the image's job (R388, R405) -/
  job : List Nat
  outputs : List OutTensor
  pbase : Nat
  nprec : Nat
  originSet : Word
  prelude : List Cmd
  /-- critical path of the prelude in nanoseconds (R457) -/
  preludeNs : Nat
  /-- the program section, into which the PROG_OFFSET of a tensor-core header points (R102) -/
  progSection : List Byte
  plan : SlotPlan
  /-- the tables that Protil's merge of the slot plans gives, of those that serve the plans (R296); where these do not, or with
  none, the first that serves them is taken -/
  tables : Option SlotTables
  /-- camera stream descriptors (R237) -/
  cameras : List Line
  /-- the three lines of each camera's region list for frame 0, in the same order; empty where a stream has none (R250) -/
  roi : List (List Line) := []
  /-- lidar stream descriptors (R263) -/
  lidars : List Line
  /-- replay descriptors (R269) -/
  replays : List Line
deriving DecidableEq, Repr

/-- The signed configuration of a Protil image (R501, R502). Its layout is not in the manual. -/
structure SignedConfig where
  ddrCfg : Word
  fabCfg : Word
  dspCfg0 : Word
  dspCfg1 : Word
  ethCfg : List Word
  /-- sender and receiver of each mailbox channel (R376) -/
  binding : List (Nat × Nat)
  resetMax : Nat
  resetWindowS : Nat
  /-- record slots of the event partition (R478) -/
  evrSlots : Nat
  parkDram : Bool
  commitSvn : Bool
  gptpDomain : Nat
deriving DecidableEq, Repr

/-- A Protil image (R502): its bytes; whether it fits the NOR, whose size the manual does not give; and what its configuration
says (log 7). -/
structure FwImage where
  /-- the 4 KiB header of R502 -/
  header : BitVec 32768
  code : List Byte
  cfg : List Byte
  fits : Bool
  config : SignedConfig
deriving DecidableEq, Repr

/-- A bit of a copy of a triplicated table (R434): table, copy, and bit of the contents, then of the CRC. -/
structure CopyBit where
  table : Fin 3
  copy : Fin 3
  bit : Nat
deriving DecidableEq, Repr

/-- A fault that a tally test detects (R445): its status code and cycle; whether the test injected it, at the column or entry where
it was found. -/
structure TallyFault where
  status : Nat
  cycle : Nat
  injected : Bool
deriving DecidableEq, Repr

/-- What a tally test gives (R445): the faults detected, whether an injected one was missed at its place, and whether the digest of
the output tags is the constant held in Protil. -/
structure TallyResult where
  faults : List TallyFault
  missed : Bool
  digestOk : Bool
deriving DecidableEq, Repr

/-- What a boot meets from step 3 of R501 on. -/
structure BootInput where
  /-- the image read from the NOR; none on an xSPI read error -/
  nor : Option FwImage
  avsAck : Bool
  trainOk : Bool
  /-- what the tally tests of units give (R446); any other unit's test passes -/
  tallyFails : List (UnitId × TallyResult)
  /-- bits of table copies written wrong before their CRC is formed (R435): table, copy, bit -/
  miswrites : List CopyBit
deriving DecidableEq, Repr

/-- What a compute-domain reset meets at its steps (R455): units failing their tests, Protil's image passing its check,
µs from detection to return to service. -/
structure ResetInput where
  tallyFails : List (UnitId × TallyResult)
  imageOk : Bool
  /-- the image read from the NOR where the check fails; none on an xSPI read error -/
  nor : Option FwImage
  us : Nat
  /-- upset bits of table copies that the check of step 4 finds (R435) -/
  flips : List CopyBit
deriving DecidableEq, Repr

/-- What a JTAG instruction selects (R517). -/
inductive JtagKind where
  | idcode | bypass | other
deriving DecidableEq, Repr

/-- The fields of a flit whose CRC is good (R390). -/
structure Flit where
  typ : Byte
  ackv : Bool
  nack : Bool
  ackSeq : BitVec 16
  fseq : BitVec 16
  src : BitVec 3
  dst : BitVec 3
  tagw : Word
  payload : BitVec 1920
deriving DecidableEq, Repr

/-- What a link peer sends in IDENT (R384, R385). -/
structure Ident where
  chip : BitVec 3
  link : Nat
  topo : Nat
  nm1 : Nat
deriving DecidableEq, Repr

/-- The rails that the monitors watch (R492, R512). -/
inductive Rail where
  | core | sram | ao | ddrq | ddra | serdes | serdesH | csi | io | pll
deriving DecidableEq, Repr

/-- How a Skep slot's decode of its stream went, apart from the stream itself. -/
structure SkepRun where
  /-- FCLK cycles counted against the budget (R284) -/
  cycles : Nat
  /-- parity error in the slot's store (R288) -/
  parity : Bool
deriving DecidableEq, Repr

/-- The commands: the rows of spec/opcode_table.json, in its order. -/
inductive Instr where
  -- the sequencer of a tensor core issues its next instruction, which is of this kind
  | seta (tc : Fin 16) (ups : List Upset)
  | sets (tc : Fin 16) (ups : List Upset)
  | loop (tc : Fin 16) (ups : List Upset)
  | idle (tc : Fin 16) (ups : List Upset)
  | fence (tc : Fin 16) (ups : List Upset)
  | check (tc : Fin 16) (ups : List Upset)
  | tie (tc : Fin 16) (ups : List Upset)
  | endProg (tc : Fin 16) (ups : List Upset)
  | setd (tc : Fin 16) (ups : List Upset)
  | loadw (tc : Fin 16) (ups : List Upset)
  | pass (tc : Fin 16) (ups : List Upset)
  | conv (tc : Fin 16) (ups : List Upset)
  | lbf (tc : Fin 16) (ups : List Upset)
  | drain (tc : Fin 16) (ups : List Upset)
  | vec (tc : Fin 16) (ups : List Upset)
  | vld (tc : Fin 16) (ups : List Upset)
  | vst (tc : Fin 16) (ups : List Upset)
  | vtab (tc : Fin 16) (ups : List Upset)
  | cmpcnt (tc : Fin 16) (ups : List Upset)
  | move (tc : Fin 16) (ups : List Upset)
  -- the life of a command
  | commandEnd (u : UnitId)
  | declCyclesExpiry (u : UnitId)
  | commandPlace (u : UnitId)
  | headerCheckEnd (u : UnitId)
  | programCopyEnd (tc : Fin 16)
  | commandStart (u : UnitId)
  | abortDelivery (u : UnitId) (cycle : Nat)
  | replay
  | frameEnd (ctx : Fin 4096)
  | deadlineLimit (ctx : Fin 4096)
  | intakeStall (ctx : Fin 4096)
  | diagnosticIntervalStart
  | sliceBoundary (group : Fin 16)
  | sliceSwitch (group : Fin 16) (overrun : Nat)
  -- engines and movers: the started command of the unit does its work
  | append (p : Fin 2) (ups : List Upset)
  | feed (p : Fin 2) (ups : List Upset)
  | stage (p : Fin 2) (ups : List Upset)
  | rotate (p : Fin 2) (ups : List Upset)
  | sample (e : Fin 4) (ups : List Upset)
  | voxel (e : Fin 2) (ups : List Upset)
  | scatter (e : Fin 2) (ups : List Upset)
  | topk (e : Fin 2) (ups : List Upset)
  | nms2d (e : Fin 2) (ups : List Upset)
  | nmsbev (e : Fin 2) (ups : List Upset)
  | copy (m : Fin 8) (ups : List Upset)
  | send (m : Fin 8) (ups : List Upset)
  | recv (m : Fin 8) (ups : List Upset)
  | tiemsg (m : Fin 8)
  -- camera intake: port, virtual channel, frame number; data type, payload, CRC and header state
  | csi2FrameStart (port : Fin 8) (vc : Fin 16) (fn : BitVec 16) (corrected : Bool)
  | csi2LongPacket (port : Fin 8) (vc : Fin 16) (dt : BitVec 6) (payload : List Byte) (crcOk headerOk corrected : Bool)
      (ups : List Upset)
  | csi2FrameEnd (port : Fin 8) (vc : Fin 16) (fn : BitVec 16) (corrected : Bool)
  | feTimeout (inst : Fin 2) (slot : Fin 12)
  | groupMissing (ctx : Fin 4096) (group : Fin 8)
  | memorySourceAttempt (inst : Fin 2) (slot : Fin 12) (ups : List Upset)
  | streamDisable (inst : Fin 2) (slot : Fin 12)
  -- Ethernet: MAC, the frame with its FCS, interpolated phase of the stamp (R473)
  | ethernetFrameReceive (mac : Fin 4) (bytes : List Byte) (phase : Nat) (fecUncorr : Bool)
  | tsweepTimeout (slot : Fin 8)
  -- Skep
  | requestAccept (inst : Fin 2)
  | decodeComplete (inst : Fin 2) (slot : Fin 8) (run : SkepRun)
  | emission (inst : Fin 2) (slot : Fin 8)
  | recordWrite (inst : Fin 2) (slot : Fin 8)
  | budgetExpiry (inst : Fin 2) (slot : Fin 8)
  -- rings and packets: ring 0 is the admin ring; `pkt` is what Protil reads when the ring lies in host memory
  | sqTail (ring : Fin 4096) (v : Word)
  | rqHead (ring : Fin 4096) (v : Word)
  | replyWrite (ring : Fin 4096)
  | replyStall (ring : Fin 4096)
  | nop (ring : Fin 4096) (pkt : Packet)
  | graphLoad (pkt : Packet) (img : GraphImage)
  | graphUnload (pkt : Packet)
  | windowSet (pkt : Packet)
  | ringOpen (pkt : Packet)
  | ringClose (pkt : Packet)
  | contextStart (pkt : Packet)
  | contextStop (pkt : Packet)
  | frameRun (ring : Fin 4096) (pkt : Packet)
  | tieAdd (ring : Fin 4096) (pkt : Packet)
  | tieSet (ring : Fin 4096) (pkt : Packet)
  | abort (ring : Fin 4096) (pkt : Packet)
  | attest (pkt : Packet)
  -- the PCIe endpoint
  | adminEnable (master : Byte) (v : Word)
  | bar2Write (line off : Nat) (bytes : List Byte)
  | bar2Read (line : Nat) (ups : List Upset)
  | partialDrop
  | bar0Bad (bar4 isWrite : Bool) (off len : Nat) (v : Word)
  | functionLevelReset
  | perstN (level : Bool)
  | msixUnmask (v : Fin 64)
  -- mailboxes, ties, registers
  | mbRing (master : Byte) (ch : Fin 64) (v : Word)
  | mbAck (master : Byte) (ch : Fin 64) (v : Word)
  | eraseRequest (ch : Fin 64)
  | tieOpAdd (master : Byte) (t : Fin 131072) (amount : BitVec 31)
  | tieOpSet (master : Byte) (t : Fin 131072) (amount : BitVec 31)
  | registerWrite (master : Byte) (off : BitVec 24) (v : Word)
  -- links
  | retrain (master : Byte) (l : Fin 6) (v : Word)
  | linkEnable (master : Byte) (l : Fin 6) (v : Word)
  | trainingTimeout (l : Fin 6)
  | trainingStateExit (l : Fin 6) (peer : Ident)
  | idleFlit (l : Fin 6) (f : Flit)
  | head (l : Fin 6) (f : Flit)
  | data (l : Fin 6) (f : Flit)
  | tail (l : Fin 6) (f : Flit)
  | ready (l : Fin 6) (f : Flit)
  | refuse (l : Fin 6) (f : Flit)
  | tieFlit (l : Fin 6) (f : Flit)
  | mail (l : Fin 6) (f : Flit)
  | mack (l : Fin 6) (f : Flit)
  | beacon (l : Fin 6) (f : Flit) (phase : Nat)
  | delayReq (l : Fin 6) (f : Flit) (phase : Nat)
  | delayResp (l : Fin 6) (f : Flit) (phase : Nat)
  | ackTimeout (l : Fin 6)
  | transferGapTimeout (l : Fin 6) (sending : Bool)
  | beaconSend
  | delayMeasure
  | timeHoldover
  -- fabric notices, each in a FABRIC flit
  | heartbeat (l : Fin 6) (f : Flit)
  | heartbeatSend
  | heartbeatMissing (chip : Fin 8)
  | resetEnter (l : Fin 6) (f : Flit)
  | resetReturn (l : Fin 6) (f : Flit)
  | outOfService (l : Fin 6) (f : Flit)
  | peerDown (l : Fin 6) (f : Flit)
  | peerUp (l : Fin 6) (f : Flit)
  | peerLost (l : Fin 6) (f : Flit)
  | manager (l : Fin 6) (f : Flit)
  -- supervision
  | clockWindow (fclk aclk cclk tclk : Nat)
  | pllLockLoss
  | railThreshold (r : Rail) (uv : Nat)
  | railRecover
  | temperatureRead (quarterDegrees : List Int)
  | osierLockstepMismatch
  | hoopLockstepMismatch
  | configCheck (flips : List CopyBit)
  /- `none` is the Osier cluster's timer; `slot` names a Skep slot or a Riddle stream -/
  | hangTimerExpiry (u : Option UnitId) (slot : Fin 12)
  | fenceComplete (u : UnitId)
  | fenceTimeout (u : UnitId)
  | unitResetEnd (u : UnitId)
  | hoopKick (master : Byte) (v : Word)
  | computeDomainReset (inp : ResetInput)
  | fsrFragmentAck (toHost : Bool)
  | safetySpiRead (req : BitVec 72)
  | safetySpiWrite (req : BitVec 72)
  | safetySpiNone (req : BitVec 72)
  | errOutMinHold
  -- power, clocks, boot
  | pwrWarnNFall
  | halveEnd
  | droop (uv : Nat)
  | droopEnd (uv : Nat) (rootCycles : Nat)
  | stretchLimit
  | vddAoLoss
  | coldBoot (inp : BootInput)
  | porN (level : Bool)
  | bootRecov (master : Byte) (v : Word) (img : FwImage) (inp : BootInput)
  | svnFuseWrite
  | avsTelemetry (acked : Bool) (telemetryUv monitorUv : Nat)
  | pwrCtrlReq (master : Byte) (v : Word)
  | powerStateStep
  | wakeN
  | powerStateExit (aoTicks : Nat)
  | hoursEntry
  | hoopAliveTick
  -- time unit and recorder
  | tuCtrlStep (master : Byte) (v : Word)
  | tuIncNs (master : Byte) (v : Word)
  | tuIncFrac (master : Byte) (v : Word)
  | tuNowFrac (master : Byte)
  | secondCarry
  | ppsOutEnd
  | ppsIn (phase : Nat)
  | eventRecord (upto : Nat)
  -- rows added at the end of the table
  | flitCrcError (l : Fin 6) (w : BitVec 2048)
  | ethBlockLockLost (mac : Fin 4) (fecUncorr : Bool)
  | ethBlockLockAcquired (mac : Fin 4)
  | pcieLinkDown
  | pcieLinkUp (width speed : Nat)
  | hostReadCompletion (m : Fin 8) (line : Line) (err : Bool) (ups : List Upset)
  | completionTimeout (m : Fin 8)
  /- what the test gives (R445) -/
  | tallyTestComplete (u : UnitId) (result : TallyResult)
  | eraseComplete
  | evrWindowRead (master : Byte) (off : BitVec 15)
  | dramWindowEnd
  | pwrWarnNRise
  | jtagInstruction (kind : JtagKind) (ir : Nat)
  | ethernetFrameTransmit (mac : Fin 4) (bytes : List Byte) (phase : Nat)
deriving DecidableEq, Repr

end Sys2Proof
end

