-- ==== Sys2Proof/Config.lean ====
section
/-! DEFINITION. What an implementation fixes and what the manual leaves free. Each constant here has no body: nothing
in Lean can tell its value, so a statement holds for every value. -/

namespace Sys2Proof.Config

/-- Free 2,048-bit values, numbered by the state's counter: contents of lines that the manual calls undefined or does not state
(creel lines outside a restored live set, R340; a staging area of Skep, R270), and which lines of a stopped command were
written (R85, R451). DESIGN CHOICE, log 16 and log 60. -/
opaque freeLine : Nat → BitVec 2048

/-- Free small values, numbered by the state's counter: cycles of detection of engine and mover faults, since the manual gives
the occupancy of a command and not the cycle in which each line is read (R202, R207, R316), bounded counts, and codes that the
manual does not name. DESIGN CHOICE, log 18. -/
opaque freeCycle : Nat → BitVec 24

/-- The constant held in Protil that a tally test's digest is compared with is not in the manual; whether they agree is an
operand (R205, R234, R260, R290, R322, R445). The words of the two signatures of an attestation report
follow other standards (R508): a free function of the report's 512 signed bytes and the leaf. DESIGN CHOICE, log 17. -/
opaque attestSignature : BitVec 4096 → Nat → BitVec 23392

/-- The splint mover that the configuration of a slice group reserves for its switches (R340): the manual names no field that
holds it. DESIGN CHOICE, log 92. -/
opaque switchMover : Fin 16 → Fin 8

/-- The device public keys of an attestation report (R507, R508): free. DESIGN CHOICE, log 17. -/
opaque devEcPub : BitVec 776

/-- The device LMS public key (R507, R508): free. DESIGN CHOICE, log 17. -/
opaque devLmsPub : BitVec 448

end Sys2Proof.Config
end

