-- ==== Sys2Proof/Machine/Bits.lean ====
section
/-! DEFINITION. Bit fields, byte strings and the four check codes the manual uses: CRC-32C (block tags, R15),
CRC-32 (flits, R390), CRC-64/ECMA-182 (digests, R27, R396) and CRC-8 (safety port, R431). -/

namespace Sys2Proof.Machine

/-- Field `[lo + n - 1 : lo]` of a bit vector, as a number. -/
def fieldNat {w : Nat} (x : BitVec w) (lo n : Nat) : Nat :=
  (x.extractLsb' lo n).toNat

/-- One bit of a bit vector. -/
def bitAt {w : Nat} (x : BitVec w) (i : Nat) : Bool := x.getLsbD i

/-- The `n` bytes at byte offset `off`, little-endian, as a number (R33). -/
def bytesNat {w : Nat} (x : BitVec w) (off n : Nat) : Nat :=
  fieldNat x (8 * off) (8 * n)

/-- A field of two's complement, `n` bits wide. -/
def fieldInt {w : Nat} (x : BitVec w) (lo n : Nat) : Int :=
  (x.extractLsb' lo n).toInt

/-- Two's complement reading of an `n`-bit number. -/
def signedOf (n v : Nat) : Int := (BitVec.ofNat n v).toInt

/-- The low `n` bits of an integer, as a number. -/
def wrapNat (n : Nat) (v : Int) : Nat := (BitVec.ofInt n v).toNat

/-- Replace field `[lo + n - 1 : lo]` by `v`. -/
def setField {w : Nat} (x : BitVec w) (lo n v : Nat) : BitVec w :=
  let mask : BitVec w := (BitVec.ofNat w (2 ^ n - 1)) <<< lo
  (x &&& ~~~mask) ||| ((BitVec.ofNat w (v % 2 ^ n)) <<< lo)

/-- A Bool as a one-bit number. -/
def boolNat (b : Bool) : Nat := if b then 1 else 0

/-- The bytes of a bit vector, `n` of them, lowest address first. -/
def toBytes {w : Nat} (x : BitVec w) (n : Nat) : List Byte :=
  (List.range n).map fun i => x.extractLsb' (8 * i) 8

/-- A number from its bytes, lowest address first. -/
def natOfBytes (bs : List Byte) : Nat :=
  bs.foldr (fun b acc => b.toNat + 256 * acc) 0

/-- The `n` low bytes of a number, lowest address first. -/
def natToBytes (n v : Nat) : List Byte :=
  (List.range n).map fun i => BitVec.ofNat 8 (v >>> (8 * i))

/-- A line from at most 256 bytes; the rest are zero (R84). -/
def lineOfBytes (bs : List Byte) : Line := BitVec.ofNat 2048 (natOfBytes (bs.take 256))

/-- Put the bytes `bs` into a line at byte offset `off`. -/
def lineSetBytes (l : Line) (off : Nat) (bs : List Byte) : Line :=
  setField l (8 * off) (8 * bs.length) (natOfBytes bs)

/-- Cut a byte string into lines; the last is zero-filled. Fuel is the number of lines wanted. -/
def linesOfBytes : Nat → List Byte → List Line
  | 0, _ => []
  | n + 1, bs => lineOfBytes bs :: linesOfBytes n (bs.drop 256)

/-- Ceiling division. -/
def ceilDiv (a b : Nat) : Nat := if b = 0 then 0 else (a + b - 1) / b

/-- Arithmetic right shift: the floor of `v / 2 ^ s`. -/
def asr (v : Int) (s : Nat) : Int := v / ((2 ^ s : Nat) : Int)

/-- Clamp to `[lo, hi]`. -/
def clampInt (lo hi v : Int) : Int := if v < lo then lo else if v > hi then hi else v

/-- One step of a reflected CRC. -/
def crcReflBit (poly c : Nat) : Nat :=
  if c % 2 = 1 then (c / 2) ^^^ poly else c / 2

/-- One byte of a reflected CRC. -/
def crcReflByte (poly c : Nat) (b : Byte) : Nat :=
  let c := c ^^^ b.toNat
  crcReflBit poly (crcReflBit poly (crcReflBit poly (crcReflBit poly
    (crcReflBit poly (crcReflBit poly (crcReflBit poly (crcReflBit poly c)))))))

/-- CRC-32C (Castagnoli, reflected, initial and final 0xFFFF_FFFF): the block tag of a line (R15). -/
def crc32c (bs : List Byte) : Nat :=
  (bs.foldl (crcReflByte 0x82F63B78) 0xFFFFFFFF) ^^^ 0xFFFFFFFF

/-- CRC-32 of a flit (R390): polynomial 0x04C1_1DB7 reflected, initial value and final XOR 0xFFFF_FFFF. -/
def crc32 (bs : List Byte) : Nat :=
  (bs.foldl (crcReflByte 0xEDB88320) 0xFFFFFFFF) ^^^ 0xFFFFFFFF

/-- One step of a CRC with the most significant bit first. -/
def crcMsbBit (w poly c : Nat) : Nat :=
  if c / 2 ^ (w - 1) % 2 = 1 then ((c * 2) % 2 ^ w) ^^^ poly else (c * 2) % 2 ^ w

/-- One byte of a CRC with the most significant bit first. -/
def crcMsbByte (w poly c : Nat) (b : Byte) : Nat :=
  let c := c ^^^ (b.toNat * 2 ^ (w - 8))
  let f := crcMsbBit w poly
  f (f (f (f (f (f (f (f c)))))))

/-- CRC-64/ECMA-182 (R27, R396): initial value 0, no reflection, final XOR 0. -/
def crc64 (bs : List Byte) : Nat :=
  bs.foldl (crcMsbByte 64 0x42F0E1EBA9EA3693) 0

/-- CRC-8 of the safety port (R431): polynomial 0x2F, initial value 0xFF, final XOR 0xFF, no reflection. -/
def crc8 (bs : List Byte) : Nat :=
  (bs.foldl (crcMsbByte 8 0x2F) 0xFF) ^^^ 0xFF

/-- The block tag of a line (R15). -/
def lineTag (l : Line) : Word := BitVec.ofNat 32 (crc32c (toBytes l 256))

end Sys2Proof.Machine
end

