-- ==== Sys2Proof/Machine/Numbers.lean ====
section
/-! DEFINITION. The element formats of R32 to R39 as exact numbers, the one rounding of R38 and R39, and the
FP32 operations of R92 and R97 built on them. A finite value is `(-1)^neg * m * 2^e`, exactly; `m = 0` is a
signed zero. Nothing here flushes subnormals (R36), and every NaN is one value (R37). -/

namespace Sys2Proof.Machine

/-- A floating-point value, exact (R36, R37). -/
inductive Fp where
  | nan
  | inf (neg : Bool)
  | fin (neg : Bool) (m : Nat) (e : Int)
deriving DecidableEq, Repr

/-- The floating-point formats of R32. -/
inductive FpFmt where
  | e4m3 | e5m2 | fp16 | bf16 | fp32
deriving DecidableEq, Repr

/-- Mantissa bits of a format (R32). -/
def FpFmt.mant : FpFmt → Nat
  | .e4m3 => 3 | .e5m2 => 2 | .fp16 => 10 | .bf16 => 7 | .fp32 => 23

/-- Exponent bits of a format (R32). -/
def FpFmt.exps : FpFmt → Nat
  | .e4m3 => 4 | .e5m2 => 5 | .fp16 => 5 | .bf16 => 8 | .fp32 => 8

/-- Exponent bias of a format (R32, R34, R35). -/
def FpFmt.bias : FpFmt → Nat
  | .e4m3 => 7 | .e5m2 => 15 | .fp16 => 15 | .bf16 => 127 | .fp32 => 127

/-- Width of a format in bits (R32). -/
def FpFmt.bits (f : FpFmt) : Nat := 1 + f.exps + f.mant

/-- The canonical NaN of a format (R37). -/
def FpFmt.nanCode : FpFmt → Nat
  | .e4m3 => 0x7F | .e5m2 => 0x7E | .fp16 => 0x7E00 | .bf16 => 0x7FC0 | .fp32 => 0x7FC00000

/-- The value an encoding stands for (R34, R35, R36). -/
def fpDecode (f : FpFmt) (c : Nat) : Fp :=
  let neg := c / 2 ^ (f.exps + f.mant) % 2 = 1
  let ex := c / 2 ^ f.mant % 2 ^ f.exps
  let ma := c % 2 ^ f.mant
  if f = .e4m3 ∧ ex = 15 ∧ ma = 7 then .nan
  else if f ≠ .e4m3 ∧ ex = 2 ^ f.exps - 1 then (if ma = 0 then .inf neg else .nan)
  else if ex = 0 then .fin neg ma (1 - (f.bias : Int) - f.mant)
  else .fin neg (2 ^ f.mant + ma) ((ex : Int) - f.bias - f.mant)

/-- The integer nearest `m / 2 ^ s`, ties to even. -/
def rneShift (m s : Nat) : Nat :=
  if s = 0 then m else
  let q := m / 2 ^ s
  let r := m % 2 ^ s
  let half := 2 ^ (s - 1)
  if r > half ∨ (r = half ∧ q % 2 = 1) then q + 1 else q

/-- Magnitude code of a positive finite value, rounded once to nearest even (R38), and saturated or overflowed as
R39 says. -/
def fpMagCode (f : FpFmt) (m : Nat) (e : Int) : Nat :=
  if m = 0 then 0 else
  let msb : Int := e + (m.log2 : Int)
  let emin : Int := 1 - (f.bias : Int)
  let q0 : Int := emin - f.mant
  let q : Int := if msb < emin then q0 else msb - f.mant
  let r : Nat := if e ≥ q then m * 2 ^ (e - q).toNat else rneShift m (q - e).toNat
  let code : Nat := (q - q0).toNat * 2 ^ f.mant + r
  if f = .e4m3 then (if code > 0x7E then 0x7E else code)
  else
    let infCode := (2 ^ f.exps - 1) * 2 ^ f.mant
    if code ≥ infCode then infCode else code

/-- The encoding of a value in a format: one rounding from the exact value (R38), overflow as R39, canonical NaN
(R37). An infinity becomes ±448 in E4M3. -/
def fpEncode (f : FpFmt) : Fp → Nat
  | .nan => f.nanCode
  | .inf neg =>
    (if neg then 2 ^ (f.exps + f.mant) else 0) +
      (if f = .e4m3 then 0x7E else (2 ^ f.exps - 1) * 2 ^ f.mant)
  | .fin neg m e => (if neg then 2 ^ (f.exps + f.mant) else 0) + fpMagCode f m e

/-- The sign of a value (NaN counts as positive). -/
def Fp.neg : Fp → Bool
  | .nan => false
  | .inf n => n
  | .fin n _ _ => n

/-- Is the value NaN. -/
def Fp.isNan : Fp → Bool
  | .nan => true
  | _ => false

/-- Is the value finite. -/
def Fp.isFinite : Fp → Bool
  | .fin _ _ _ => true
  | _ => false

/-- Is the value a zero of either sign. -/
def Fp.isZero : Fp → Bool
  | .fin _ m _ => m == 0
  | _ => false

/-- Change of sign; NaN stays NaN. -/
def Fp.negate : Fp → Fp
  | .nan => .nan
  | .inf n => .inf !n
  | .fin n m e => .fin (!n) m e

/-- Absolute value; NaN stays NaN. -/
def Fp.abs : Fp → Fp
  | .nan => .nan
  | .inf _ => .inf false
  | .fin _ m e => .fin false m e

/-- The exact value of an integer; zero is +0. -/
def Fp.ofInt (v : Int) : Fp := .fin (decide (v < 0)) v.natAbs 0

/-- The exact value `v * 2 ^ e`. -/
def Fp.dyadic (v : Int) (e : Int) : Fp := .fin (decide (v < 0)) v.natAbs e

/-- Scaling by a power of two, exact. -/
def Fp.scale (k : Int) : Fp → Fp
  | .fin n m e => .fin n m (e + k)
  | x => x

/-- The exact product under the special-value rules of IEEE 754 (R54, R55). -/
def fpMul : Fp → Fp → Fp
  | .nan, _ => .nan
  | _, .nan => .nan
  | .inf a, .inf b => .inf (a != b)
  | .inf a, .fin b m _ => if m = 0 then .nan else .inf (a != b)
  | .fin a m _, .inf b => if m = 0 then .nan else .inf (a != b)
  | .fin a m e, .fin b n f => .fin (a != b) (m * n) (e + f)

/-- Signed mantissa of a finite value at exponent `e0 ≤` its own. -/
def alignInt (neg : Bool) (m : Nat) (e e0 : Int) : Int :=
  let v : Int := (m : Int) * ((2 ^ (e - e0).toNat : Nat) : Int)
  if neg then -v else v

/-- The exact sum under IEEE 754: opposite infinities give NaN; an exact zero sum of two values of one sign keeps it,
and is +0 otherwise (round to nearest). -/
def fpAdd : Fp → Fp → Fp
  | .nan, _ => .nan
  | _, .nan => .nan
  | .inf a, .inf b => if a = b then .inf a else .nan
  | .inf a, .fin _ _ _ => .inf a
  | .fin _ _ _, .inf b => .inf b
  | .fin a m e, .fin b n f =>
    let e0 := min e f
    let v := alignInt a m e e0 + alignInt b n f e0
    if v = 0 then (if a = b then .fin a 0 0 else .fin false 0 0)
    else Fp.dyadic v e0

/-- `x < y` for values; false when either is NaN. -/
def fpLt : Fp → Fp → Bool
  | .nan, _ => false
  | _, .nan => false
  | .inf a, .inf b => a && !b
  | .inf a, .fin _ _ _ => a
  | .fin _ _ _, .inf b => !b
  | .fin a m e, .fin b n f =>
    let e0 := min e f
    decide (alignInt a m e e0 < alignInt b n f e0)

/-- `x = y` for values, −0 equal to +0; false when either is NaN. -/
def fpEq : Fp → Fp → Bool
  | .nan, _ => false
  | _, .nan => false
  | .inf a, .inf b => a == b
  | .inf _, .fin _ _ _ => false
  | .fin _ _ _, .inf _ => false
  | .fin a m e, .fin b n f =>
    let e0 := min e f
    decide (alignInt a m e e0 = alignInt b n f e0)

/-- `x ≤ y` for values. -/
def fpLe (x y : Fp) : Bool := fpLt x y || fpEq x y

/-- The floor of a finite value; 0 for the others. -/
def fpFloor : Fp → Int
  | .fin n m e =>
    let v : Int := if n then -(m : Int) else m
    if e ≥ 0 then v * ((2 ^ e.toNat : Nat) : Int) else asr v (-e).toNat
  | _ => 0

/-- The nearest integer to a finite value, ties toward +∞ (R63): the floor of `x + 1/2`. -/
def fpNearestUp (x : Fp) : Int := fpFloor (fpAdd x (.fin false 1 (-1)))

/-- Integer square root by bits: the largest `r` below `2 ^ fuel` (above `acc`) with `r * r ≤ n`. -/
def isqrtAux (n : Nat) : Nat → Nat → Nat
  | 0, acc => acc
  | k + 1, acc =>
    let t := acc + 2 ^ k
    if t * t ≤ n then isqrtAux n k t else isqrtAux n k acc

/-- The floor of the square root. -/
def isqrt (n : Nat) : Nat := isqrtAux n (n.log2 / 2 + 1) 0

/-- An FP32 encoding as a value. -/
def f32 (w : Word) : Fp := fpDecode .fp32 w.toNat

/-- A value rounded to FP32 (R38). -/
def toF32 (x : Fp) : Word := BitVec.ofNat 32 (fpEncode .fp32 x)

/-- FP32 ADD (R92). -/
def f32Add (a b : Word) : Word := toF32 (fpAdd (f32 a) (f32 b))

/-- FP32 SUB (R92). -/
def f32Sub (a b : Word) : Word := toF32 (fpAdd (f32 a) (f32 b).negate)

/-- FP32 MUL (R92). -/
def f32Mul (a b : Word) : Word := toF32 (fpMul (f32 a) (f32 b))

/-- FP32 FMA (R92): `a * b + c` with one rounding. -/
def f32Fma (a b c : Word) : Word := toF32 (fpAdd (fpMul (f32 a) (f32 b)) (f32 c))

/-- Order key of an FP32 encoding in which −0 lies below +0 (R92, MIN and MAX). -/
def f32Key (w : Word) : Int :=
  let mag : Int := (w.toNat % 2 ^ 31 : Nat)
  if bitAt w 31 then -mag - 1 else mag

/-- The canonical FP32 NaN (R37). -/
def nan32 : Word := 0x7FC00000#32

/-- FP32 MIN (R92): canonical NaN if either input is NaN; −0 below +0. -/
def f32Min (a b : Word) : Word :=
  if (f32 a).isNan || (f32 b).isNan then nan32 else if f32Key a ≤ f32Key b then a else b

/-- FP32 MAX (R92). -/
def f32Max (a b : Word) : Word :=
  if (f32 a).isNan || (f32 b).isNan then nan32 else if f32Key a ≥ f32Key b then a else b

/-- FP32 ABS (R92). -/
def f32Abs (a : Word) : Word := if (f32 a).isNan then nan32 else a &&& 0x7FFFFFFF#32

/-- FP32 NEG (R92). -/
def f32Neg (a : Word) : Word := if (f32 a).isNan then nan32 else a ^^^ 0x80000000#32

/-- Quotient of two finite values, with a sticky last bit far below any format's precision, so that one rounding of
it is the correctly rounded quotient (R97, R229). -/
def fpQuot (neg : Bool) (m : Nat) (e : Int) (n : Nat) (f : Int) : Fp :=
  let k := 128 + n.log2
  let num := m * 2 ^ k
  let q := num / n
  let sticky := if num % n = 0 then 0 else 1
  .fin neg (2 * q + sticky) (e - f - k - 1)

/-- IEEE division before rounding. -/
def fpDiv : Fp → Fp → Fp
  | .nan, _ => .nan
  | _, .nan => .nan
  | .inf _, .inf _ => .nan
  | .inf a, .fin b _ _ => .inf (a != b)
  | .fin a _ _, .inf b => .fin (a != b) 0 0
  | .fin a m e, .fin b n f =>
    if n = 0 then (if m = 0 then .nan else .inf (a != b))
    else if m = 0 then .fin (a != b) 0 0
    else fpQuot (a != b) m e n f

/-- FP32 division, correctly rounded (R229). -/
def f32Div (a b : Word) : Word := toF32 (fpDiv (f32 a) (f32 b))

/-- RCP (R97). -/
def f32Rcp (a : Word) : Word := toF32 (fpDiv (.fin false 1 0) (f32 a))

/-- RSQRT (R97), correctly rounded; −0 gives −∞, any other negative gives NaN. -/
def f32Rsqrt (a : Word) : Word :=
  match f32 a with
  | .nan => nan32
  | .inf neg => if neg then nan32 else 0#32
  | .fin neg m e =>
    if m = 0 then toF32 (.inf neg)
    else if neg then nan32
    else
      let m' := if e % 2 = 0 then m else 2 * m
      let e' : Int := if e % 2 = 0 then e else e - 1
      let k := 80 + m'.log2
      let s := isqrt (2 ^ (2 * k) / m')
      let sticky := if s * s * m' = 2 ^ (2 * k) then 0 else 1
      toF32 (.fin false (2 * s + sticky) (-(e' / 2) - k - 1))

/-- CVT.I2F (R92): INT32 to FP32. -/
def cvtI2F (a : Word) : Word := toF32 (Fp.ofInt a.toInt)

/-- A value to an integer in `[lo, hi]`: nearest, ties toward +∞, saturated; NaN gives 0 (R63 with zp = 0, R92). -/
def fpToIntSat (lo hi : Int) : Fp → Int
  | .nan => 0
  | .inf neg => if neg then lo else hi
  | x => clampInt lo hi (fpNearestUp x)

/-- CVT.F2I (R92). -/
def cvtF2I (a : Word) : Word := BitVec.ofInt 32 (fpToIntSat (-2147483648) 2147483647 (f32 a))

/-- Saturation to INT32 (R52, R92). -/
def satI32 (v : Int) : Int := clampInt (-2147483648) 2147483647 v

/-- The element formats of R32. -/
inductive ElemFmt where
  | int4 | int8 | int16 | int32 | e4m3 | e5m2 | fp16 | bf16 | fp32
deriving DecidableEq, Repr

/-- Width of an element in bits (R32). -/
def ElemFmt.bits : ElemFmt → Nat
  | .int4 => 4 | .int8 => 8 | .int16 => 16 | .int32 => 32
  | .e4m3 => 8 | .e5m2 => 8 | .fp16 => 16 | .bf16 => 16 | .fp32 => 32

/-- The floating-point format of an element format, if it is one. -/
def ElemFmt.fp? : ElemFmt → Option FpFmt
  | .e4m3 => some .e4m3 | .e5m2 => some .e5m2 | .fp16 => some .fp16 | .bf16 => some .bf16 | .fp32 => some .fp32
  | _ => none

/-- The exact value of an element (R32): integers in two's complement. -/
def elemValue (f : ElemFmt) (c : Nat) : Fp :=
  match f.fp? with
  | some g => fpDecode g c
  | none => Fp.ofInt (signedOf f.bits c)

/-- Element `i` of a packed byte string, as its encoding (R33). -/
def elemCode {w : Nat} (x : BitVec w) (f : ElemFmt) (i : Nat) : Nat := fieldNat x (f.bits * i) f.bits

/-- The output range of an integer format (R59); `esc` says that the destination carries escapes. -/
def intRange (f : ElemFmt) (esc : Bool) : Int × Int :=
  match f with
  | .int4 => (if esc then -7 else -8, 7)
  | .int8 => (if esc then -127 else -128, 127)
  | .int16 => (-32768, 32767)
  | _ => (-2147483648, 2147483647)

/-- Requantisation, normal path (R60). -/
def requantNormal (acc m : Int) (s : Nat) (zp lo hi : Int) : Int :=
  let p := acc * m + (if s > 0 then ((2 ^ (s - 1) : Nat) : Int) else 0)
  clampInt (lo - zp) (hi - zp) (asr p s) + zp

/-- The table index of the table path (R61). -/
def tableIndex (acc : Int) (k : Nat) (off : Int) : Nat := (clampInt 0 4095 (asr acc k - off)).toNat

/-- Requantisation, FP32 scale path to an integer format (R63): ties toward +∞. -/
def requantScaleInt (acc sc : Word) (zp lo hi : Int) : Int :=
  match fpMul (f32 acc) (f32 sc) with
  | .nan => zp
  | .inf neg => if neg then lo else hi
  | x => clampInt (lo - zp) (hi - zp) (fpNearestUp x) + zp

/-- Requantisation, FP32 scale path to a floating-point format (R63): the exact product, rounded once. -/
def requantScaleFp (f : FpFmt) (acc sc : Word) : Nat := fpEncode f (fpMul (f32 acc) (f32 sc))

/-- VST.CVT (R94): an FP32 lane to a narrower element, tensors without escapes. -/
def narrowElem (f : ElemFmt) (a : Word) : Nat :=
  match f.fp? with
  | some g => fpEncode g (f32 a)
  | none => let r := intRange f false; wrapNat f.bits (fpToIntSat r.1 r.2 (f32 a))

/-- VLD.CVT (R94): an element to FP32, exact. -/
def widenElem (f : ElemFmt) (c : Nat) : Word := toF32 (elemValue f c)

/-- The smallest non-negative finite E4M3 code whose value is at least `num / den` (R181); 0x7E when it exceeds 448.
Here `num / den` is given by two values of one exponent scale: the least code `c` with `num ≤ value c * den`. -/
def ceilE4m3Aux (num den : Fp) : Nat → Nat → Nat
  | 0, c => c
  | k + 1, c => if fpLe num (fpMul (fpDecode .e4m3 c) den) then c else ceilE4m3Aux num den k (c + 1)

/-- `ceil_e4m3 (num / den)` of R181. -/
def ceilE4m3 (num den : Fp) : Nat := ceilE4m3Aux num den 0x7E 0

end Sys2Proof.Machine
end

