-- ==== Sys2Proof/Machine/Functions.lean ====
section
/-! DEFINITION. The function approximations of the vector unit: EXP2 (R95), LOG2 (R96) and ACT (R98, R99), with
their tables. The tables are the integers nearest the real values that R95 and R96 define. -/

namespace Sys2Proof.Machine

/-- Part 0 of `exp2Tab`. -/
def exp2TabPart0 : List Nat :=
  [ 1073741824, 1076653033, 1079572136, 1082499153, 1085434106, 1088377016, 1091327906, 1094286796,
    1097253708, 1100228665, 1103211687, 1106202798, 1109202018, 1112209370, 1115224875, 1118248556,
    1121280436, 1124320536, 1127368878, 1130425485, 1133490379, 1136563583, 1139645120, 1142735011,
    1145833280, 1148939949, 1152055042, 1155178580, 1158310587, 1161451085, 1164600099, 1167757650 ]

/-- Part 1 of `exp2Tab`. -/
def exp2TabPart1 : List Nat :=
  [ 1170923762, 1174098458, 1177281762, 1180473697, 1183674286, 1186883552, 1190101520, 1193328213,
    1196563654, 1199807867, 1203060876, 1206322705, 1209593378, 1212872918, 1216161350, 1219458698,
    1222764986, 1226080238, 1229404479, 1232737732, 1236080024, 1239431376, 1242791816, 1246161366,
    1249540052, 1252927899, 1256324931, 1259731174, 1263146652, 1266571390, 1270005413, 1273448747 ]

/-- Part 2 of `exp2Tab`. -/
def exp2TabPart2 : List Nat :=
  [ 1276901417, 1280363448, 1283834865, 1287315695, 1290805962, 1294305692, 1297814910, 1301333643,
    1304861917, 1308399756, 1311947188, 1315504238, 1319070932, 1322647296, 1326233356, 1329829140,
    1333434672, 1337049980, 1340675091, 1344310030, 1347954824, 1351609500, 1355274085, 1358948606,
    1362633090, 1366327563, 1370032052, 1373746586, 1377471191, 1381205894, 1384950723, 1388705706 ]

/-- Part 3 of `exp2Tab`. -/
def exp2TabPart3 : List Nat :=
  [ 1392470869, 1396246240, 1400031848, 1403827719, 1407633882, 1411450365, 1415277195, 1419114401,
    1422962010, 1426820052, 1430688553, 1434567544, 1438457051, 1442357104, 1446267730, 1450188960,
    1454120821, 1458063343, 1462016553, 1465980482, 1469955159, 1473940611, 1477936870, 1481943963,
    1485961921, 1489990772, 1494030547, 1498081275, 1502142985, 1506215708, 1510299473, 1514394310 ]

/-- Part 4 of `exp2Tab`. -/
def exp2TabPart4 : List Nat :=
  [ 1518500250, 1522617322, 1526745556, 1530884983, 1535035634, 1539197537, 1543370725, 1547555228,
    1551751076, 1555958300, 1560176931, 1564406999, 1568648537, 1572901575, 1577166143, 1581442275,
    1585730000, 1590029350, 1594340357, 1598663052, 1602997467, 1607343634, 1611701585, 1616071351,
    1620452965, 1624846459, 1629251865, 1633669214, 1638098541, 1642539877, 1646993254, 1651458706 ]

/-- Part 5 of `exp2Tab`. -/
def exp2TabPart5 : List Nat :=
  [ 1655936265, 1660425963, 1664927835, 1669441912, 1673968228, 1678506817, 1683057710, 1687620943,
    1692196547, 1696784557, 1701385007, 1705997930, 1710623359, 1715261330, 1719911875, 1724575029,
    1729250827, 1733939301, 1738640488, 1743354420, 1748081133, 1752820662, 1757573041, 1762338305,
    1767116489, 1771907628, 1776711757, 1781528911, 1786359126, 1791202437, 1796058879, 1800928489 ]

/-- Part 6 of `exp2Tab`. -/
def exp2TabPart6 : List Nat :=
  [ 1805811301, 1810707353, 1815616678, 1820539314, 1825475297, 1830424663, 1835387448, 1840363688,
    1845353420, 1850356681, 1855373507, 1860403934, 1865448001, 1870505744, 1875577199, 1880662405,
    1885761398, 1890874216, 1896000896, 1901141476, 1906295993, 1911464486, 1916646992, 1921843549,
    1927054196, 1932278970, 1937517909, 1942771053, 1948038440, 1953320108, 1958616096, 1963926443 ]

/-- Part 7 of `exp2Tab`. -/
def exp2TabPart7 : List Nat :=
  [ 1969251188, 1974590370, 1979944027, 1985312200, 1990694927, 1996092249, 2001504204, 2006930832,
    2012372174, 2017828268, 2023299156, 2028784876, 2034285470, 2039800978, 2045331439, 2050876895,
    2056437387, 2062012954, 2067603638, 2073209480, 2078830522, 2084466803, 2090118366, 2095785251,
    2101467502, 2107165158, 2112878262, 2118606857, 2124350982, 2130110682, 2135885998, 2141676973 ]

/-- t2[i] = rne(2^(30 + i/256)), i = 0 to 255 (R95). -/
def exp2Tab : List Nat :=
  exp2TabPart0 ++ exp2TabPart1 ++ exp2TabPart2 ++ exp2TabPart3 ++ exp2TabPart4 ++ exp2TabPart5 ++ exp2TabPart6 ++ exp2TabPart7

/-- Part 0 of `log2Tab`. -/
def log2TabPart0 : List Nat :=
  [ 0, 6039314, 12055174, 18047761, 24017256, 29963836, 35887675, 41788947,
    47667823, 53524472, 59359063, 65171760, 70962728, 76732128, 82480119, 88206862,
    93912511, 99597222, 105261148, 110904440, 116527248, 122129721, 127712004, 133274244,
    138816582, 144339162, 149842124, 155325606, 160789745, 166234679, 171660541, 177067464 ]

/-- Part 1 of `log2Tab`. -/
def log2TabPart1 : List Nat :=
  [ 182455581, 187825021, 193175914, 198508388, 203822568, 209118580, 214396548, 219656594,
    224898839, 230123404, 235330407, 240519966, 245692198, 250847218, 255985140, 261106077,
    266210141, 271297442, 276368092, 281422197, 286459867, 291481207, 296486323, 301475319,
    306448299, 311405366, 316346620, 321272163, 326182095, 331076513, 335955515, 340819199 ]

/-- Part 2 of `log2Tab`. -/
def log2TabPart2 : List Nat :=
  [ 345667660, 350500993, 355319292, 360122651, 364911162, 369684916, 374444004, 379188517,
    383918542, 388634168, 393335482, 398022572, 402695523, 407354420, 411999347, 416630388,
    421247625, 425851141, 430441017, 435017334, 439580170, 444129607, 448665721, 453188592,
    457698295, 462194908, 466678506, 471149164, 475606957, 480051959, 484484242, 488903880 ]

/-- Part 3 of `log2Tab`. -/
def log2TabPart3 : List Nat :=
  [ 493310944, 497705506, 502087636, 506457405, 510814882, 515160136, 519493235, 523814248,
    528123241, 532420281, 536705435, 540978767, 545240343, 549490228, 553728485, 557955178,
    562170370, 566374123, 570566499, 574747559, 578917365, 583075977, 587223455, 591359858,
    595485245, 599599675, 603703206, 607795895, 611877800, 615948977, 620009483, 624059373 ]

/-- Part 4 of `log2Tab`. -/
def log2TabPart4 : List Nat :=
  [ 628098702, 632127527, 636145900, 640153876, 644151509, 648138853, 652115959, 656082880,
    660039669, 663986377, 667923055, 671849754, 675766525, 679673418, 683570481, 687457766,
    691335320, 695203192, 699061430, 702910083, 706749198, 710578822, 714399001, 718209783,
    722011213, 725803337, 729586201, 733359850, 737124328, 740879680, 744625951, 748363183 ]

/-- Part 5 of `log2Tab`. -/
def log2TabPart5 : List Nat :=
  [ 752091421, 755810707, 759521085, 763222597, 766915285, 770599192, 774274358, 777940826,
    781598637, 785247830, 788888448, 792520529, 796144114, 799759243, 803365955, 806964289,
    810554283, 814135978, 817709409, 821274617, 824831638, 828380510, 831921271, 835453956,
    838978604, 842495250, 846003931, 849504683, 852997541, 856482542, 859959719, 863429109 ]

/-- Part 6 of `log2Tab`. -/
def log2TabPart6 : List Nat :=
  [ 866890747, 870344666, 873790901, 877229486, 880660455, 884083842, 887499680, 890908003,
    894308843, 897702233, 901088206, 904466794, 907838029, 911201944, 914558569, 917907937,
    921250079, 924585025, 927912807, 931233456, 934547002, 937853475, 941152905, 944445323,
    947730758, 951009239, 954280797, 957545460, 960803257, 964054218, 967298370, 970535742 ]

/-- Part 7 of `log2Tab`. -/
def log2TabPart7 : List Nat :=
  [ 973766362, 976990259, 980207461, 983417995, 986621888, 989819169, 993009864, 996194001,
    999371606, 1002542707, 1005707329, 1008865499, 1012017244, 1015162589, 1018301561, 1021434185,
    1024560487, 1027680492, 1030794226, 1033901713, 1037002979, 1040098049, 1043186948, 1046269699,
    1049346328, 1052416858, 1055481314, 1058539720, 1061592099, 1064638476, 1067678873, 1070713315 ]

/-- lg[i] = rne(2^30 log2(1 + i/256)), i = 0 to 255 (R96). -/
def log2Tab : List Nat :=
  log2TabPart0 ++ log2TabPart1 ++ log2TabPart2 ++ log2TabPart3 ++ log2TabPart4 ++ log2TabPart5 ++ log2TabPart6 ++ log2TabPart7

/-- Part 0 of `recipTab`. -/
def recipTabPart0 : List Nat :=
  [ 1073741824, 1069563840, 1065418244, 1061304660, 1057222719, 1053172057, 1049152317, 1045163144,
    1041204193, 1037275121, 1033375590, 1029505269, 1025663832, 1021850955, 1018066322, 1014309620,
    1010580540, 1006878780, 1003204040, 999556025, 995934445, 992339014, 988769449, 985225473,
    981706811, 978213192, 974744351, 971300025, 967879954, 964483884, 961111563, 957762742 ]

/-- Part 1 of `recipTab`. -/
def recipTabPart1 : List Nat :=
  [ 954437177, 951134626, 947854852, 944597618, 941362695, 938149853, 934958867, 931789515,
    928641578, 925514838, 922409084, 919324103, 916259690, 913215638, 910191745, 907187812,
    904203641, 901239039, 898293814, 895367775, 892460737, 889572514, 886702926, 883851791,
    881018933, 878204176, 875407347, 872628276, 869866794, 867122735, 864395934, 861686229 ]

/-- Part 2 of `recipTab`. -/
def recipTabPart2 : List Nat :=
  [ 858993459, 856317467, 853658096, 851015192, 848388602, 845778175, 843183764, 840605220,
    838042399, 835495158, 832963354, 830446849, 827945503, 825459180, 822987745, 820531066,
    818089009, 815661445, 813248245, 810849283, 808464432, 806093569, 803736570, 801393315,
    799063683, 796747556, 794444818, 792155351, 789879043, 787615779, 785365448, 783127940 ]

/-- Part 3 of `recipTab`. -/
def recipTabPart3 : List Nat :=
  [ 780903145, 778690955, 776491263, 774303963, 772128952, 769966126, 767815383, 765676621,
    763549742, 761434645, 759331235, 757239413, 755159085, 753090156, 751032533, 748986122,
    746950834, 744926577, 742913262, 740910800, 738919105, 736938088, 734967666, 733007752,
    731058263, 729119117, 727190230, 725271522, 723362913, 721464323, 719575673, 717696885 ]

/-- Part 4 of `recipTab`. -/
def recipTabPart4 : List Nat :=
  [ 715827883, 713968589, 712118930, 710278829, 708448214, 706627010, 704815146, 703012550,
    701219150, 699434878, 697659662, 695893435, 694136129, 692387675, 690648007, 688917060,
    687194767, 685481065, 683775888, 682079174, 680390859, 678710881, 677039180, 675375693,
    673720360, 672073122, 670433919, 668802693, 667179386, 665563939, 663956297, 662356402 ]

/-- Part 5 of `recipTab`. -/
def recipTabPart5 : List Nat :=
  [ 660764199, 659179633, 657602648, 656033191, 654471207, 652916644, 651369448, 649829567,
    648296950, 646771546, 645253303, 643742171, 642238100, 640741042, 639250946, 637767766,
    636291451, 634821956, 633359233, 631903234, 630453915, 629011229, 627575130, 626145574,
    624722516, 623305911, 621895717, 620491889, 619094385, 617703162, 616318177, 614939389 ]

/-- Part 6 of `recipTab`. -/
def recipTabPart6 : List Nat :=
  [ 613566757, 612200238, 610839793, 609485381, 608136962, 606794497, 605457945, 604127268,
    602802428, 601483385, 600170102, 598862542, 597560667, 596264440, 594973825, 593688784,
    592409282, 591135284, 589866753, 588603655, 587345955, 586093618, 584846611, 583604898,
    582368447, 581137224, 579911196, 578690330, 577474594, 576263956, 575058383, 573857843 ]

/-- Part 7 of `recipTab`. -/
def recipTabPart7 : List Nat :=
  [ 572662306, 571471740, 570286114, 569105397, 567929560, 566758571, 565592401, 564431020,
    563274399, 562122509, 560975320, 559832804, 558694933, 557561677, 556433010, 555308903,
    554189329, 553074259, 551963669, 550857529, 549755814, 548658497, 547565552, 546476952,
    545392673, 544312687, 543236970, 542165497, 541098242, 540035181, 538976288, 537921540 ]

/-- rc[i] = rne(2^38 / (256 + i)), i = 0 to 255 (R96). -/
def recipTab : List Nat :=
  recipTabPart0 ++ recipTabPart1 ++ recipTabPart2 ++ recipTabPart3 ++ recipTabPart4 ++ recipTabPart5 ++ recipTabPart6 ++ recipTabPart7

/-- C1 = rne(2^30 ln 2) (R95). -/
def exp2C1 : Nat := 744261118

/-- C2 = rne(2^29 (ln 2)^2) (R95). -/
def exp2C2 : Nat := 257941248

/-- D1 = rne(2^30 / ln 2) (R96). -/
def log2D1 : Nat := 1549082005

/-- D2 = rne(2^29 / ln 2) (R96). -/
def log2D2 : Nat := 774541002

/-- EXP2 of one FP32 lane (R95). -/
def vexp2 (w : Word) : Word :=
  match f32 w with
  | .nan => nan32
  | .inf neg => if neg then 0#32 else 0x7F800000#32
  | .fin neg m e =>
    let x : Fp := .fin neg m e
    if fpLe (.fin false 128 0) x then 0x7F800000#32
    else if fpLt x (.fin true 160 0) then 0#32
    else
      let n := fpFloor x
      let f := fpAdd x (Fp.ofInt (-n))
      let fq := (fpFloor (f.scale 24)).toNat
      let i := fq / 65536
      let r := fq % 65536
      let p := 2 ^ 30 + r * exp2C1 / 2 ^ 24 + (r * r / 2 ^ 24) * exp2C2 / 2 ^ 24
      let mm := exp2Tab.getD i 0 * p / 2 ^ 30
      toF32 (.fin false mm (n - 30))

/-- LOG2 of one FP32 lane (R96). -/
def vlog2 (w : Word) : Word :=
  match f32 w with
  | .nan => nan32
  | .inf neg => if neg then nan32 else 0x7F800000#32
  | .fin neg m e =>
    if m = 0 then 0xFF800000#32
    else if neg then nan32
    else
      let l := m.log2
      let j := if l ≤ 23 then m * 2 ^ (23 - l) - 2 ^ 23 else 0
      let ex : Int := e + l
      let i := j / 2 ^ 15
      let rl := j % 2 ^ 15
      let u := rl * recipTab.getD i 0 / 2 ^ 23
      let q : Int := ((u * log2D1 / 2 ^ 30 : Nat) : Int) - (((u * u / 2 ^ 30) * log2D2 / 2 ^ 30 : Nat) : Int)
      let y : Int := ex * 2 ^ 30 + (log2Tab.getD i 0 : Int) + q
      toF32 (Fp.dyadic y (-30))

/-- An activation table record (R98): five lines as one bit vector. -/
abbrev ActTable := BitVec 10240

/-- FP32 field of an activation table at a byte offset. -/
def actField (t : ActTable) (off : Nat) : Word := t.extractLsb' (8 * off) 32

/-- The step exponent HEXP of a table (R98). -/
def actHexp (t : ActTable) : Int := fieldInt t 32 8

/-- The tail of ACT (R99): `fma (x, a, b)`, but for an infinite x and a zero slope the offset. -/
def actTail (x a b : Word) : Word :=
  match f32 x with
  | .inf _ => if (f32 a).isZero then toF32 (f32 b) else f32Fma x a b
  | _ => f32Fma x a b

/-- ACT of one FP32 lane (R99). -/
def vact (t : ActTable) (x : Word) : Word :=
  if (f32 x).isNan then nan32 else
  let d := f32Sub x (actField t 0)
  if (f32 d).isNan then nan32 else
  let s := toF32 ((f32 d).scale (-(actHexp t)))
  if fpLt (f32 s) (.fin false 0 0) then actTail x (actField t 8) (actField t 12)
  else if fpLe (.fin false 256 0) (f32 s) then actTail x (actField t 16) (actField t 20)
  else
    let k := (fpFloor (f32 s)).toNat
    let fr := toF32 (fpAdd (f32 s) (Fp.ofInt k).negate)
    let k0 := actField t (32 + 4 * k)
    let k1 := actField t (32 + 4 * (k + 1))
    f32Fma fr (f32Sub k1 k0) k0

end Sys2Proof.Machine
end

