-- ==== Sys2Proof/Machine/Array.lean ====
section
/-! DEFINITION. The arithmetic of a tensor core's array: weight tiles with their escapes and scales (R40 to R49, R128,
R129), the column reductions (R50 to R57), the drain's conversions (R58 to R64) and the rim check (R417 to R419). -/

namespace Sys2Proof.Machine

/-- Array mode of a stored tile (R65, R127): 0 INT8, 1 INT4, 2 FP8, 3 FP16, 4 BF16. -/
def tileMode (wfmt xmode : Nat) : Nat :=
  if wfmt ≤ 1 then (if xmode = 2 then 3 else if xmode = 3 then 4 else if xmode = 1 then 0 else wfmt)
  else if wfmt ≤ 3 then 2 else if wfmt = 4 then 3 else 4

/-- Array mode of an activation format (R65, R131). -/
def rowMode (afmt : Nat) : Nat := if afmt ≤ 1 then afmt else if afmt ≤ 3 then 2 else if afmt = 4 then 3 else 4

/-- Is the mode one of the two 16-bit modes. -/
def mode16 (mode : Nat) : Bool := mode == 3 || mode == 4

/-- The combinations of R526. Whether the tile keeps R48's condition on segments and groups is not checked: no field shows
it (DESIGN CHOICE, log 95). -/
def loadwOk (wfmt xmode : Nat) (bs esc : Bool) : Bool :=
  (wfmt == 0 && xmode != 1) || (wfmt == 1 && esc) || (2 ≤ wfmt && wfmt ≤ 5 && xmode == 0 && !bs && !esc)

/-- Weight row spacing λ and activation row spacing (R65), and stages s (R69). -/
def modeLambda (mode : Nat) : Nat := if mode16 mode then 2 else 1
@[inherit_doc modeLambda] def modeRho (mode : Nat) : Nat := if mode16 mode then 4 else 1
@[inherit_doc modeLambda] def modeStages (mode : Nat) : Nat := if mode16 mode then 12 else 9

/-- Bytes of a storage row (R128). -/
def rowBytes (wfmt : Nat) : Nat := if wfmt = 4 ∨ wfmt = 5 then 256 else 128

/-- Storage rows S_R (R128). -/
def storageRows (wfmt xmode k : Nat) : Nat := if wfmt = 1 ∧ xmode ≠ 0 then (k + 1) / 2 else k

/-- Depths of a tile's elements (R65): two per lane row in INT4 mode. -/
def tileDepth (mode k : Nat) : Nat := if mode = 1 then 2 * k else k

/-- Prefix lines P of a LOADW (R130). -/
def prefixCount (wfmt xmode : Nat) (bs esc : Bool) (k : Nat) : Nat :=
  (if bs then (if wfmt = 1 then 6 else 4) else 0) +
  (if esc then ceilDiv (storageRows wfmt xmode k * rowBytes wfmt) 4096 else 0)

/-! ### Escapes (R40 to R44) -/

/-- A resolved element: an integer, or with the flag set an FP16 encoding. -/
abbrev Resolved := Bool × Int

/-- The exact value of a resolved element. -/
def resolvedValue (r : Resolved) : Fp := if r.1 then fpDecode .fp16 r.2.toNat else Fp.ofInt r.2

/-- The walk of R43 over one escape block: elements with their keys (R42) against the entries that take part. Answers
the elements and whether ESC_MISS sets. -/
def escWalk (escCode bits : Nat) (kindOk fp16 : Bool) : List (Nat × Nat) → List Word → List Resolved × Bool
  | [], es => ([], !es.isEmpty)
  | (key, c) :: xs, es =>
    if c = escCode then
      match es with
      | [] =>
        let r := escWalk escCode bits kindOk fp16 xs []
        ((false, 0) :: r.1, true)
      | e :: es' =>
        let r := escWalk escCode bits kindOk fp16 xs es'
        if 2 * fieldNat e 0 12 + fieldNat e 12 1 = key ∧ kindOk then
          ((fp16, if fp16 then ((fieldNat e 16 16 : Nat) : Int) else fieldInt e 16 16) :: r.1, r.2)
        else ((false, 0) :: r.1, true)
    else
      let r := escWalk escCode bits kindOk fp16 xs es
      ((false, signedOf bits c) :: r.1, r.2)

/-- The entries of a side-list record that take part in the walk (R41, R43). -/
def escEntries (side : Line) (lastByte : Nat) : List Word :=
  ((List.range (min (bytesNat side 0 1) 32)).map fun i => (side.extractLsb' (8 * (16 + 4 * i)) 32 : Word)).filter
    fun e => fieldNat e 0 12 < lastByte

/-- The elements of escape block `b`: key and code, in key order. -/
def escBlock (int4 : Bool) (ls : Array Line) (b bytes : Nat) : List (Nat × Nat) :=
  (List.range bytes).flatMap fun o =>
    let v := bytesNat (ls.getD (16 * b + o / 256) 0#2048) (o % 256) 1
    if int4 then [(2 * o, v % 16), (2 * o + 1, v / 16)] else [(2 * o, v)]

/-- Every element of an integer tile's storage, in order, and whether ESC_MISS sets. `fp16` marks an expansion. -/
def resolveStore (int4 esc fp16 : Bool) (ls : Array Line) (nbytes : Nat) (recs : Array Line) : List Resolved × Bool :=
  let blocks := (List.range (ceilDiv nbytes 4096)).map fun b =>
    let n := min 4096 (nbytes - 4096 * b)
    let els := escBlock int4 ls b n
    if esc then
      let side := recs.getD b 0#2048
      escWalk (if int4 then 8 else 0x80) (if int4 then 4 else 8)
        (bytesNat side 1 1 == (if fp16 then 1 else 0)) fp16 els (escEntries side n)
    else (els.map fun x => (false, signedOf (if int4 then 4 else 8) x.2), false)
  (blocks.flatMap (·.1), blocks.any (·.2))

/-! ### Tiles -/

/-- The finite part of a value in units of 2^-`lsb`, exact for the formats of R417 and R418; a non-finite one is 0. -/
def finFix (lsb : Nat) : Fp → Int
  | .fin neg m e =>
    let v := fpFloor (.fin false m (e + lsb))
    if neg then -v else v
  | _ => 0

/-- `x` in two's complement at `bits` bits. -/
def wrapInt (bits : Nat) (x : Int) : Int := signedOf bits (x % 2 ^ bits).toNat

/-- A tile as it stands in the array: per column, one value per depth (an integer, or an encoding in the
floating-point modes); the E4M3 codes per column and group, and the second-level scales (R46, R129); the check weights
of each depth (R417) with the finite parts they sum, in units of 2^-`lsb`. -/
structure Tile where
  w : List (List Int)
  codes : List (List Nat)
  s2 : List Word
  lsb : Nat
  fix : List (List Int)
  cw : List Int
  xw : List Int
deriving DecidableEq, Repr

/-- Groups per column of a scale record (R129). -/
def scaleGroups (wfmt : Nat) : Nat := if wfmt = 1 then 8 else 4

/-- Byte `o` of consecutive lines, as `n` little-endian bytes inside one line. -/
def linesNat (ls : Array Line) (o n : Nat) : Nat := bytesNat (ls.getD (o / 256) 0#2048) (o % 256) n

/-- The check weights of every depth (R417, R418): the plain and the index-weighted sum over the columns, at the widths
of the table (`plain`: 24 and 30 bits, else 48). -/
def checkWeights (plain : Bool) (depth : Nat) (fix : List (List Int)) : List Int × List Int :=
  let cols := fix.map (·.toArray)
  let sum := fun (d : Nat) (weighted : Bool) => (cols.zipIdx).foldl (fun (acc : Int) (x : Array Int × Nat) =>
    acc + (if weighted then (x.2 : Int) + 1 else 1) * x.1.getD d 0) 0
  ((List.range depth).map fun d => wrapInt (if plain then 24 else 48) (sum d false),
   (List.range depth).map fun d => wrapInt (if plain then 30 else 48) (sum d true))

/-- A tile with its check weights. The 16-bit modes do not use the check columns (R421). -/
def mkTile (mode wfmt : Nat) (bs : Bool) (depth : Nat) (w : List (List Int)) (codes : List (List Nat)) (s2 : List Word) :
    Tile :=
  let lsb := if mode = 2 then 16 else if bs then 9 else 0
  let fix := if mode16 mode then [] else w.zipIdx.map fun x =>
    let cs := codes.getD x.2 []
    x.1.zipIdx.map fun y =>
      if mode = 2 then finFix lsb (fpDecode (if wfmt = 2 then .e4m3 else .e5m2) y.1.toNat)
      else if bs then y.1 * finFix lsb (fpDecode .e4m3 (cs.getD (y.2 / 32) 0x38)) else y.1
  let c := if mode16 mode then ([], []) else checkWeights (mode != 2 && !bs) depth fix
  { w := w, codes := codes, s2 := s2, lsb := lsb, fix := fix, cw := c.1, xw := c.2 }

/-- Form a tile from its weight lines and its prefix lines (R49, R51, R128 to R130); ESC_MISS. In the expansion to 16 bits an
integer element 0 is +0, so times a negative scale it gives −0: the rules name no sign (DESIGN CHOICE, log 114). -/
def buildTile (wfmt xmode : Nat) (bs esc : Bool) (k n : Nat) (weights pre : List Line) : Tile × Bool :=
  let ls := weights.toArray
  let mode := tileMode wfmt xmode
  let depth := tileDepth mode k
  let g := scaleGroups wfmt
  let recs := pre.toArray
  let srecLines := if bs then (if wfmt = 1 then 6 else 4) else 0
  let codes := (List.range n).map fun c => (List.range g).map fun i => if bs then linesNat recs (c * g + i) 1 else 0x38
  let s2 := (List.range n).map fun c =>
    if bs then BitVec.ofNat 32 (linesNat recs (128 * g + 4 * c) 4) else 0x3F800000#32
  if wfmt ≤ 1 then
    let int4 := wfmt == 1
    let r := resolveStore int4 esc (mode16 mode) ls (storageRows wfmt xmode k * 128) (recs.toList.drop srecLines).toArray
    let els := r.1.toArray
    let at_ := fun c d => els.getD (if int4 then 2 * (d / 2 * 128 + c) + d % 2 else d * 128 + c) (false, 0)
    let w := (List.range n).map fun c => (List.range depth).map fun d =>
      let v := at_ c d
      if mode16 mode then
        let sc := fpMul (fpDecode .e4m3 ((codes.getD c []).getD (d / 32) 0x38)) (f32 (s2.getD c 0#32))
        ((fpEncode (if mode = 3 then .fp16 else .bf16) (fpMul (resolvedValue v) sc) : Nat) : Int)
      else v.2
    (mkTile mode wfmt bs depth w codes s2, r.2)
  else
    let sz := if wfmt ≤ 3 then 1 else 2
    let w := (List.range n).map fun c => (List.range depth).map fun d =>
      ((linesNat ls (d * 128 * sz + c * sz) sz : Nat) : Int)
    (mkTile mode wfmt bs depth w codes s2, false)

/-! ### Column reduction (R50 to R56) -/

/-- An activation row: one value (or encoding) per depth, whether the depth takes part (R66, R158), and its scales. -/
structure ActRow where
  a : List Int
  inc : List Bool
  codes : List Nat
  s2 : Word
deriving DecidableEq, Repr

/-- The elements of an activation row in its mode (R65); activations carry no escapes (R40). -/
def rowElems (afmt depth : Nat) (l : Line) : List Int :=
  (List.range depth).map fun d =>
    if afmt = 1 then fieldInt l (4 * d) 4
    else if afmt = 0 then fieldInt l (8 * d) 8
    else if afmt ≤ 3 then ((fieldNat l (8 * d) 8 : Nat) : Int)
    else ((fieldNat l (16 * d) 16 : Nat) : Int)

/-- An activation row of the creel (R135), scaled or not. -/
def rowOfLine (afmt depth : Nat) (scaled : Bool) (inc : List Bool) (l : Line) : ActRow :=
  let g := if afmt = 1 then 8 else 4
  { a := rowElems afmt depth l, inc := inc,
    codes := (List.range g).map fun i => if scaled then bytesNat l (128 + i) 1 else 0x38,
    s2 := if scaled then BitVec.ofNat 32 (bytesNat l (128 + g) 4) else 0x3F800000#32 }

/-- The weight and activation pairs of a column that take part, as one list per depth. -/
def colTerms (w : List Int) (r : ActRow) : List (Option (Int × Int)) :=
  List.zipWith (fun p i => if i then some p else none) (w.zip r.a) r.inc

/-- The finite parts of an activation row's elements, in units of 2^-(0, 9 or 16) (R418, R420). -/
def rowFix (mode afmt : Nat) (scaled : Bool) (r : ActRow) : List Int :=
  r.a.zipIdx.map fun x =>
    if mode = 2 then finFix 16 (fpDecode (if afmt = 2 then .e4m3 else .e5m2) x.1.toNat)
    else if scaled then x.1 * finFix 9 (fpDecode .e4m3 (r.codes.getD (x.2 / 32) 0x38)) else x.1

/-- The exact sum of products over the depths that take part (R52, R53, R55). -/
def fixDot : List Int → List Int → List Bool → Int
  | w :: ws, a :: as, i :: is => (if i then w * a else 0) + fixDot ws as is
  | _, _, _ => 0

/-- Units that one unit of a product of finite parts counts in the comparator: its LSB is 1 in the plain modes and 2^-40
otherwise (R418). -/
def fixScale (mode : Nat) (scaled : Bool) (lsb : Nat) : Int :=
  if mode = 2 then 2 ^ 8 else if scaled then 2 ^ (31 - lsb) else 1

/-- Does a NaN code reach the sum of a block-scaled column (R55): a code of a group that takes part. -/
def codeNan (cw ca : List Nat) (inc : List Bool) : Bool :=
  (List.range 8).any fun g => ((inc.drop (32 * g)).take 32).any id &&
    ((fpDecode .e4m3 (cw.getD g 0x38)).isNan || (fpDecode .e4m3 (ca.getD g 0x38)).isNan)

/-- The clamp of R55: `|T|` at 2^39 and above. -/
def clampTotal : Fp → Fp × Bool
  | .fin neg m e =>
    if fpLe (.fin false 1 39) (.fin false m e) then (.fin neg (2 ^ 79 - 1) (-40), true) else (.fin neg m e, false)
  | x => (x, false)

/-- The special result of an FP8 column (R54): NaN or an infinity where a product is one, else none. -/
def fp8Special (aFmt wFmt : FpFmt) (ts : List (Option (Int × Int))) : Option Fp :=
  ts.foldl (fun acc t => match t with
    | some (w, a) =>
      let x := fpDecode wFmt w.toNat
      let y := fpDecode aFmt a.toNat
      if x.isFinite && y.isFinite then acc
      else some (match acc with
        | some z => fpAdd z (fpMul x y)
        | none => fpMul x y)
    | none => acc) none

/-- One level of the tree of R56: a node with one present child is that child (R66). -/
def treeLevel : List (Option Word) → List (Option Word)
  | a :: b :: xs =>
    (match a, b with
      | some x, some y => some (f32Add x y)
      | some x, none => some x
      | none, y => y) :: treeLevel xs
  | xs => xs

/-- `k` levels of the tree. -/
def treeSum : Nat → List (Option Word) → List (Option Word)
  | 0, xs => xs
  | k + 1, xs => treeSum k (treeLevel xs)

/-- The exact sum `y` of column `col` before rounding, accumulation and clamp, in the comparator's LSB (R418). -/
def colSum (mode : Nat) (scaled : Bool) (t : Tile) (col : Nat) (fix : List Int) (r : ActRow) : Int :=
  fixScale mode scaled t.lsb * fixDot (t.fix.getD col []) fix r.inc

/-- The pass result of one column from its exact sum `y` (R52 to R56) and whether the clamp of R55 struck; in a 16-bit mode
`y` is a disturbance of the encoding that the column's first path gives (R421). In a block-scaled mode a special result sets no
SAT flag, whatever the total of the finite groups, and a zero total gives a zero of the sign of S2_w × S2_a (DESIGN CHOICE,
log 106). -/
def reduceCol (mode afmt wfmt : Nat) (scaled : Bool) (t : Tile) (col : Nat) (r : ActRow) (y : Int) : Word × Bool :=
  let w := t.w.getD col []
  if mode ≤ 1 && !scaled then (BitVec.ofInt 32 y, false)
  else if mode ≤ 1 then
    let x := if codeNan (t.codes.getD col []) r.codes r.inc then (Fp.nan, false) else clampTotal (Fp.dyadic y (-40))
    (toF32 (fpMul (fpMul x.1 (f32 (t.s2.getD col 0#32))) (f32 r.s2)), x.2)
  else if mode = 2 then
    match fp8Special (if afmt = 2 then .e4m3 else .e5m2) (if wfmt = 2 then .e4m3 else .e5m2) (colTerms w r) with
    | some x => (toF32 x, false)
    | none => (toF32 (Fp.dyadic y (-40)), false)
  else
    let f : FpFmt := if mode = 3 then .fp16 else .bf16
    let ps := (colTerms w r).map fun t => t.map fun p => toF32 (fpMul (fpDecode f p.1.toNat) (fpDecode f p.2.toNat))
    let padded := ps ++ List.replicate (128 - ps.length) none
    (((treeSum 7 padded).getD 0 none).getD 0#32 + BitVec.ofInt 32 y, false)

/-- The residue of an accumulator entry (R423): modulo 7, of the signed value, or of the encoding of an FP32 entry. -/
def residue (isFp : Bool) (v : Word) : Nat := if isFp then v.toNat % 7 else (v.toInt % 7).toNat

/-- The residue that an accumulation stores (R423): of the first pass's result; of a sum, predicted from the residues of its
terms; of a saturated value; of an FP32 sum's encoding. -/
def predictResidue (isFp : Bool) (old : Option (Word × Nat)) (new : Word) (sum : Word × Bool) : Nat :=
  match old with
  | none => residue isFp new
  | some o => if isFp || sum.2 then residue isFp sum.1 else (o.2 + residue isFp new) % 7

/-- Accumulation of a pass result (R52, R57): the first pass writes, later passes add. -/
def accumulate (isFp : Bool) (old : Option Word) (new : Word) : Word × Bool :=
  match old with
  | none => (new, false)
  | some o =>
    if isFp then (f32Add o new, false)
    else
      let v := o.toInt + new.toInt
      (BitVec.ofInt 32 (satI32 v), decide (v ≠ satI32 v))

/-! ### Drain (R58 to R64, R76, R125) -/

/-- OFMT (R125). -/
def ofmtOf (c : Nat) : Option ElemFmt :=
  match c with
  | 0 => some .int4 | 1 => some .int8 | 2 => some .int16 | 3 => some .e4m3
  | 4 => some .e5m2 | 5 => some .fp16 | 6 => some .bf16 | _ => none

/-- Bytes per output row W (R76): 2N at N = 128 on the table path, whatever the format (log 74). -/
def outBytes (path : Nat) (f : ElemFmt) : Nat := if path ≥ 2 then 512 else if path = 1 then 256 else 16 * f.bits

/-- The drain's row spacing ρ_d (R76). -/
def drainSpacing (path n : Nat) : Nat := if path = 0 then 1 else if path = 1 then n else 2

/-- A parameter entry (R58): the words at bytes 0, 4 and 8. -/
structure Param where
  m : Word
  s : Nat
  k : Nat
  off : Int
deriving DecidableEq, Repr

/-- The parameter entry of channel `c`, `off` bytes into the lines read. -/
def paramOf (ls : List Line) (off c : Nat) : Param :=
  let a := ls.toArray
  let o := off + 16 * c
  { m := BitVec.ofNat 32 (linesNat a o 4), s := linesNat a (o + 4) 1 % 64, k := linesNat a (o + 5) 1 % 32,
    off := signedOf 32 (linesNat a (o + 8) 4) }

/-- The normal path and the FP32-scale path (R60, R63) of one element, with zp = 0 (R58): its encoding. -/
def drainElem (f : ElemFmt) (esc isFp : Bool) (p : Param) (v : Word) : Nat :=
  let r := intRange f esc
  if isFp then
    match f.fp? with
    | some g => requantScaleFp g v p.m
    | none => wrapNat f.bits (requantScaleInt v p.m 0 r.1 r.2)
  else wrapNat f.bits (requantNormal v.toInt p.m.toInt p.s 0 r.1 r.2)

/-- The table path's result from its entry (R61). -/
def tableElem (f : ElemFmt) (esc : Bool) (entry : Nat) : Nat :=
  let r := intRange f esc
  wrapNat f.bits (clampInt r.1 r.2 (signedOf 16 entry))

/-- A row of encodings packed to `W` bytes (R33); columns N and above are zero (R125). -/
def packRow (bits bytes : Nat) (cs : List Nat) : List Byte :=
  natToBytes bytes (cs.foldr (fun c acc => c % 2 ^ bits + acc * 2 ^ bits) 0)

/-! ### Rim check (R417 to R421) -/

/-- D0 and D1 (R418) of the sums `ys` of columns 0 to N − 1 and of the check columns, at the comparator's width. -/
def rimD (bits : Nat) (ys : List Int) (y128 y129 : Int) : Int × Int :=
  (wrapInt bits (ys.foldl (· + ·) 0 - y128),
   wrapInt bits ((ys.zipIdx.foldl (fun (acc : Int) (x : Int × Nat) => acc + ((x.2 : Int) + 1) * x.1) 0) - y129))

/-- The verdict of R419 over columns 0 to N − 1: none when the row passes; else the column located. -/
def rimVerdict (n : Nat) (d : Int × Int) : Option (Option Nat) :=
  if d.1 = 0 ∧ d.2 = 0 then none
  else if d.1 = 0 then some (some 129)
  else if d.2 = 0 then some (some 128)
  else some ((List.range n).find? fun c => decide (((c : Int) + 1) * d.1 = d.2))

/-- The rim verdict of a row (R417 to R419): the columns' sums `ys` against the check columns' reductions of the same row,
which `errs` may disturb in columns 128 and 129. -/
def rimCheck (mode : Nat) (scaled : Bool) (t : Tile) (n : Nat) (fix : List Int) (r : ActRow) (ys : List Int)
    (errs : List (Nat × Int)) : Option (Option Nat) :=
  let err := fun (c : Nat) => errs.foldl (fun (acc : Int) (e : Nat × Int) => if e.1 = c then acc + e.2 else acc) 0
  let k := fixScale mode scaled t.lsb
  rimVerdict n (rimD (if mode ≤ 1 && !scaled then 64 else 96) ys (k * fixDot t.cw fix r.inc + err 128)
    (k * fixDot t.xw fix r.inc + err 129))

end Sys2Proof.Machine
end

