-- ==== Sys2Proof/Machine/Codes.lean ====
section
/-! DEFINITION. The names that the manual numbers: status codes (R374), context states (R324), event sources and
codes (R479), the unit codes of a fault signature record (R467) and the register-block indices of R20. -/

namespace Sys2Proof.Machine

/-- The status codes (R374). -/
inductive Status where
  | done | doneAbortLate | aborted
  | rejectFormat | rejectSpace | rejectContext | rejectLimit
  | windowFault | tagFault | rimFault | cycleFault | creelConflict
  | decodeTruncated | decodeLimit | decodeSyntax
  | deadlineFallback | unverifiedUnit
  | linkDigest | peerLost
  | fenced | outOfService | configDivergent
  | internal
deriving DecidableEq, Repr

/-- The code of a status (R374). -/
def Status.code : Status → Nat
  | .done => 0x00 | .doneAbortLate => 0x01 | .aborted => 0x02
  | .rejectFormat => 0x10 | .rejectSpace => 0x11 | .rejectContext => 0x12 | .rejectLimit => 0x13
  | .windowFault => 0x20 | .tagFault => 0x21 | .rimFault => 0x22 | .cycleFault => 0x23 | .creelConflict => 0x24
  | .decodeTruncated => 0x30 | .decodeLimit => 0x31 | .decodeSyntax => 0x32
  | .deadlineFallback => 0x40 | .unverifiedUnit => 0x41
  | .linkDigest => 0x50 | .peerLost => 0x51
  | .fenced => 0x60 | .outOfService => 0x61 | .configDivergent => 0x62
  | .internal => 0x7F

/-- The fault of a code (R374), of those in which a command of a unit ends; any other is INTERNAL. -/
def faultOfCode (c : Nat) : Status :=
  ([.rejectFormat, .rejectSpace, .rejectContext, .rejectLimit, .windowFault, .tagFault, .rimFault, .cycleFault, .creelConflict,
    .linkDigest, .peerLost, .fenced] : List Status).find? (·.code == c) |>.getD .internal

/-- Only these leave a command's outputs valid and add its ties (R374). -/
def Status.ok : Status → Bool
  | .done => true
  | .doneAbortLate => true
  | _ => false

/-- A REJECT status at issue or placement (R441). -/
def Status.isReject : Status → Bool
  | .rejectFormat => true | .rejectSpace => true | .rejectContext => true | .rejectLimit => true
  | _ => false

/-- The order in which a core chooses among faults of one cycle (R86); lower prevails. -/
def Status.rank : Status → Nat
  | .internal => 0 | .rimFault => 1 | .tagFault => 2 | .creelConflict => 3 | .windowFault => 4
  | .rejectFormat => 5 | .cycleFault => 6 | _ => 7

/-- Does a tally test pass (R445): every injected fault was detected in its place, no other was, and the digest is the constant. -/
def tallyPassed (r : TallyResult) : Bool := r.faults.all (·.injected) && !r.missed && r.digestOk

/-- Of two faults the one that a test reports: the earlier one, of one cycle the one that R86 chooses (R445). -/
def firstTally (a b : TallyFault) : TallyFault :=
  if b.cycle < a.cycle ∨ b.cycle = a.cycle ∧ (faultOfCode b.status).rank < (faultOfCode a.status).rank then b else a

/-- The first fault that a tally test met and did not inject (R445). -/
def tallyFault (r : TallyResult) : Option TallyFault :=
  match r.faults.filter (!·.injected) with
  | [] => none
  | f :: fs => some (fs.foldl firstTally f)

/-- The status with which a tally test ends (R445): DONE, that of the first fault it did not inject, else INTERNAL. -/
def tallyStatus (r : TallyResult) : Status :=
  if tallyPassed r then .done
  else match tallyFault r with
    | none => .internal
    | some f => faultOfCode f.status

/-- The cycle of detection of that fault; a test that fails without one does so as it ends, and names cycle 0 (log 94). -/
def tallyDet (r : TallyResult) : Nat := match tallyFault r with
  | none => 0
  | some f => f.cycle

/-- The STATE of a context (R324). -/
inductive CtxState where
  | free | loaded | run | stopped
deriving DecidableEq, Repr

/-- Its number (R324). -/
def CtxState.code : CtxState → Nat
  | .free => 0 | .loaded => 1 | .run => 2 | .stopped => 3

/-- The engine index of R20, for an engine. -/
def engIndex : UnitId → Option Nat
  | .rid n => some n.val
  | .skp n => some (2 + n.val)
  | .coil n => some (4 + n.val)
  | .twn n => some (6 + n.val)
  | .plt n => some (10 + n.val)
  | .wal n => some (12 + n.val)
  | _ => none

/-- The place of a unit in the state: cores 0 to 15, engines 16 to 29 in the order of R20, movers 30 to 37. -/
def unitIx : UnitId → Fin 38
  | .tc n => ⟨n.val, by omega⟩
  | .rid n => ⟨16 + n.val, by omega⟩
  | .skp n => ⟨18 + n.val, by omega⟩
  | .coil n => ⟨20 + n.val, by omega⟩
  | .twn n => ⟨22 + n.val, by omega⟩
  | .plt n => ⟨26 + n.val, by omega⟩
  | .wal n => ⟨28 + n.val, by omega⟩
  | .mv n => ⟨30 + n.val, by omega⟩

/-- The unit code of an FSR's key 8 and of RST_CAUSE.UNIT (R467, R469). -/
def unitCode : UnitId → Nat
  | .tc n => n.val
  | .mv m => 0x40 + m.val
  | .rid n => 0x20 + n.val
  | .skp n => 0x22 + n.val
  | .coil n => 0x24 + n.val
  | .twn n => 0x26 + n.val
  | .plt n => 0x2A + n.val
  | .wal n => 0x2C + n.val

/-- Every unit, cores first, then engines in the order of R20, then movers. -/
def allUnits : List UnitId :=
  (List.finRange 16).map .tc ++ (List.finRange 2).map .rid ++ (List.finRange 2).map .skp ++
  (List.finRange 2).map .coil ++ (List.finRange 4).map .twn ++ (List.finRange 2).map .plt ++
  (List.finRange 2).map .wal ++ (List.finRange 8).map .mv

/-- The CLASS of command that a unit runs (R102, R201, R206, R316): 0 tensor core, 3 Coil, 4 Twining, 5 Plait,
6 Waling, 7 mover. Riddle and Skep take no command headers. -/
def unitClass : UnitId → Option Nat
  | .tc _ => some 0x00
  | .coil _ => some 0x03
  | .twn _ => some 0x04
  | .plt _ => some 0x05
  | .wal _ => some 0x06
  | .mv _ => some 0x07
  | .rid _ => none
  | .skp _ => none

/-- The event codes the model raises (R479), with their sources. -/
inductive EventKind where
  | powerOn | domainReset | ret | transient | quarantine | tallyFail | cfgRepaired | configDivergent
  | outOfService | recorderFull | recorderErased
  | replyStall | ringLost | fwReload | intakeStall
  | fallback | deadlineMiss
  | timeStep | timeHoldover | timeLock
  | halveStart | halveEnd | droop | railHold | tempHold
  | linkReplay (l : Nat) | linkDown (l : Nat) | linkRefused (l : Nat)
deriving DecidableEq, Repr

/-- Source ID (R479). -/
def EventKind.source : EventKind → Nat
  | .powerOn => 0 | .domainReset => 0 | .ret => 0 | .transient => 0 | .quarantine => 0 | .tallyFail => 0
  | .cfgRepaired => 0 | .configDivergent => 0 | .outOfService => 0 | .recorderFull => 0 | .recorderErased => 0
  | .replyStall => 1 | .ringLost => 1 | .fwReload => 1 | .intakeStall => 1
  | .fallback => 2 | .deadlineMiss => 2
  | .timeStep => 3 | .timeHoldover => 3 | .timeLock => 3
  | .halveStart => 4 | .halveEnd => 4 | .droop => 4 | .railHold => 4 | .tempHold => 4
  | .linkReplay l => 0x10 + l | .linkDown l => 0x10 + l | .linkRefused l => 0x10 + l

/-- Event code (R479). -/
def EventKind.code : EventKind → Nat
  | .powerOn => 0x0001 | .domainReset => 0x0002 | .ret => 0x0003 | .transient => 0x0004 | .quarantine => 0x0005
  | .tallyFail => 0x0006 | .cfgRepaired => 0x0007 | .configDivergent => 0x0008 | .outOfService => 0x0009
  | .recorderFull => 0x000A | .recorderErased => 0x000B
  | .replyStall => 0x0101 | .ringLost => 0x0102 | .fwReload => 0x0103 | .intakeStall => 0x0104
  | .fallback => 0x0201 | .deadlineMiss => 0x0202
  | .timeStep => 0x0301 | .timeHoldover => 0x0302 | .timeLock => 0x0303
  | .halveStart => 0x0401 | .halveEnd => 0x0402 | .droop => 0x0403 | .railHold => 0x0404 | .tempHold => 0x0405
  | .linkReplay _ => 0x1001 | .linkDown _ => 0x1002 | .linkRefused _ => 0x1003

end Sys2Proof.Machine
end

