-- ==== Sys2Proof/Machine/Sparse.lean ====
section
/-! DEFINITION. Reading and writing a sparse store. A write keeps the canonical form: indices strictly rising,
and no pair equal to what an unlisted index reads as. -/

namespace Sys2Proof.Machine

/-- The value at index `k`; an unlisted index reads as `d`. -/
def sparseGet {α : Type} (d : α) : Sparse α → Nat → α
  | [], _ => d
  | (i, v) :: m, k => if i = k then v else sparseGet d m k

/-- Write `v` at index `k`, keeping the indices rising and leaving out the default `d`. -/
def sparsePut {α : Type} [DecidableEq α] (d : α) : Sparse α → Nat → α → Sparse α
  | [], k, v => if v = d then [] else [(k, v)]
  | (i, x) :: m, k, v =>
    if k < i then (if v = d then (i, x) :: m else (k, v) :: (i, x) :: m)
    else if k = i then (if v = d then m else (k, v) :: m)
    else (i, x) :: sparsePut d m k v

/-- Canonical form: indices strictly rising and no default value listed. -/
def sparseWf {α : Type} [DecidableEq α] (d : α) : Sparse α → Bool
  | [] => true
  | [(_, v)] => decide (v ≠ d)
  | (i, v) :: (j, w) :: m => decide (v ≠ d) && decide (i < j) && sparseWf d ((j, w) :: m)

/-- Drop every pair whose index fails `p`. -/
def sparseFilter {α : Type} (p : Nat → Bool) (m : Sparse α) : Sparse α :=
  m.filter fun x => p x.1

end Sys2Proof.Machine
end

