-- ==== Sys2Proof/Machine/State.lean ====
section
/-! DEFINITION. The state of the M16 as plain data: every register, store, queue, counter, mode and pin that the
manual gives the chip, the queue of waiting commands, and the messages that have left the chip. INVENTORY.md lists
the pieces with their rules and reset values. -/

namespace Sys2Proof.Machine

/-- Why the machine stops with a fault. The manual gives every row of the table an effect, so nothing raises one. -/
inductive Fault where
  /-- Nobody raises it: the type must be inhabited by a name. Safe. -/
  | none
deriving DecidableEq, Repr

/-- Why a command has no meaning. -/
inductive Refusal where
  /-- Raised by an arm of `exec` whose command has no meaning yet. Safe: the machine stops where the chip goes on. -/
  | notModelled (mnemonic : String)
deriving DecidableEq, Repr

/-! ### Units -/

/-- The registers that cores, engines and movers share (R101, R204, R233, R261, R291, R323). -/
structure UnitRegs where
  quarantine : Bool
  /-- LAST_STATUS -/
  lastStatus : Nat
  /-- the W1C bits of the status register, at their places in that register -/
  sticky : Word
  unverified : Bool
  tallyPending : Bool
  busy : Bool
  cmd : Word
  decl : Word
  used : Word
  fault : Word
  faultAddr : Word
  /-- ENG_STAT, PLT_QSTAT or MV_FAULT_LINE -/
  stat : Word
  /-- MV_FAULT_AHI -/
  ahi : Word
deriving DecidableEq, Repr

/-- Where a command on a unit comes from. -/
inductive Origin where
  /-- queue `q`, position `pos`, of the primary or the fall-back graph -/
  | queue (fallback : Bool) (q pos : Nat)
  /-- the unit's own tally test (R349) -/
  | tally
  /-- command `i` of a recovery prelude (R457) -/
  | prelude (i : Nat)
  /-- a replay (R437): the unit struck, and whether the command is only refetched (R440) -/
  | replay (struck : UnitId) (refetch : Bool)
deriving DecidableEq, Repr

/-- How far a placed command has come (R337). -/
inductive Stage where
  | placed | checked | ready | running
deriving DecidableEq, Repr

/-- How an engine's or a mover's work ended, before the end is reported (R150, R202, R207, R316). -/
structure RunEnd where
  status : Status
  /-- ACLK cycles used, by the unit's own count -/
  used : Nat
  /-- cycle of detection of a fault -/
  det : Nat
  /-- sticky bits that set -/
  sticky : Word
  faultAddr : Option Word
  stat : Word
  ahi : Word
  /-- the count is checked as a bound only, of this many cycles (R316, R402, R491) -/
  bound : Option Nat
  /-- the unit's counter before the events of this command, where they are counted (R208, R233) -/
  statOld : Option Word := none
deriving DecidableEq, Repr

/-- A command on a unit, from placement to its end. -/
structure Placed where
  ctx : Nat
  frame : Nat
  origin : Origin
  hdr : Header
  prog : List TcWord
  stage : Stage
  /-- windows captured at the start (R315) -/
  windows : List DWord
  fin : Option RunEnd
  /-- a halving or stretch was active during the count (R316, R491) -/
  slowed : Bool
  /-- halves of a link command (R398, R404): begun; receive posted and done; send begun and done -/
  begun : Bool
  posted : Bool
  recvDone : Bool
  sendBegun : Bool
  sendDone : Bool
  /-- disturbances of a link command -/
  ups : List Upset
  /-- the first line of a mover's command whose creel access is known to collide, with its fault address (R83, R323) -/
  clash : Option (Nat × Word) := none
deriving DecidableEq, Repr

/-- Hang, fence and reset of a unit domain (R448-R452). -/
inductive FenceState where
  | open_ | fencing | resetting
deriving DecidableEq, Repr

/-- A line that the running command writes (R207, R317, R321): its number in the command's order, the ACLK cycle in which
its write completes where the rules fix one, and what the line held before. -/
structure Undo where
  index : Nat
  cycle : Option Nat
  key : Nat
  old : Line
  tag : Option Word
  /-- where the line is the last of its tag group in the command (R318): the ACLK cycle, if fixed, in which the group's tag line
  is written back -/
  tagLine : Option (Option Nat) := none
deriving DecidableEq, Repr

/-- A line that the running command posts to host memory, not yet sent. -/
structure HostLine where
  index : Nat
  cycle : Option Nat
  addr : Nat
  data : Line
  tag : Word
deriving DecidableEq, Repr

/-- One unit: registers, running command with the lines it writes, fence, transients (R442). -/
structure UnitState where
  regs : UnitRegs
  run : Option Placed
  undo : List Undo
  posts : List HostLine
  fence : FenceState
  /-- operating-hours times of the last two transients, latest first (R442) -/
  transients : List Nat
  /-- a tally test is running since this interval began (R349, R350) -/
  tallyRunning : Bool
  /-- a test beside the unit's other work, begun in an earlier interval, is still running (R349) -/
  tallyOld : Bool := false
deriving DecidableEq, Repr

/-! ### Tensor cores -/

/-- An address register (R115). -/
structure AddrReg where
  base : Word
  strides : List Int
deriving DecidableEq, Repr

/-- A running loop (R119). -/
structure LoopFrame where
  first : Nat
  last : Nat
  count : Nat
  iter : Nat
deriving DecidableEq, Repr

/-- A drain setup (R125): addresses are byte addresses; `serial` names it. -/
structure Setup where
  path : Nat
  ofmt : ElemFmt
  esc : Bool
  out : Nat
  vreg : Nat
  param : Nat
  table : Nat
  /-- issue cycle of the SETD -/
  issue : Nat
  /-- its completion -/
  ready : Nat
  slot : Nat
  serial : Nat
deriving DecidableEq, Repr

/-- A weight tile named by LOADW (R127-R130): byte addresses. -/
structure TileRef where
  wfmt : Nat
  xmode : Nat
  bs : Bool
  esc : Bool
  k : Nat
  n : Nat
  tile : Nat
  srec : Nat
  list : Nat
  /-- issue cycle and prefix length -/
  issue : Nat
  prefixLines : Nat
  /-- serial number of the LOADW -/
  serial : Nat
deriving DecidableEq, Repr

/-- One accumulator row with undrained results: values, residues (R423), SAT flags and the last pass into it (R72-R74). -/
structure AccRow where
  vals : List Word
  res : List Nat
  sat : List Bool
  pass : Nat
deriving DecidableEq, Repr

/-- What a set will hold by the instructions issued so far (R72, R73, R77, R132, R140). -/
structure SetPlan where
  /-- rows of set-mode passes that no issued DRAIN covers -/
  rows : List Nat
  /-- N of those passes and whether their results are FP32; none when no row is undrained -/
  since : Option (Nat × Bool)
  /-- last column-0 accumulation into the set by an issued pass -/
  lastAcc : Option Nat
  /-- issued DRAINs: first row, rows, last column-0 read -/
  drains : List (Nat × Nat × Nat)
deriving DecidableEq, Repr

/-- A write to a register of the vector unit that has not landed yet (R91). -/
inductive RegWrite where
  /-- lanes of `mask` of V[r] -/
  | v (r : Nat) (mask : DWord) (val : Line)
  | s (r : Nat) (val : Word)
  /-- S[r] grows by `n` (R146) -/
  | sAdd (r n : Nat)
  | p (r : Nat) (val : DWord)
  | t (slot : Nat) (table : ActTable)
deriving DecidableEq, Repr

/-- Where a pass takes its rows from and how they are laid out (R131, R135, R138). -/
inductive RowSource where
  | creel (act : Nat)
  | strided (act stride : Nat)
  | transposed (act : Nat)
  | window (padmode fh fw sh sw dh dw pt pb pl pr ow ohc lb iw tap0 : Nat)
deriving DecidableEq, Repr

/-- A pass in progress (R131-R138). -/
structure PassJob where
  /-- pass index within the command -/
  index : Nat
  /-- serial number of the instruction -/
  serial : Nat
  /-- serial number of the LOADW that named its tile -/
  tile : Nat
  stream : Bool
  set : Nat
  afmt : Nat
  /-- ABS: scaled rows (R135) -/
  abs : Bool
  m : Nat
  src : RowSource
  rho : Nat
  /-- latch of row 0 in column 0 -/
  a : Nat
  stages : Nat
  k : Nat
  n : Nat
  mode : Nat
  /-- either operand is block-scaled -/
  scaled : Bool
  wfmt : Nat
  ups : List Upset
deriving DecidableEq, Repr

/-- Work that issued instructions still have to do. Each kind has items at fixed cycles. -/
inductive JobKind where
  /-- parameter lines of a SETD -/
  | params (setup : Setup)
  /-- prefix lines of a LOADW -/
  | tilePrefix (ref : TileRef)
  /-- weight lines of a switching pass -/
  | weights (p : PassJob) (ref : TileRef)
  /-- activation reads, or requests to the line-buffer store -/
  | reads (p : PassJob)
  /-- rows reaching the accumulators -/
  | rows (p : PassJob)
  /-- rows read by the drain, `start + rho * r` in column 0; `pass` for a stream pass -/
  | drain (serial : Nat) (stream : Bool) (set row0 n rho start : Nat) (isFp : Bool) (setup : Setup) (ups : List Upset)
  /-- table-path reads of one row: entry addresses by column, column-0 drain read -/
  | table (serial : Nat) (setup : Setup) (entries : List Nat) (start outAddr : Nat) (last : Bool)
  /-- bytes of one output row reaching the drain's assembler -/
  | deposit (serial cycle addr : Nat) (bytes : List Byte) (last : Bool)
  | lbf (serial t step src lb : Nat)
  | vld (serial t mode fmt half vd q addr : Nat)
  | vtab (serial t slot addr : Nat)
  | cmpcnt (serial fmt cmp sc : Nat) (t0 t1 : Word) (src dst : Nat) (reads : List Nat)
  | move (serial dir creel hline s0 : Nat) (seen : List Upset)
deriving DecidableEq, Repr

/-- A job: items done, items in all, and the lines or bytes it has gathered. -/
structure Job where
  kind : JobKind
  next : Nat
  total : Nat
  got : List Line
  bytes : List Byte
deriving DecidableEq, Repr

/-- A creel write that has not reached its bank. -/
structure CreelWrite where
  /-- bank cycle -/
  bank : Nat
  /-- 1 write port, 2 mover port -/
  port : Nat
  serial : Nat
  line : Nat
  data : Line
  /-- stored tag; none is the tag of the data -/
  tag : Option Word
deriving DecidableEq, Repr

/-- Things a command does to sticky registers at a cycle (R43, R74). -/
inductive Mark where
  | escMiss
  | sat (set row col : Nat)
deriving DecidableEq, Repr

/-- Detail of a pending fault: what TC_FAULT_ADDR or TC_RIM takes. -/
inductive FaultInfo where
  | none
  | line (port line : Nat)
  | rim (located : Bool) (set row pass col : Nat)
  /-- a weight row's fault ahead of column 0 (R422): no accumulator row belongs to it -/
  | rimFeed (pass : Nat)
deriving DecidableEq, Repr

/-- A fault with its cycle of detection, status, detail and sticky bits. -/
structure CoreFault where
  cycle : Nat
  status : Status
  info : FaultInfo
  sticky : Word
deriving DecidableEq, Repr

/-- A splint mover's access of the core's creel port (R83, R299): its cycle in the core's command, mover and line. -/
structure Visit where
  cycle : Nat
  mover : Fin 8
  /-- line `k` of the mover's command -/
  k : Nat
  line : Nat
deriving DecidableEq, Repr

/-- The run of a command on a tensor core (R108-R112). Cycles below `cycle` have been worked. -/
structure CoreRun where
  pc : Nat
  ended : Bool
  loops : List LoopFrame
  cycle : Nat
  /-- issue cycle of the latest instruction -/
  lastIssue : Option Nat
  idleUntil : Nat
  areg : List AddrReg
  sreg : List Word
  vreg : List Line
  preg : List DWord
  tabs : List ActTable
  /-- landing cycle, serial number, write -/
  pendRegs : List (Nat × Nat × RegWrite)
  /-- setup of the latest SETD -/
  setup : Option Setup
  /-- per setup slot: last column-0 drain read of its capturers -/
  slotUse : List Nat
  /-- parameter lines read, by setup serial; prefix lines, by LOADW serial -/
  lines : List (Nat × List Line)
  nextTile : Option TileRef
  active : Option TileRef
  /-- tiles loaded, by LOADW serial -/
  tiles : List (Nat × Tile)
  /-- activation rows read: pass, row, contents, taps that take part (bit `t`) -/
  rowData : List (Nat × Nat × Line × Nat)
  acc : List (List (Option AccRow))
  plan : List SetPlan
  /-- last column-0 drain read scheduled by any pass or DRAIN -/
  lastDrainRead : Option Nat
  /-- L_last of the passes that hold queue entries -/
  passQueue : List Nat
  passCount : Nat
  /-- a′ + ρ′ × M′ of the previous pass -/
  passNext : Nat
  /-- a″ of the latest switching pass -/
  prevSwitch : Option Nat
  /-- completion per FENCE bit: array, drain, vector, filler, compare-and-count, mover port, weight loader -/
  complete : List (Option Nat)
  /-- first cycle at which the vector unit, the filler, compare-and-count and the mover port may issue -/
  vecReady : Nat
  lbfReady : Nat
  cmpReady : Nat
  moveReady : Nat
  /-- issue cycles of count-line writes (R147) -/
  cmpWrites : List Nat
  /-- line-buffer lines and fills under way: write cycle, store line, contents -/
  lb : Sparse Line
  lbWrites : List (Nat × Nat × Line)
  /-- open line of the drain's and of the vector unit's assembler, with its bytes -/
  asmDrain : Option (Nat × List (Option Byte))
  asmVec : Option (Nat × List (Option Byte))
  /-- cycle of the vector unit's last byte into its assembler -/
  asmVecLast : Nat
  jobs : List Job
  writes : List CreelWrite
  /-- hamper writes under way: cycle, hamper line, contents, tag -/
  hwrites : List (Nat × Nat × Line × Option Word)
  faults : List CoreFault
  marks : List (Nat × Mark)
  ties : List (Nat × Nat)
  serial : Nat
  /-- cycles that upsets add to the count (R150) -/
  extra : Nat
  /-- movers' accesses of the creel port, to come and collided -/
  visits : List Visit
  collided : List Visit
deriving DecidableEq, Repr

/-- A tensor core (03 R65-R101). -/
structure CoreState where
  rim : Word
  satInfo : Word
  run : CoreRun
deriving DecidableEq, Repr

/-! ### Movers and intake -/

/-- When a COPY may make its next accesses (R317), in FCLK cycles from the start of the DRAM window in which it started:
its start, the last read's and the last write's completions, the completions of the latest 16 writes (latest first), and
the tag group whose tag line it holds for reading. -/
structure CopyClock where
  base : Nat
  read : Nat
  wrote : Nat
  frees : List Nat
  group : Option Nat
  /-- grants that accesses of the command to come have taken: FCLK start, and channel or creel port (R305, R317) -/
  taken : List (Nat × Nat) := []
deriving DecidableEq, Repr

/-- A COPY in progress (R317): the next line, whether a host read of it is out (R320), and whether it waits for a grant
that its slot tables never give. -/
structure CopyRun where
  k : Nat
  waiting : Bool
  stalled : Bool
deriving DecidableEq, Repr

/-- An open attempt of a camera stream (R252). -/
structure Attempt where
  fn : Nat
  /-- capture time: seconds and nanoseconds -/
  capSec : Nat
  capNs : Nat
  rows : List (List Byte)
  corr : Nat
  /-- the region list captured (R251): entries, none when not used -/
  regions : Option (List (Nat × Int × Int))
  gap : Bool
  /-- SRC_FRAME (R254, R258) -/
  srcFrame : Nat
  /-- passed frame end -/
  passed : Bool
  failed : Option Nat
deriving DecidableEq, Repr

/-- A camera stream slot (R237, R250-R261). -/
structure CamSlot where
  desc : Option Line
  ctx : Nat
  /-- remap table copied at load (R243), one word per node coordinate -/
  remap : List Word
  enabled : Bool
  disabling : Bool
  /-- delivered index -/
  n : Nat
  srcFrame : Nat
  prevFn : Option Nat
  /-- previous frame start, ns of the device time base -/
  prevStart : Option Nat
  skipped : Nat
  lastSkip : Nat
  attempt : Option Attempt
  /-- attempts that belong to the group attempts after it, in order (R255) -/
  next : List Attempt
  /-- memory-source buffers marked as read (R258) -/
  msRead : List Nat
  good : Word
  fail : Word
  lastCause : Nat
  corr : Nat
  roi : Word
deriving DecidableEq, Repr

/-- An open lidar sweep (R265-R267). -/
structure Sweep where
  base : Nat
  firstSec : Nat
  firstNs : Nat
  /-- slot and STATE of each packet stored -/
  slots : List (Nat × Nat)
  dup : Nat
  late : Nat
  gap : Bool
  discard : Bool
  /-- closed: its base and slots still judge packets until the next sweep opens (R265) -/
  closed : Bool
deriving DecidableEq, Repr

/-- A lidar stream slot (R263-R268). -/
structure LidarSlot where
  desc : Option Line
  ctx : Nat
  sweep : Option Sweep
  /-- delivered index -/
  s : Nat
  enabled : Bool
  gapNext : Bool
  /-- NPKT-packet sweeps by sequence since the first (R267) -/
  bySeq : Nat
  sweeps : Word
  format : Word
  checksum : Word
  dup : Word
  late : Word
  overrun : Word
deriving DecidableEq, Repr

/-- A stamp with fraction (R473). -/
structure Stamp where
  sec : Nat
  ns : Nat
  frac : Nat
deriving DecidableEq, Repr

/-- An Ethernet MAC (R262, R268, R475). -/
structure MacState where
  fec : Nat
  speed : Bool
  en : Bool
  fecUncorr : Bool
  linkLost : Bool
  blockLock : Bool
  link : Bool
  fcs : Word
  mgmtDrop : Word
  /-- transmit stamps: messageType, domainNumber, sequenceId, stamp; oldest first -/
  txFifo : List (Nat × Nat × Nat × Stamp)
deriving DecidableEq, Repr

/-- What a Skep slot is doing (R272-R287). -/
inductive SkepPhase where
  | decoding | emitting | emitted | recording
deriving DecidableEq, Repr

/-- A busy decode slot (R272). -/
structure SkepSlot where
  desc : Nat
  q : Nat
  req : Packet
  w : Nat
  h : Nat
  bucket : Option Nat
  budget : Nat
  cycles : Nat
  key : Nat
  status : Status
  partialFill : Bool
  hit : Bool
  bad : Bool
  emit : Option Nat
  /-- the decoded sample or the cache entry hit, as the bucket's buffer will hold it -/
  image : List Line
  phase : SkepPhase
deriving DecidableEq, Repr

/-- A replay descriptor in service (R269): next request, records written, emissions per bucket. -/
structure SkepDesc where
  desc : Line
  ctx : Nat
  q : Nat
  /-- requests from `q` on that have their record already, after a reset (R289) -/
  past : List Nat
  r : Nat
  k : List Nat
  /-- its context is unloaded: it accepts nothing and leaves with the record of its last slot (log 88) -/
  closed : Bool
deriving DecidableEq, Repr

/-- A Skep instance (09). -/
structure SkepState where
  descs : List SkepDesc
  /-- position of the rotation (R272) -/
  rot : Nat
  slots : Vector (Option SkepSlot) 8
  done : Word
  fail : Word
  hit : Word
  cbad : Word
deriving DecidableEq, Repr

/-! ### Dispatch -/

/-- A waiting status reply (R365, R371); `frameEnd` marks the reply of a frame that ends with it. -/
structure Reply where
  status : Nat
  typ : Nat
  ctx : Nat
  seq : Word
  frame : Nat
  time : BitVec 96
  cycles : Nat
  noirq : Bool
  frameEnd : Bool
deriving DecidableEq, Repr

/-- An open ring pair (R361-R365). Addresses are host addresses, or device addresses in the hamper. -/
structure Ring where
  sqHost : Bool
  sqAddr : Nat
  rqHost : Bool
  rqAddr : Nat
  sqLog2 : Nat
  rqLog2 : Nat
  vector : Nat
  /-- next unread packet, tail, replies consumed, replies written, modulo 2^32 -/
  h : Word
  tail : Word
  rqHead : Word
  r : Word
  waiting : List Reply
deriving DecidableEq, Repr

/-- An accepted FRAME_RUN (R369). -/
structure FrameReq where
  frame : Nat
  seq : Word
  noirq : Bool
  path : Nat
  /-- acceptance time, ns of the device time base -/
  accepted : Nat
deriving DecidableEq, Repr

/-- An ABORT or a CONTEXT_STOP that waits for the frame's end (R373, R368). -/
structure WaitPkt where
  seq : Word
  noirq : Bool
  admin : Bool
  frame : Nat
  isAbort : Bool
  /-- no reply is written: a Function Level Reset stops the context (R359) -/
  silent : Bool
deriving DecidableEq, Repr

/-- The last write of an output line: its block tag, and its time in halves of an ACLK cycle counted (a TCLK tick has 11, R485)
and in the layout of DONE_TIME. -/
structure OutNote where
  tag : Word
  halves : Nat
  time : BitVec 96
deriving DecidableEq, Repr

/-- The current frame of a context. -/
structure FrameRun where
  /-- STEP: the packet that asked for the frame -/
  req : Option FrameReq
  begunNs : Nat
  heads : List Nat
  fbHeads : List Nat
  originKnown : Bool
  /-- checkpoints reached (R342) -/
  reached : List Nat
  switched : Bool
  firstPlaced : Bool
  stallLogged : Bool
  missLogged : Bool
  fallback : Bool
  unverified : Bool
  rimFlagged : Bool
  configFault : Bool
  aborted : Bool
  /-- logical cores of the frame (R335) -/
  logical : List Nat
  /-- TCLK ticks counted at the release of the first command: the waits of a head are met (R103, R371) -/
  released : Option Nat
  /-- the output lines that the frame has written, by their place (R26, R27) -/
  outTags : Sparse (Option OutNote)
deriving DecidableEq, Repr

/-- A replay that waits or runs (R437-R440): commands still to run in order, the last one the failed command. -/
structure Replay where
  ctx : Nat
  frame : Nat
  fallback : Bool
  q : Nat
  pos : Nat
  struck : UnitId
  status : Status
  steps : List Cmd
  placed : Bool
  /-- FENCED and link replays are no transients -/
  counts : Bool
  /-- cycle of detection and location of the fault, for its record (R467) -/
  det : Nat
  loc : List Byte
  /-- the command ended FENCED, and waits for the fence to lift (R452) -/
  waitFence : Option (Fin 16)
  /-- the send half of the command had begun, so that its replay has a receive half only (R401) -/
  sent : Bool
deriving DecidableEq, Repr

/-- A context-table entry with Protil's record of the context (R312, R324-R347). -/
structure Ctx where
  state : CtxState
  cls : Nat
  prio : Nat
  flags : Nat
  graphId : Word
  fbId : Word
  frame : Word
  tieBase : Nat
  tieCount : Nat
  deadlineUs : Word
  stallUs : Word
  coreMask : BitVec 16
  ncore : Nat
  sgroup : Nat
  owed : Word
  saveBase : DWord
  rkey : DWord
  origin : DWord
  nq : Nat
  ckptLast : Nat
  path : Nat
  nFallback : Word
  nUnverified : Word
  originSet : Word
  windows : Vector DWord 16
  img : Option GraphImage
  ring : Option Ring
  run : Option FrameRun
  /-- frame index of the first frame that has not been requested (R368, FRAME_RUN) -/
  nextReq : Word
  reqs : List FrameReq
  /-- outcomes of the last 256 ended frames: frame, outputs delivered (R373) -/
  outcomes : List (Nat × Bool)
  waitPkt : List WaitPkt
  /-- live ranges of the last command that ended on a core (R340) -/
  live : List (Nat × List (Nat × Nat))
  /-- saved live sets by logical core (R340) -/
  saved : List (Nat × List (Nat × Nat))
  /-- peers whose loss puts later frames on the fall-back path (R465) -/
  downPeers : List Nat
  /-- commands of the recovery prelude still to run (R457) -/
  prelude : Nat
deriving DecidableEq, Repr

/-- A slice group (R338, R339): holder and whether the slice has expired. -/
structure Slice where
  holder : Nat
  expired : Bool
  /-- the member to which an expired slice passes (R338) -/
  next : Option Nat
deriving DecidableEq, Repr

/-! ### Links -/

/-- A posted receive (R398). -/
structure Posted where
  xid : Word
  nl : Nat
  dline : Nat
  /-- the mover or Plait instance whose command it is -/
  unit : UnitId
deriving DecidableEq, Repr

/-- A transfer being received (R398, R399). -/
structure RxTransfer where
  /-- none while the transfer is discarded -/
  post : Option Posted
  /-- DATA flits so far -/
  i : Nat
  bytes : List Byte
  tags : List Word
  /-- lines written -/
  lines : Nat
deriving DecidableEq, Repr

/-- A send half that ended DONE and that a RETRY may name (R401). -/
structure SentHalf where
  xid : Word
  ctx : Nat
  frame : Nat
  fallback : Bool
  q : Nat
  pos : Nat
  unit : UnitId
  cmd : Cmd
deriving DecidableEq, Repr

/-- One Jexolo link (13). -/
structure LinkState where
  en : Bool
  st : Nat
  fails : Nat
  failed : Bool
  wiring : Bool
  peer : Nat
  downEvent : Bool
  replaySeen : Bool
  crcSeen : Bool
  replay : Word
  crcErr : Word
  digest : Word
  refused : Word
  delay : Word
  txNext : BitVec 16
  rxNext : BitVec 16
  /-- flits sent and not acknowledged, with their FSEQ, oldest first -/
  out : List Flit
  /-- messages that wait for a free slot and a place in the replay buffer -/
  txq : List Flit
  /-- flits of the transfer being sent that still wait (R397) -/
  xq : List Flit
  /-- flits of that transfer sent so far, and whether the slot that follows stays free of it (R397) -/
  xsent : Nat
  gap : Bool
  /-- a flit has been accepted since training, so that ACKSEQ is valid -/
  accepted : Bool
  nacked : Bool
  replaysInRow : Nat
  episode : Bool
  posted : List Posted
  /-- READYs received: XID, NL, RETRY -/
  readies : List (Word × Nat × Bool)
  sent : List SentHalf
  rx : Option RxTransfer
  /-- unit whose transfer is being sent -/
  txOwner : Option UnitId
  /-- the send half of a ROTATE that is being sent, which a RETRY may name once its TAIL has left (R401) -/
  txHalf : Option SentHalf
  /-- operating-hours times of the last two LINK_DIGEST ends (R443) -/
  digestTimes : List Nat
deriving DecidableEq, Repr

/-- The fabric (R386-R388, R407-R409, R462-R465). -/
structure Fabric where
  nm1 : Nat
  topo : Nat
  en : Bool
  lock : Bool
  timeLock : Bool
  epoch : Nat
  manager : Nat
  /-- EPOCH of the MANAGER notice that named the manager (R462) -/
  managerEpoch : Option Nat := none
  nseq : Word
  /-- per chip: regarded as down, declared lost -/
  down : BitVec 8
  lost : BitVec 8
  /-- consecutive beacons within 1 ns, up to 16 (R409) -/
  beaconsGood : Nat
  t1 : Option Stamp
deriving DecidableEq, Repr

/-! ### Hoop, recorder, time, power -/

/-- One copy of a triplicated table: contents and CRC-32C (R434). -/
structure TableCopy where
  val : BitVec 1024
  crc : Word
deriving DecidableEq, Repr

/-- A fault signature record in the queue (R466-R468): its bytes, and fragments acknowledged per receiver. -/
structure Fsr where
  num : Nat
  bytes : List Byte
  hostAck : Nat
  safetyAck : Nat
deriving DecidableEq, Repr

/-- Hoop and the always-on island (14, 15). -/
structure HoopState where
  err : Word
  errOut : Bool
  persist : Bool
  cause : Nat
  alive : Word
  copyOk : BitVec 9
  tables : Vector (Vector TableCopy 3) 3
  /-- the value in use of each table; none under divergence -/
  table0 : Option (BitVec 16)
  table1 : Option (BitVec 1024)
  table2 : Option (BitVec 32)
  rstCause : Word
  rstTotal : Nat
  rstInWindow : Nat
  rstLast : Word
  rstReturn : Word
  fsrDropped : Nat
  fsrNum : Nat
  fsrs : List Fsr
  /-- times of the last 15 counted resets, latest first (R459) -/
  resets : List Nat
  /-- holds of the compute domain: clock, rail, temperature -/
  clockHold : Bool
  goodWindows : Nat
  railsOut : List Rail
  tempHold : Bool
  /-- the last readings lie above the shutdown limit and have not come back to 120 °C (R522) -/
  tempOver : Bool
  /-- in the current clock window: a halving started or ended, a stretch was active (R429) -/
  halveEdge : Bool
  stretchSeen : Bool
  railHold : Bool
  pllLost : Bool
  /-- compute domain: in reset from a detection on, and the cause's word -/
  inReset : Bool
  /-- steps 1 to 8 of the reset are over and recovery preludes run (R455, R457) -/
  recovering : Bool
  /-- µs that the recovery takes, and the replies of abandoned frames, written at return to service (R455, R456) -/
  returnUs : Nat
  /-- RESET_ENTER has been sent for the reset under way (R455) -/
  enterSent : Bool := false
  abandoned : List (Nat × Reply)
  outOfService : Bool
  divergent : Bool
  cfgNone : Bool
  hoopLs : Bool
  startupDone : Bool
  minHold : Bool
  /-- ms of the current second of operating hours (R481) -/
  subSecond : Nat
  /-- milliseconds counted since Doze was last entered (R481, R498) -/
  dozeMs : Nat
  /-- AO_XTAL periods of stays in Park that no millisecond of the operating hours holds yet (R481) -/
  aoRest : Int
  /-- ms since Protil's last HOOP_KICK (R448) -/
  sinceKick : Nat
  /-- safety port: response to the last request -/
  resp : BitVec 72
  /-- per channel: a mailbox notice for master 0x08 is pending (R378, R432) -/
  notice08 : BitVec 64
  /-- a fragment of a fault signature record is in flight to the host, to the safety port (R468) -/
  fragHost : Bool
  fragSafety : Bool
deriving DecidableEq, Repr

/-- An event in the queue (R478, R479). -/
structure Event where
  source : Nat
  code : Nat
  seq : Word
  time : BitVec 96
  data : BitVec 192
deriving DecidableEq, Repr

/-- The event recorder (R478-R484). -/
structure Recorder where
  run : Bool
  full : Bool
  erasing : Bool
  queue : List Event
  count : Nat
  cap : Nat
  drop : Word
  /-- page per master -/
  page : Sparse Byte
  /-- record slots; an erased slot reads all ones -/
  slots : Sparse Packet
  /-- next SEQ per source -/
  seqs : Sparse Word
  hours : Word
  pcycle : Word
  /-- the two counter sectors: entries of HOURS, PCYCLE, sequence number and CRC, oldest first -/
  sectorA : List (BitVec 128)
  sectorB : List (BitVec 128)
  entrySeq : Word
  /-- channel of the erase request in progress, and whether its acknowledge waits for RECORDER_ERASED (R483) -/
  eraseCh : Nat
  eraseAck : Bool := false
  /-- the record being programmed into slot `count`, and the bytes programmed so far -/
  prog : Option (Packet × Nat)
  /-- operating hours at the last counter entry, and whether the entry of a further 60 s is due (R481) -/
  entered : Word
  entryDue : Bool
deriving DecidableEq, Repr

/-- The time unit (R470-R477). -/
structure TimeUnit where
  sec : BitVec 48
  ns : Nat
  frac : Word
  inc : Nat
  stagedFrac : Word
  stepNs : Word
  stepS : Word
  /-- a step to apply on the next tick: seconds, Q32 nanoseconds -/
  pending : Option (Int × Int)
  ppsW : Nat
  ppsEn : Bool
  ppsHigh : Bool
  ptpDrop : Nat
  incClamp : Bool
  stepped : Bool
  ppsinNew : Bool
  halved : Bool
  follow : Bool
  /-- shadow per master: nanoseconds, seconds -/
  shadow : Sparse (BitVec 96)
  ppsinFrac : Word
  ppsinNs : Word
  ppsinSec : BitVec 48
  /-- when the last PPS_IN edge was taken, in 80ths of a nominal tick of `wall`, for the 1 µs filter -/
  ppsinAt : Option Nat
  integ : Int
  /-- TCLK ticks counted; a tick is 11 root pulses of ACLK's two (R485) -/
  ticks : Nat
  /-- time that passed while the root PLL ran, in nominal ticks of 2.5 ns: two for a tick at half rate -/
  wall : Nat
  incP : Nat
deriving DecidableEq, Repr

/-- The firmware image that runs (R351, R502, R508). -/
structure Running where
  version : Word
  svn : Nat
  /-- entry offset in firmware SRAM (R502) -/
  entry : Word
  /-- SHA-384 of the signed message -/
  hash : BitVec 384
  config : SignedConfig
deriving DecidableEq, Repr

/-- How far the boot has come (R501, R505, R506). -/
inductive BootPhase where
  | off | recovery | up
deriving DecidableEq, Repr

/-- Power, clocks and boot (17). -/
structure PowerState where
  req : Nat
  st : Nat
  avsErr : Bool
  refused : Bool
  stretch : Bool
  halved : Bool
  warnLow : Bool
  /-- when the halving, the stretch began, on the scale of the time unit's `wall` -/
  halvedAt : Nat
  stretchAt : Nat
  vddLow : Bool
  stretchCount : Nat
  stretchCycles : Nat
  avsWritten : Bool
  /-- deepest state already reached while entering, and the target of an entry in progress -/
  entering : Option Nat
  exiting : Bool
  phase : BootPhase
  error : Nat
  recovery : Bool
  source : Nat
  imageSvn : Nat
  bootMode : Nat
  image : Option Running
  norImage : Option FwImage
  /-- blown anti-rollback bits (R504) -/
  svnFuses : BitVec 63
  svnPending : Bool
  lmsLeaf : Nat
  /-- sensors: VALID and TEMP (R523) -/
  temps : Vector (BitVec 16) 24
  porLow : Bool
  jtag : Nat
deriving DecidableEq, Repr

/-- The host endpoint (12). -/
structure HostIf where
  linkWidth : Nat
  linkSpeed : Nat
  linkUp : Bool
  /-- DB_BAD, BAR0_BAD, BAR2_TAG, PARTIAL_DROP at bits 5 to 2 -/
  sticky : Word
  en : Bool
  arqLog2 : Nat
  asqLog2 : Nat
  asqLo : Word
  asqHi : Word
  arqLo : Word
  arqHi : Word
  admin : Option Ring
  /-- per vector: masked, pending; the 128-bit table entries' address and data -/
  msixMask : BitVec 64
  msixPend : BitVec 64
  msixAddr : Vector DWord 64
  msixData : Vector Word 64
  /-- partial BAR2 line: line and bytes -/
  bar2 : Option (Nat × List (Option Byte))
  perstLow : Bool
  /-- context whose ring was served last in the rotation (R369) -/
  turn : Nat
deriving DecidableEq, Repr

/-- One mailbox channel (R375). -/
structure Mailbox where
  msg : Packet
  ack : BitVec 16
  st : Nat
  foreign : Bool
  badOrder : Bool
deriving DecidableEq, Repr

/-- The DRAM controller (R310). -/
structure DramState where
  det : Bool
  ranks : Bool
  density : Nat
  rate : Bool
  en : Bool
  clkSlowed : Bool
  /-- a halving or stretch was active in the current window (R310, R488) -/
  slowSeen : Bool
  trainFail : Bool
  selfRefresh : Bool
  ready : Bool
  lock : Bool
  windows : Word
deriving DecidableEq, Repr

/-- Fuses, straps and identity (R3-R5, R20, R21, R493, R503, R507, R516). -/
structure Identity where
  grade : Nat
  disabledFuse : BitVec 16
  creelMib : Nat
  avsCode : Nat
  uid : BitVec 128
  keyHashEc : BitVec 384
  keyHashLms : BitVec 256
  strapChip : BitVec 3
  strapBoot : BitVec 2
  chip : BitVec 3
  tcEn : BitVec 16
deriving DecidableEq, Repr

/-- The dispatcher (R338-R354). -/
structure Dispatcher where
  sliceUs : Nat
  diagUs : Nat
  diagCtx : Nat
  lock : Bool
  interval : Nat
  replays : List Replay
  /-- slice groups 0 to 15 -/
  slices : Vector (Option Slice) 16
  tables : SlotTables
deriving DecidableEq, Repr

/-- A message that has left the chip, in issue order (R24, R358). -/
inductive Out where
  /-- posted write to host memory -/
  | hostWrite (addr : Nat) (bytes : List Byte)
  /-- non-posted read of a host line by a mover -/
  | hostRead (addr : Nat)
  | msix (vector : Nat)
  /-- interrupt or notice to an on-chip master -/
  | notify (master : Nat)
  /-- a flit, byte 0 least significant (R390) -/
  | flit (link : Nat) (w : BitVec 2048)
  | eth (mac : Nat) (bytes : List Byte)
  /-- answer to a register or BAR read, or to a safety-port transaction -/
  | readData (master : Nat) (bytes : List Byte)
  /-- PPS_OUT: a level, or none for high impedance (R474) -/
  | pps (level : Option Bool)
  /-- an AVSBus write of the VDD_CORE target in µV (R493) -/
  | avs (uv : Nat)
  | jtag (accepted : Bool)
  /-- IDCODE shifts out PART and STEPPING of DEV_ID (R517) -/
  | idcode (part stepping : Nat)
  /-- a read completed with Unsupported Request (R357) -/
  | unsupported
deriving DecidableEq, Repr

/-- The machine. -/
structure State where
  id : Identity
  mem : Sparse Line
  tags : Sparse (Option Word)
  ties : Sparse Word
  units : Vector UnitState 38
  cores : Vector CoreState 16
  copies : Vector CopyRun 8
  cams : Vector (Vector CamSlot 12) 2
  macs : Vector MacState 4
  ethLock : Bool
  lidars : Vector LidarSlot 8
  mgmtQ : List (Nat × List Byte)
  ptpQ : List (Nat × Stamp × List Byte)
  skeps : Vector SkepState 2
  dram : DramState
  disp : Dispatcher
  ctxs : Sparse Ctx
  hif : HostIf
  mbox : Vector Mailbox 64
  links : Vector LinkState 6
  fabric : Fabric
  hoop : HoopState
  evr : Recorder
  tu : TimeUnit
  power : PowerState
  pending : List Instr
  out : List Out
  freeCtr : Nat
deriving DecidableEq, Repr

/-! ### Reset -/

/-- Unit registers at reset (R101, R204, R233, R261, R291, R323). -/
def UnitRegs.init : UnitRegs :=
  { quarantine := false, lastStatus := 0, sticky := 0#32, unverified := false, tallyPending := false, busy := false,
    cmd := 0#32, decl := 0#32, used := 0#32, fault := 0#32, faultAddr := 0#32, stat := 0#32, ahi := 0#32 }

/-- A unit with no command. -/
def UnitState.init : UnitState :=
  { regs := UnitRegs.init, run := none, undo := [], posts := [], fence := .open_, transients := [], tallyRunning := false }

/-- An address register at cycle 0 (R108). -/
def AddrReg.zero : AddrReg := { base := 0#32, strides := [0, 0, 0, 0] }

/-- A set with nothing planned. -/
def SetPlan.init : SetPlan := { rows := [], since := none, lastAcc := none, drains := [] }

/-- The architectural state of a core at cycle 0 of a command (R108, R154). -/
def CoreRun.init : CoreRun :=
  { pc := 0, ended := false, loops := [], cycle := 0, lastIssue := none, idleUntil := 0,
    areg := List.replicate 16 AddrReg.zero, sreg := List.replicate 8 0#32, vreg := List.replicate 32 0#2048,
    preg := List.replicate 4 0xFFFFFFFFFFFFFFFF#64, tabs := List.replicate 4 0#10240, pendRegs := [],
    setup := none, slotUse := [0, 0], lines := [], nextTile := none, active := none, tiles := [], rowData := [],
    acc := List.replicate 2 (List.replicate 32 none), plan := List.replicate 2 SetPlan.init, lastDrainRead := none,
    passQueue := [], passCount := 0, passNext := 0, prevSwitch := none, complete := List.replicate 7 none,
    vecReady := 0, lbfReady := 0, cmpReady := 0, moveReady := 0, cmpWrites := [], lb := [], lbWrites := [],
    asmDrain := none, asmVec := none, asmVecLast := 0, jobs := [], writes := [], hwrites := [], faults := [],
    marks := [], ties := [], serial := 0, extra := 0, visits := [], collided := [] }

/-- A tensor core at reset. -/
def CoreState.init : CoreState := { rim := 0#32, satInfo := 0#32, run := CoreRun.init }

/-- No copy in progress. -/
def CopyRun.init : CopyRun := { k := 0, waiting := false, stalled := false }

/-- A camera slot without a stream. -/
def CamSlot.init : CamSlot :=
  { desc := none, ctx := 0, remap := [], enabled := false, disabling := false, n := 0, srcFrame := 0, prevFn := none,
    prevStart := none, skipped := 0, lastSkip := 0, attempt := none, next := [], msRead := [], good := 0#32, fail := 0#32,
    lastCause := 0, corr := 0, roi := 0#32 }

/-- A lidar slot without a stream. -/
def LidarSlot.init : LidarSlot :=
  { desc := none, ctx := 0, sweep := none, s := 0, enabled := false, gapNext := false, bySeq := 0,
    sweeps := 0#32, format := 0#32, checksum := 0#32, dup := 0#32, late := 0#32, overrun := 0#32 }

/-- A MAC at reset (R268). -/
def MacState.init : MacState :=
  { fec := 0, speed := false, en := false, fecUncorr := false, linkLost := false, blockLock := false, link := false,
    fcs := 0#32, mgmtDrop := 0#32, txFifo := [] }

/-- A Skep instance at reset (R291). -/
def SkepState.init : SkepState :=
  { descs := [], rot := 0, slots := Vector.replicate 8 none, done := 0#32, fail := 0#32, hit := 0#32, cbad := 0#32 }

/-- A FREE context-table entry. -/
def Ctx.init : Ctx :=
  { state := .free, cls := 0, prio := 0, flags := 0, graphId := 0#32, fbId := 0#32, frame := 0#32, tieBase := 0,
    tieCount := 0, deadlineUs := 0#32, stallUs := 0#32, coreMask := 0#16, ncore := 0, sgroup := 0, owed := 0#32,
    saveBase := 0#64, rkey := 0#64, origin := 0#64, nq := 0, ckptLast := 0, path := 0, nFallback := 0#32,
    nUnverified := 0#32, originSet := 0#32, windows := Vector.replicate 16 0#64, img := none, ring := none,
    run := none, nextReq := 0#32, reqs := [], outcomes := [], waitPkt := [], live := [], saved := [],
    downPeers := [], prelude := 0 }

/-- A link at reset (R412). -/
def LinkState.init : LinkState :=
  { en := false, st := 0, fails := 0, failed := false, wiring := false, peer := 0, downEvent := false,
    replaySeen := false, crcSeen := false, replay := 0#32, crcErr := 0#32, digest := 0#32, refused := 0#32,
    delay := 0#32, txNext := 0#16, rxNext := 0#16, out := [], txq := [], xq := [], xsent := 0, gap := false, accepted := false, nacked := false, replaysInRow := 0,
    episode := false, posted := [], readies := [], sent := [], rx := none, txOwner := none, txHalf := none,
    digestTimes := [] }

/-- The fabric at reset (R412). -/
def Fabric.init : Fabric :=
  { nm1 := 0, topo := 0, en := false, lock := false, timeLock := false, epoch := 0, manager := 0, nseq := 0#32,
    down := 0#8, lost := 0#8, beaconsGood := 0, t1 := none }

/-- Hoop at power-on (R428, R433, R469). -/
def HoopState.init : HoopState :=
  { err := 0#32, errOut := true, persist := false, cause := 0x1E, alive := 0#32, copyOk := 0#9,
    tables := Vector.replicate 3 (Vector.replicate 3 ⟨0#1024, 0#32⟩), table0 := none, table1 := none, table2 := none,
    rstCause := 0x00001FE0#32, rstTotal := 0, rstInWindow := 0, rstLast := 0#32, rstReturn := 0#32, fsrDropped := 0,
    fsrNum := 0, fsrs := [], resets := [], clockHold := false, goodWindows := 0, railsOut := [], tempHold := false, tempOver := false, halveEdge := false,
    stretchSeen := false,
    railHold := false, pllLost := false, inReset := false, recovering := false, returnUs := 0,
    abandoned := [], outOfService := false, divergent := false,
    cfgNone := false, hoopLs := false, startupDone := false, minHold := true, subSecond := 0, dozeMs := 0, aoRest := 0, sinceKick := 0, resp := 0#72,
    notice08 := 0#64, fragHost := false, fragSafety := false }

/-- The recorder before the partition is found; a blank NOR (log 12). -/
def Recorder.init : Recorder :=
  { run := false, full := false, erasing := false, queue := [], count := 0, cap := 0, drop := 0#32, page := [],
    slots := [], seqs := [], hours := 0#32, pcycle := 0#32, sectorA := [], sectorB := [], entrySeq := 0#32,
    eraseCh := 0, prog := none, entered := 0#32, entryDue := false }

/-- The time unit at reset (R470, R471, R477). -/
def TimeUnit.init : TimeUnit :=
  { sec := 0#48, ns := 0, frac := 0#32, inc := 0x280000000, stagedFrac := 0x80000000#32, stepNs := 0#32,
    stepS := 0#32, pending := none, ppsW := 0x0A, ppsEn := false, ppsHigh := false, ptpDrop := 0, incClamp := false,
    stepped := false, ppsinNew := false, halved := false, follow := false, shadow := [], ppsinFrac := 0#32,
    ppsinNs := 0#32, ppsinSec := 0#48, ppsinAt := none, integ := 0, ticks := 0, wall := 0,
    incP := 0x280000000 }

/-- Power, clocks and boot at power-on (R509, R523). -/
def PowerState.init : PowerState :=
  { req := 0, st := 0, avsErr := false, refused := false, stretch := false, halved := false, warnLow := false,
    halvedAt := 0, stretchAt := 0, vddLow := false, stretchCount := 0, stretchCycles := 0, avsWritten := false, entering := none,
    exiting := false, phase := .off, error := 0, recovery := false, source := 0, imageSvn := 0, bootMode := 0,
    image := none, norImage := none, svnFuses := 0#63, svnPending := false, lmsLeaf := 0,
    temps := Vector.replicate 24 0#16, porLow := false, jtag := 0 }

/-- The host endpoint at reset (R360); MSI-X vectors masked (log 15). -/
def HostIf.init : HostIf :=
  { linkWidth := 0, linkSpeed := 0, linkUp := false, sticky := 0#32, en := false, arqLog2 := 4,
    asqLog2 := 4, asqLo := 0#32, asqHi := 0#32, arqLo := 0#32, arqHi := 0#32, admin := none,
    msixMask := 0xFFFFFFFFFFFFFFFF#64, msixPend := 0#64, msixAddr := Vector.replicate 64 0#64,
    msixData := Vector.replicate 64 0#32, bar2 := none, perstLow := false, turn := 0 }

/-- An idle channel (R375). -/
def Mailbox.init : Mailbox := { msg := 0#512, ack := 0#16, st := 0, foreign := false, badOrder := false }

/-- The DRAM controller at reset (R310). -/
def DramState.init : DramState :=
  { det := true, ranks := false, density := 0, rate := false, en := false, clkSlowed := false, slowSeen := false, trainFail := false,
    selfRefresh := false, ready := false, lock := false, windows := 0#32 }

/-- Fuses and straps (log 4, log 5). -/
def Identity.init : Identity :=
  { grade := 1, disabledFuse := 0#16, creelMib := 12, avsCode := 5, uid := 0#128, keyHashEc := 0#384,
    keyHashLms := 0#256, strapChip := 0#3, strapBoot := 0#2, chip := 0#3, tcEn := 0xFFFF#16 }

/-- Slot tables before any graph is loaded: positions 0 to 15 are the creel ports', positions 16 to 19 those of the host endpoint
and of the Osier cluster, nothing else has a port or an owner (R293, R295, R302, log 13). -/
def SlotTables.init : SlotTables :=
  { slots := (List.replicate 32 (List.range 16 ++ [0x50, 0x51, 0x52, 0x53] ++ List.replicate 12 0xFF)).flatten, phases := List.replicate 22 0,
    dram := List.replicate 1584 0xFF,
    dramPhases := List.replicate 8 0 }

/-- The dispatcher at reset (R354). -/
def Dispatcher.init : Dispatcher :=
  { sliceUs := 0x07D0, diagUs := 0x8214, diagCtx := 0, lock := false, interval := 0, replays := [],
    slices := Vector.replicate 16 none, tables := SlotTables.init }

/-- The machine right after the power-on reset of the always-on island, before its cold boot (R500): every register
at the Reset column of its table. -/
def State.reset : State :=
  { id := Identity.init, mem := [], tags := [], ties := [], units := Vector.replicate 38 UnitState.init,
    cores := Vector.replicate 16 CoreState.init, copies := Vector.replicate 8 CopyRun.init,
    cams := Vector.replicate 2 (Vector.replicate 12 CamSlot.init), macs := Vector.replicate 4 MacState.init,
    ethLock := false, lidars := Vector.replicate 8 LidarSlot.init, mgmtQ := [], ptpQ := [],
    skeps := Vector.replicate 2 SkepState.init, dram := DramState.init, disp := Dispatcher.init, ctxs := [],
    hif := HostIf.init, mbox := Vector.replicate 64 Mailbox.init, links := Vector.replicate 6 LinkState.init,
    fabric := Fabric.init, hoop := HoopState.init, evr := Recorder.init, tu := TimeUnit.init,
    power := PowerState.init, pending := [], out := [], freeCtr := 0 }

end Sys2Proof.Machine
end

