-- ==== Sys2Proof/Machine/Ops.lean ====
section
/-! DEFINITION. The named operations over the state that the meanings share: lines and tags, ties, contexts, units,
time, events, HOOP_ERR, messages out, windows (R311 to R314), and the mailbox notice (R378). A block has no exception
entry: what a fault raises is an error bit, an event and an interrupt line, and these operations raise them. -/

namespace Sys2Proof.Machine

/-! ### Lines and tags -/

/-- Lines of the hamper (R292). -/
def hamperLines : Nat := 524288

/-- The key of hamper line `l` (R292). -/
def hamKey (l : Nat) : Nat := 0x100000000 + l

/-- The key of line `l` of the creel of core `n` (R17). -/
def creelKey (n l : Nat) : Nat := 0x110000000 + n * 0x10000 + l

/-- Contents of a line; a line nothing has written reads as 0 (log 3). -/
def State.line (s : State) (k : Nat) : Line := sparseGet 0#2048 s.mem k

/-- The stored tag of a line, where it is not the CRC-32C of its contents. -/
def State.badTag (s : State) (k : Nat) : Option Word := sparseGet none s.tags k

/-- The stored tag of a line (R15). -/
def State.tag (s : State) (k : Nat) : Word := (s.badTag k).getD (lineTag (s.line k))

/-- Does the stored tag equal the CRC-32C of the line (R15). -/
def State.tagOk (s : State) (k : Nat) : Bool :=
  match s.badTag k with
  | none => true
  | some t => decide (t = lineTag (s.line k))

/-- Write a line with the tag of its contents (R15). -/
def State.putLine (s : State) (k : Nat) (l : Line) : State :=
  { s with mem := sparsePut 0#2048 s.mem k l, tags := sparsePut none s.tags k none }

/-- Write a line with a tag carried from elsewhere: `none` is the tag of its contents. -/
def State.putLineTag (s : State) (k : Nat) (l : Line) (t : Option Word) : State :=
  { s with mem := sparsePut 0#2048 s.mem k l, tags := sparsePut none s.tags k t }

/-- Write consecutive lines. -/
def State.putLines (s : State) (k : Nat) : List Line → State
  | [] => s
  | l :: ls => (s.putLine k l).putLines (k + 1) ls

/-- Consecutive lines. -/
def State.lines (s : State) (k n : Nat) : List Line := (List.range n).map fun i => s.line (k + i)

/-- The first of `n` lines from `k` whose tag does not match. -/
def State.firstBad (s : State) (k n : Nat) : Option Nat := (List.range n).find? fun i => !s.tagOk (k + i)

/-- The `n` bytes at byte `off` from the start of line `k`. -/
def State.bytesAt (s : State) (k off n : Nat) : List Byte :=
  let l0 := k + off / 256
  let cnt := (off % 256 + n + 255) / 256
  (((s.lines l0 cnt).flatMap fun l => toBytes l 256).drop (off % 256)).take n

/-! ### Ties (R327 to R329) -/

/-- The value of a tie. -/
def State.tieVal (s : State) (t : Nat) : Word := sparseGet 0#32 s.ties t

/-- Set a tie. -/
def State.tieSet (s : State) (t : Nat) (v : Word) : State := { s with ties := sparsePut 0#32 s.ties t v }

/-- Add to a tie, modulo 2^32. -/
def State.tieAdd (s : State) (t : Nat) (v : Word) : State := s.tieSet t (s.tieVal t + v)

/-- Adds in order. -/
def State.tieAdds (s : State) : List (Nat × Nat) → State
  | [] => s
  | (t, a) :: m => (s.tieAdd t (BitVec.ofNat 32 a)).tieAdds m

/-- Has a tie value reached a threshold (R327). -/
def tieMet (v thr : Word) : Bool := (v - thr).toNat < 2 ^ 31

/-- Has tie `t` reached `thr`. -/
def State.tieReached (s : State) (t thr : Nat) : Bool := tieMet (s.tieVal t) (BitVec.ofNat 32 thr)

/-! ### Contexts and units -/

/-- A context-table entry. -/
def State.ctx (s : State) (c : Nat) : Ctx := sparseGet Ctx.init s.ctxs c

/-- Replace a context-table entry. -/
def State.setCtx (s : State) (c : Nat) (x : Ctx) : State := { s with ctxs := sparsePut Ctx.init s.ctxs c x }

/-- Change a context-table entry. -/
def State.modCtx (s : State) (c : Nat) (f : Ctx → Ctx) : State := s.setCtx c (f (s.ctx c))

/-- Change the current frame of a context. -/
def State.modFrame (s : State) (c : Nat) (f : FrameRun → FrameRun) : State :=
  s.modCtx c fun x => { x with run := x.run.map f }

/-- Is a tie in a context's range (R324). -/
def Ctx.ownsTie (x : Ctx) (t : Nat) : Bool := x.tieBase ≤ t && t < x.tieBase + x.tieCount

/-- A unit. -/
def State.unit (s : State) (u : UnitId) : UnitState := s.units[(unitIx u)]

/-- Replace a unit. -/
def State.setUnit (s : State) (u : UnitId) (x : UnitState) : State := { s with units := s.units.set (unitIx u) x }

/-- Change a unit. -/
def State.modUnit (s : State) (u : UnitId) (f : UnitState → UnitState) : State := s.setUnit u (f (s.unit u))

/-- Change a unit's registers. -/
def State.modRegs (s : State) (u : UnitId) (f : UnitRegs → UnitRegs) : State :=
  s.modUnit u fun x => { x with regs := f x.regs }

/-- Change the command on a unit. -/
def State.modRun (s : State) (u : UnitId) (f : Placed → Placed) : State :=
  s.modUnit u fun x => { x with run := x.run.map f }

/-- A core. -/
def State.core (s : State) (n : Fin 16) : CoreState := s.cores[n]

/-- Replace a core. -/
def State.setCore (s : State) (n : Fin 16) (x : CoreState) : State := { s with cores := s.cores.set n x }

/-- Is a unit enabled: fuses disable tensor cores only (R4), and nothing is enabled under CONFIG_DIVERGENT (R436). -/
def State.enabled (s : State) (u : UnitId) : Bool :=
  match u with
  | .tc n => s.id.tcEn.getLsbD n.val
  | _ => true

/-- The units of the die that are enabled. -/
def State.enabledUnits (s : State) : List UnitId := allUnits.filter s.enabled

/-- Creel lines per core (R20, R79). -/
def State.creelLines (s : State) : Nat := s.id.creelMib * 4096

/-- Does a hold of the compute domain stand (R429, R430). -/
def State.held (s : State) : Bool := s.hoop.clockHold || s.hoop.railHold || s.hoop.tempHold

/-- Is the compute domain in reset, or held in reset, until cold boot or for as long as a hold stands (R426, R429, R430, R436,
R461). -/
def State.domainHeld (s : State) : Bool :=
  s.held || s.hoop.hoopLs || s.hoop.outOfService || s.hoop.divergent || s.hoop.cfgNone

/-- Do the units of the compute domain take commands: Protil runs, the domain is out of reset, and the array clocks run, as they
do in Run only (R455, R495). -/
def State.computeUp (s : State) : Bool :=
  s.power.phase == .up && s.power.st == 0 && (!s.hoop.inReset || s.hoop.recovering) && !s.domainHeld

/-- Does intake open attempts and sweeps: after return to service, and while the units are powered, in Run and Hold (R257,
R495). -/
def State.intakeUp (s : State) : Bool :=
  s.power.phase == .up && s.power.st ≤ 1 && !s.hoop.inReset && !s.domainHeld

/-! ### Time (R472, R473) -/

/-- The device time base: nanoseconds modulo 2^64 (R472). -/
def State.nowNs (s : State) : Nat := (s.tu.sec.toNat * 1000000000 + s.tu.ns) % 2 ^ 64

/-- The DONE_TIME layout of R26: nanoseconds (4), seconds low (4), seconds high (2), reserved (2). -/
def timeWord (sec ns : Nat) : BitVec 96 :=
  BitVec.ofNat 96 (ns % 2 ^ 32 + (sec % 2 ^ 48) * 2 ^ 32)

/-- Now, in that layout. -/
def State.nowWord (s : State) : BitVec 96 := timeWord s.tu.sec.toNat s.tu.ns

/-- The Q32 time of a stamp taken `phase` steps after the last tick (R473). -/
def State.stampQ (s : State) (phase : Nat) : Nat :=
  let inc := if s.tu.halved then 2 * s.tu.inc else s.tu.inc
  (s.tu.sec.toNat * 1000000000 + s.tu.ns) * 2 ^ 32 + s.tu.frac.toNat + phase * inc / 80

/-- A stamp from a Q32 time. -/
def stampOf (q : Nat) : Stamp :=
  { sec := q / 2 ^ 32 / 1000000000 % 2 ^ 48, ns := q / 2 ^ 32 % 1000000000, frac := q % 2 ^ 32 }

/-- A stamp at an interpolated phase (R473). -/
def State.stamp (s : State) (phase : Nat) : Stamp := stampOf (s.stampQ phase)

/-- Q32 nanoseconds of a stamp. -/
def Stamp.q (t : Stamp) : Int := ((t.sec : Int) * 1000000000 + t.ns) * 4294967296 + t.frac

/-! ### Messages out, events, error bits -/

/-- A message leaves the chip. -/
def State.emit (s : State) (o : Out) : State := { s with out := s.out ++ [o] }

/-- Has recording stopped: RECORDER_FULL is written, or is being written into the last free slot (R480). -/
def Recorder.stopped (r : Recorder) : Bool := (r.full || r.run && r.count + 1 == r.cap) && !r.erasing

/-- Raise an event (R478, R479). A queue of 256 events that is full loses the event, and so does a recorder that has
stopped; EVR_DROP counts it and stops at its maximum (R480, R484). Events of one source number consecutively. -/
def State.event (s : State) (k : EventKind) (data : List Byte) : State :=
  let seq := sparseGet 0#32 s.evr.seqs k.source
  let e : Event := { source := k.source, code := k.code, seq := seq, time := s.nowWord,
                     data := BitVec.ofNat 192 (natOfBytes (data.take 24)) }
  let seqs := sparsePut 0#32 s.evr.seqs k.source (seq + 1#32)
  if s.evr.stopped || s.evr.queue.length ≥ 256 then
    { s with evr := { s.evr with
        seqs := seqs
        drop := if s.evr.drop = 0xFFFFFFFF#32 then s.evr.drop else s.evr.drop + 1#32 } }
  else { s with evr := { s.evr with seqs := seqs, queue := s.evr.queue ++ [e] } }

/-- The data bytes of an event: 32-bit words, lowest first. -/
def words (ws : List Nat) : List Byte := ws.flatMap (natToBytes 4)

/-- The safety port's alert line, asserted (R432). -/
def State.alert (s : State) : Bool := decide (s.hoop.err ≠ 0#32) || decide (s.hoop.notice08 ≠ 0#64)

/-- Set a HOOP_ERR bit (R433). -/
def State.hoopErr (s : State) (bit : Nat) : State :=
  { s with hoop := { s.hoop with err := s.hoop.err ||| (1#32 <<< bit) } }

/-- ERR_OUT_N is low while any of these holds (R428): the start-up tests have not run, the compute domain is in reset
or held, or a cause that holds until cold boot. -/
def HoopState.errCause (h : HoopState) : Bool :=
  !h.startupDone || h.inReset || h.outOfService || h.divergent || h.cfgNone || h.hoopLs

/-- Assert ERR_OUT_N with a cause (R428): the pin stays low at least 100 µs. -/
def State.assertErr (s : State) (cause : Nat) (persist : Bool) : State :=
  if s.hoop.errOut && s.hoop.persist then s
  else { s with hoop := { s.hoop with errOut := true, persist := persist, cause := cause, minHold := true } }

/-- Release ERR_OUT_N when nothing holds it and its minimum low time is over (R428, R433: CAUSE 0x1F). -/
def State.releaseErr (s : State) : State :=
  if s.hoop.errCause || s.hoop.minHold then s
  else { s with hoop := { s.hoop with errOut := false, persist := false, cause := 0x1F } }

/-- Set a W1C bit of HIF_STATUS; its setting raises MSI-X vector 1 (R360, R372). A masked vector turns pending. -/
def State.msix (s : State) (v : Nat) : State :=
  if s.hif.msixMask.getLsbD v then
    { s with hif := { s.hif with msixPend := s.hif.msixPend ||| (1#64 <<< v) } }
  else s.emit (.msix v)

/-- Set a W1C bit of HIF_STATUS (R360). -/
def State.hifSticky (s : State) (bit : Nat) : State :=
  if s.hif.sticky.getLsbD bit then s
  else ({ s with hif := { s.hif with sticky := s.hif.sticky ||| (1#32 <<< bit) } }).msix 1

/-- A saturating 32-bit count (R261, R268, R291). -/
def satInc (w : Word) : Word := if w = 0xFFFFFFFF#32 then w else w + 1#32

/-! ### Device addresses and windows (R17, R18, R311 to R314) -/

/-- DRAM lines populated (R303): by density and ranks. -/
def DramState.totalLines (d : DramState) : Nat :=
  let gib := (if d.density = 1 then 32 else 16) * (if d.ranks then 2 else 1)
  gib * 4194304

/-- Data lines, below the tag region of the top 1/64 (R304). -/
def DramState.dataLines (d : DramState) : Nat := d.totalLines - d.totalLines / 64

/-- Is DRAM assigned: not after a training failure (R310). -/
def State.dramAssigned (s : State) (l : Nat) : Bool := !s.dram.trainFail && decide (l < s.dram.dataLines)

/-- Is a line of the device address space one that holds tensor data (R17, R18). -/
def State.lineAssigned (s : State) (k : Nat) : Bool :=
  if k < 0x10000000 then s.dramAssigned k
  else if 0x100000000 ≤ k && k < 0x100080000 then true
  else if 0x110000000 ≤ k && k < 0x110100000 then
    let n := (k - 0x110000000) / 0x10000
    let l := (k - 0x110000000) % 0x10000
    s.id.tcEn.getLsbD n && decide (l < s.creelLines)
  else false

/-- Where a context address leads. -/
inductive Target where
  | device (line : Nat)
  | host (addr : Nat)
  | peer (chip line : Nat)
deriving DecidableEq, Repr

/-- BASE of a window (R312). -/
def winBase (w : DWord) : Nat := fieldNat w 32 32

/-- Size of a window in bytes (R312). -/
def winSize (w : DWord) : Nat := (fieldNat w 12 20 + 1) * 65536

/-- TARGET of a window (R312). -/
def winTarget (w : DWord) : Nat := fieldNat w 7 2

/-- Is a context address, of 8 bytes, well formed: bits [63:44] zero (R311) and line-aligned. -/
def caOk (ca : Nat) : Bool := ca < 2 ^ 44 && ca % 256 == 0

/-- The window and offset of a context address (R311). -/
def caWindow (ca : Nat) : Nat := ca / 2 ^ 40 % 16

/-- The offset of a context address (R311). -/
def caOffset (ca : Nat) : Nat := ca % 2 ^ 40

/-- The translation of a line with its checks (R313, R314): none is WINDOW_FAULT. The device address is checked too. -/
def State.translate (s : State) (wins : List DWord) (ca : Nat) (write : Bool) : Option Target :=
  let w := wins.getD (caWindow ca) 0#64
  let o := caOffset ca
  let perm := if write then bitAt w 2 else bitAt w 1
  let addr := winBase w * 65536 + o
  if !bitAt w 0 || o > winSize w - 256 || !perm || winTarget w = 3 || fieldNat w 3 4 ≠ 0 || addr ≥ 2 ^ 48 then none
  else if winTarget w = 1 then some (.host addr)
  else if winTarget w = 2 then some (.peer (fieldNat w 9 3) (addr / 256))
  else if s.lineAssigned (addr / 256) then some (.device (addr / 256)) else none

/-- Translation of an optional context address. -/
def State.translateOpt (s : State) (wins : List DWord) (ca : Option Nat) (write : Bool) : Option Target :=
  match ca with
  | some a => s.translate wins a write
  | none => none

/-- Where a context address leads, whatever the permission. -/
def State.translateAny (s : State) (wins : List DWord) (ca : Option Nat) : Option Target :=
  s.translateOpt wins ca false <|> s.translateOpt wins ca true

/-- Is a whole range of `n` lines in one window with a target and a permission (R26, R301, R362). -/
def rangeInWindow (wins : List DWord) (ca n : Nat) (targets : List Nat) (write : Bool) : Bool :=
  let w := wins.getD (caWindow ca) 0#64
  let o := caOffset ca
  ca < 2 ^ 44 && bitAt w 0 && (if write then bitAt w 2 else bitAt w 1) && targets.contains (winTarget w) &&
  fieldNat w 3 4 == 0 && decide (o + 256 * n ≤ winSize w) && decide (winBase w * 65536 + o + 256 * n ≤ 2 ^ 48)

/-- Is a hamper line range inside a device window of a context, with a permission (R301). -/
def State.hamperAllowed (_s : State) (wins : List DWord) (line n : Nat) (write : Bool) : Bool :=
  wins.any fun w =>
    let a := (hamKey line) * 256
    let b := winBase w * 65536
    decide (line + n ≤ 524288) && bitAt w 0 && winTarget w == 0 && fieldNat w 3 4 == 0 && (if write then bitAt w 2 else bitAt w 1) &&
    decide (b ≤ a) && decide (a + 256 * n ≤ b + winSize w)

/-! ### Header fields common to every command (R102 to R104, R201, R206) -/

/-- INDEX. -/
def hdrIndex (h : Header) : Nat := fieldNat h 32 20

/-- DECL_CYCLES. -/
def hdrDecl (h : Header) : Nat := fieldNat h 64 32

/-- FLAGS.TALLY. -/
def hdrTally (h : Header) : Bool := bitAt h 16

/-- CLASS. -/
def hdrClass (h : Header) : Nat := bytesNat h 1 1

/-- CKPT. -/
def hdrCkpt (h : Header) : Nat := bytesNat h 19 1

/-- AFFINITY of a tensor-core header. -/
def hdrAffinity (h : Header) : Nat := bytesNat h 18 1

/-- Wait entry `i` (R103). -/
def hdrWait (h : Header) (i : Nat) : DWord := h.extractLsb' (8 * (40 + 8 * i)) 64

/-- Signal entry `i` (R104). -/
def hdrSignal (h : Header) (i : Nat) : Word := h.extractLsb' (8 * (72 + 4 * i)) 32

/-- The threshold of a wait entry in frame `f` (R103). -/
def waitThreshold (w : DWord) (f : Nat) : Word := BitVec.ofNat 32 (fieldNat w 32 16 + fieldNat w 48 16 * f)

/-- Is a wait entry met (R103, R327). -/
def State.waitMet (s : State) (w : DWord) (f : Nat) : Bool :=
  !bitAt w 31 || tieMet (s.tieVal (fieldNat w 0 17)) (waitThreshold w f)

/-- Is a header's command ready in frame `f` (R330). -/
def State.ready (s : State) (h : Header) (f : Nat) : Bool :=
  (List.range 4).all fun i => s.waitMet (hdrWait h i) f

/-- The adds of a header's signal entries, in entry order (R104). -/
def hdrSignals (h : Header) : List (Nat × Nat) :=
  (List.range 4).filterMap fun i =>
    let w := hdrSignal h i
    if bitAt w 31 then some (fieldNat w 0 17, fieldNat w 17 14) else none

/-- The live ranges of a tensor-core header: start line and count (R102). -/
def hdrLive (h : Header) : List (Nat × Nat) :=
  (List.range 4).filterMap fun i =>
    let w := h.extractLsb' (8 * (24 + 4 * i)) 32
    if fieldNat w 16 16 = 0 then none else some (fieldNat w 0 16, fieldNat w 16 16)

/-! ### Mailboxes (R375 to R378) -/

/-- The binding in force of a channel: sender and receiver; under divergence channels 2 and 3 keep the default of
Hoop's ROM and the others are unbound (R376, R436). -/
def State.binding (s : State) (ch : Nat) : Nat × Nat :=
  match s.hoop.table1 with
  | some t => (fieldNat t (16 * ch) 8, fieldNat t (16 * ch + 8) 8)
  | none =>
    if (s.hoop.divergent || s.hoop.cfgNone) && ch = 2 then (0x08, 0x03)
    else if (s.hoop.divergent || s.hoop.cfgNone) && ch = 3 then (0x03, 0x08)
    else (0, 0)

/-- Notify a master of an event of channel `ch` by its path (R378). -/
def State.notifyMaster (s : State) (ch m : Nat) : State :=
  if m = 0x01 then s.msix 2
  else if m = 0x08 then { s with hoop := { s.hoop with notice08 := s.hoop.notice08 ||| (1#64 <<< ch) } }
  else if m = 0x02 || m = 0x03 then s.emit (.notify m)
  else s

/-- A mailbox channel. -/
def State.chan (s : State) (ch : Fin 64) : Mailbox := s.mbox[ch]

/-- Change a mailbox channel. -/
def State.modChan (s : State) (ch : Fin 64) (f : Mailbox → Mailbox) : State :=
  { s with mbox := s.mbox.set ch (f (s.chan ch)) }

/-! ### Topology of the links (R384, R386, R388) -/

/-- The peer and its link that link `l` of chip `c` joins (R386). -/
def linkPeer (topo nm1 c l : Nat) : Option (Nat × Nat) :=
  let n := nm1 + 1
  let ring := if l = 0 then some ((c + 1) % n, 1) else if l = 1 then some ((c + n - 1) % n, 0) else none
  if topo = 0 then (if n ≥ 2 then ring else none)
  else if topo = 1 then (if l = 2 then some (c ^^^ 2, 2) else ring)
  else if l = 2 then some (c ^^^ 1, 2) else if l = 3 then some (c ^^^ 2, 3) else if l = 4 then some (c ^^^ 4, 4)
  else ring

/-- This chip. -/
def State.self (s : State) : Nat := s.id.chip.toNat

/-- The peer that link `l` joins, while the fabric is in use. -/
def State.peerOf (s : State) (l : Nat) : Option (Nat × Nat) :=
  if s.fabric.en then linkPeer s.fabric.topo s.fabric.nm1 s.self l else none

/-- The links that the topology uses. -/
def State.usedLinks (s : State) : List (Fin 6) := (List.finRange 6).filter fun l => (s.peerOf l.val).isSome

/-- A link. -/
def State.link (s : State) (l : Fin 6) : LinkState := s.links[l]

/-- Replace a link. -/
def State.setLink (s : State) (l : Fin 6) (x : LinkState) : State := { s with links := s.links.set l x }

/-- Change a link. -/
def State.modLink (s : State) (l : Fin 6) (f : LinkState → LinkState) : State := s.setLink l (f (s.link l))

/-- Is a link ACTIVE (R384). -/
def LinkState.active (x : LinkState) : Bool := x.st == 5

/-- Is the fabric formed (R388). -/
def State.formed (s : State) : Bool :=
  s.fabric.en && !s.usedLinks.isEmpty && s.usedLinks.all fun l => (s.link l).active

/-! ### Protil and power -/

/-- Does Hoop run: it stops on its own lockstep mismatch and in Park (R426, R495). -/
def State.hoopRuns (s : State) : Bool := !s.hoop.hoopLs && s.power.st != 5

/-- Does a master reach an offset of the register space: debug master 0x04 reaches nothing (R517), the safety port is served
while Hoop runs (R499), and in PCIe recovery the host reaches the power and clocks block only (R506). -/
def State.reaches (s : State) (m off : Nat) : Bool :=
  m != 0x04 && (m != 0x08 || s.hoopRuns) && !(s.power.phase == .recovery && m == 0x01 && off / 0x10000 != 0x84)

/-- The status with which Protil answers every packet but NOP (R374, R435, R436, R461). -/
def State.serviceStatus (s : State) : Option Status :=
  if s.hoop.outOfService then some .outOfService
  else if s.hoop.divergent then some .configDivergent
  else if s.hoop.cfgNone then some .internal
  else none

/-- Does Protil serve rings: it runs after boot, in Run, not in a compute-domain reset, and under R436 and R461. -/
def State.protilUp (s : State) : Bool :=
  s.power.phase == .up && s.power.st == 0 && !s.hoop.hoopLs && (s.serviceStatus.isSome || !s.hoop.inReset)

/-- A wake event (R497): an entry in progress stops at its next step and the exit starts from the deepest state reached. In
Park only WAKE_N wakes the chip. -/
def State.wakeUp (s : State) (pin : Bool) : State :=
  if s.power.exiting || (s.power.st = 5 && !pin) || (s.power.st = 0 && s.power.entering.isNone) then s
  else { s with power := { s.power with entering := none, exiting := s.power.st != 0 } }

/-- A ring notifies the receiver and raises its power domain (R378, R497). -/
def State.ringNotice (s : State) (ch m : Nat) : State :=
  let s := if m = 0x02 ∨ m = 0x03 then s.wakeUp false else s
  s.notifyMaster ch m

/-! ### Lines that a running command writes -/

/-- Note, for the running command of a unit, what line `key` holds before the command writes it. -/
def State.noteWrite (s : State) (u : UnitId) (index : Nat) (cycle : Option Nat) (key : Nat)
    (tagLine : Option (Option Nat) := none) : State :=
  s.modUnit u fun x => { x with undo := x.undo ++ [⟨index, cycle, key, s.line key, s.badTag key, tagLine⟩] }

/-- The lines noted for a unit that satisfy `cut` are not written after all: each holds again what it held before. -/
def State.unwrite (s : State) (u : UnitId) (cut : Undo → Bool) : State :=
  let ws := (s.unit u).undo
  ((ws.filter cut).reverse.foldl (fun (s : State) w => s.putLineTag w.key w.old w.tag) s).modUnit u fun x =>
    { x with undo := ws.filter fun w => !cut w }

/-- The command of a unit writes lines at the keys given, in order, after those it has written; the rules give no cycle for
each. -/
def State.putNoted (s : State) (u : UnitId) (ls : List (Nat × Line)) : State :=
  (ls.zipIdx (s.unit u).undo.length).foldl (fun s x => (s.noteWrite u x.2 none x.1.1).putLine x.1.1 x.1.2) s

/-- Lines that a mover has written to DRAM without writing their group's tag line back keep the tags that the tag line held
(R318, R321, R451); `stale` says of a written line whether its tag line was not written. -/
def State.staleTags (s : State) (u : UnitId) (stale : Undo → Bool) : State :=
  ((s.unit u).undo.filter fun w => w.key < 0x10000000 && stale w).reverse.foldl (fun (s : State) w =>
    let t := w.tag.getD (lineTag w.old)
    s.putLineTag w.key (s.line w.key) (if t = lineTag (s.line w.key) then none else some t)) s

/-- Are the schedule clocks slowed now (R491). -/
def State.slowed (s : State) : Bool := s.power.halved || s.power.stretch

/-! ### Free values -/

/-- Draw a free line (log 16). -/
def State.drawLine (s : State) : Line × State := (Config.freeLine s.freeCtr, { s with freeCtr := s.freeCtr + 1 })

/-- The outcome of a meaning that answers a next state. -/
abbrev Result := Host.Outcome State Fault Refusal

/-! ### Reads before or after another unit's write (R300) -/

/-- What a line held, with its tag, before the running command of another unit than `u` wrote it. -/
def State.earlier (s : State) (u : Option UnitId) (k : Nat) : Line × Option Word :=
  match ((allUnits.filter fun v => some v != u).flatMap fun v => (s.unit v).undo).find? (·.key == k) with
  | some w => (w.old, w.tag)
  | none => (s.line k, s.badTag k)

/-- Does another unit than `u` run a command. -/
def State.othersRun (s : State) (u : Option UnitId) : Bool :=
  allUnits.any fun v => some v != u && (s.unit v).run.any (·.stage == .running)

/-- The hamper lines that a reader finds as another unit's command left them in an earlier period, whichever row came first: before
a write whose row has come already (early), and after one whose row is to come (late). -/
def State.periodReads (s : State) (u : Option UnitId) (ups : List Upset) : List (Nat × Line × Option Word) :=
  ups.filterMap fun x => match x with
    | .early l => if l < hamperLines then some (hamKey l, s.earlier u (hamKey l)) else none
    | .late l d t => if l < hamperLines && s.othersRun u then some (hamKey l, d, if t = some (lineTag d) then none else t) else none
    | _ => none

/-- The memory with lines as a reader finds them. -/
def State.seenAs (s : State) (rs : List (Nat × Line × Option Word)) : State :=
  rs.foldl (fun s r => s.putLineTag r.1 r.2.1 r.2.2) s

/-- The work of a command of unit `u` on the memory that it sees: a line that it reads otherwise than it stands, and does not
write itself, stands afterwards as before (R300). -/
def State.asRead (s : State) (u : UnitId) (ups : List Upset) (work : State → Result) : Result :=
  match s.periodReads (some u) ups with
  | [] => work s
  | rs => match work (s.seenAs rs) with
    | .next t => .next (rs.foldl (fun t r =>
        if (t.unit u).undo.any (·.key == r.1) then t else t.putLineTag r.1 (s.line r.1) (s.badTag r.1)) t)
    | r => r

end Sys2Proof.Machine
end

