-- ==== Sys2Proof/Machine/Flags.lean ====
section
/-! DEFINITION. The status words, sticky bits and counters that several meanings set: unit registers at a command's
start and end (R101, R202, R207, R323), the fault signature record (R466, R467), transients and quarantine (R442), and
the detection of a compute-domain reset (R453, R469). -/

namespace Sys2Proof.Machine

/-- The word of a FAULT register: status code and cycle of detection (R101, R204, R233, R323). -/
def faultWord (st : Status) (det : Nat) : Word := BitVec.ofNat 32 (st.code * 2 ^ 24 + det % 2 ^ 24)

/-- The word of a CMD register (R101). -/
def cmdWord (ctx index : Nat) : Word := BitVec.ofNat 32 (ctx % 2 ^ 12 * 2 ^ 20 + index % 2 ^ 20)

/-- The registers when a command begins. -/
def startRegs (ctx : Nat) (h : Header) (r : UnitRegs) : UnitRegs :=
  { r with busy := true, cmd := cmdWord ctx (hdrIndex h), decl := BitVec.ofNat 32 (hdrDecl h) }

/-- Does an end status count as a fault for the FAULT register: DONE, DONE_ABORT_LATE and ABORTED do not. -/
def Status.isFault (st : Status) : Bool := !st.ok && st != .aborted

/-- The registers when a command ends (R101): last status, cycles used, sticky bits, and the fault if it is one. -/
def endRegs (st : Status) (used det : Nat) (sticky : Word) (r : UnitRegs) : UnitRegs :=
  { r with
      busy := false
      lastStatus := st.code
      used := BitVec.ofNat 32 used
      sticky := r.sticky ||| sticky
      fault := if st.isFault then faultWord st det else r.fault }

/-- ACLK cycles in nanoseconds, at 2.2 GHz, rounded up (R439). -/
def aclkNs (n : Nat) : Nat := (n * 5 + 10) / 11

/-! ### CBOR (R467) -/

/-- The shortest head of a CBOR item of a major type. -/
def cborHead (major v : Nat) : List Byte :=
  let b := fun n => (natToBytes n v).reverse
  if v < 24 then [BitVec.ofNat 8 (major * 32 + v)]
  else if v < 2 ^ 8 then BitVec.ofNat 8 (major * 32 + 24) :: b 1
  else if v < 2 ^ 16 then BitVec.ofNat 8 (major * 32 + 25) :: b 2
  else if v < 2 ^ 32 then BitVec.ofNat 8 (major * 32 + 26) :: b 4
  else BitVec.ofNat 8 (major * 32 + 27) :: b 8

/-- A value of the record: an unsigned integer or a byte string. -/
inductive CborVal where
  | uint (v : Nat)
  | bstr (b : List Byte)
deriving DecidableEq, Repr

/-- A map with unsigned keys, in the order given. -/
def cborMap (kvs : List (Nat × CborVal)) : List Byte :=
  cborHead 5 kvs.length ++ kvs.flatMap fun kv =>
    cborHead 0 kv.1 ++ (match kv.2 with
      | .uint v => cborHead 0 v
      | .bstr b => cborHead 2 b.length ++ b)

/-! ### Identity words -/

/-- DEV_ID (R3). -/
def State.devId (s : State) : Nat := 0x4D16 * 2 ^ 16 + s.id.grade % 16 * 2 ^ 12 + 1 * 2 ^ 8 + 2 * 2 ^ 4

/-- Version of the running Protil image, 0 while none runs. -/
def State.fwVersion (s : State) : Word := match s.power.image with
  | some i => i.version
  | none => 0#32

/-- Number of set bits. -/
def popcount {w : Nat} (x : BitVec w) : Nat := ((List.range w).filter fun i => x.getLsbD i).length

/-- Enabled tensor cores. -/
def State.coreCount (s : State) : Nat := popcount s.id.tcEn

/-- RKEY.CHIPS of the device: N of a formed fabric, otherwise 1 (R351, R388). -/
def State.chipCount (s : State) : Nat := if s.formed then s.fabric.nm1 + 1 else 1

/-- A reproducibility key (R351). -/
def rkeyWord (version : Word) (cores : Nat) (compat : Bool) (creel chips : Nat) (det : Bool) : DWord :=
  BitVec.ofNat 64 (2 * 2 ^ 60 + version.toNat * 2 ^ 28 + cores % 32 * 2 ^ 23 + boolNat compat * 2 ^ 22 +
    creel % 64 * 2 ^ 16 + chips % 16 * 2 ^ 12 + boolNat det * 2 ^ 11)

/-- The device key (R20, R351). -/
def State.deviceKey (s : State) : DWord :=
  rkeyWord s.fwVersion s.coreCount false s.id.creelMib s.chipCount s.dram.det

/-! ### Fault signature records (R466 to R468) -/

/-- A command that a record names: context, frame, header. -/
structure CmdRef where
  ctx : Nat
  frame : Nat
  hdr : Header
deriving DecidableEq, Repr

/-- A placed command, as a record names it. -/
def Placed.ref (p : Placed) : CmdRef := { ctx := p.ctx, frame := p.frame, hdr := p.hdr }

/-- The keys 7 to 14 and 18 of a record for a command on a unit. -/
def State.fsrCommand (s : State) (u : UnitId) (st : Status) (p : Option CmdRef) (det : Nat) (loc : List Byte) :
    List (Nat × CborVal) :=
  [(7, .uint st.code), (8, .uint (unitCode u))] ++
  (match p with
   | some p => [(9, .uint p.ctx), (10, .uint (s.ctx p.ctx).graphId.toNat), (11, .uint (hdrIndex p.hdr)),
       (12, .uint p.frame), (18, .uint (s.ctx p.ctx).rkey.toNat)]
   | none => []) ++
  [(13, .uint det)] ++ (if loc.isEmpty then [] else [(14, .bstr loc)])

/-- The keys of a record about a stream or a sample of a context, which no command runs: status INTERNAL, the unit's code, and the
context (R467). -/
def State.fsrStream (s : State) (unit : Nat) (ctx : Option Nat) : List (Nat × CborVal) :=
  [(7, .uint Status.internal.code), (8, .uint unit)] ++ (match ctx with
    | some c => [(9, .uint c), (10, .uint (s.ctx c).graphId.toNat), (18, .uint (s.ctx c).rkey.toNat)]
    | none => [])

/-- Insert a pair of a record by its key. -/
def insertCbor (e : Nat × CborVal) : List (Nat × CborVal) → List (Nat × CborVal)
  | [] => [e]
  | x :: xs => if e.1 ≤ x.1 then e :: x :: xs else x :: insertCbor e xs

/-- Fragments of a record (R468): 60 bytes each. -/
def Fsr.count (f : Fsr) : Nat := ceilDiv f.bytes.length 60

/-- The channel that carries records to a receiver (R468): 1 to the host, 3 to the safety port. -/
def fsrChannel (toHost : Bool) : Fin 64 := if toHost then 1 else 3

/-- Is that channel bound to its two masters, so that its acknowledge is required. -/
def State.fsrBound (s : State) (toHost : Bool) : Bool :=
  s.binding (fsrChannel toHost).val == (if toHost then (0x02, 0x01) else (0x03, 0x08))

/-- Fragments that a receiver has acknowledged. -/
def Fsr.acked (f : Fsr) (toHost : Bool) : Nat := if toHost then f.hostAck else f.safetyAck

/-- The 16 words of fragment `i` of a record (R468). -/
def Fsr.fragment (f : Fsr) (i : Nat) : Packet :=
  BitVec.ofNat 512 (natOfBytes (natToBytes 4 (f.num * 2 ^ 16 + i % 256 * 2 ^ 8 + f.count % 256) ++ (f.bytes.drop (60 * i)).take 60))

/-- Records that every required receiver has acknowledged leave the queue (R468). -/
def State.fsrLeave (s : State) : State :=
  { s with hoop := { s.hoop with fsrs := s.hoop.fsrs.filter fun f =>
      (s.fsrBound true && f.hostAck < f.count) || (s.fsrBound false && f.safetyAck < f.count) } }

/-- Send the next fragment to a receiver where its channel is free (R468). -/
def State.fsrPump (s : State) (toHost : Bool) : State :=
  let ch := fsrChannel toHost
  let up := if toHost then s.protilUp else !s.hoop.hoopLs && s.power.st != 5
  if !s.fsrBound toHost || !up || (s.chan ch).st == 1 || (if toHost then s.hoop.fragHost else s.hoop.fragSafety) then s
  else match s.hoop.fsrs.find? fun f => f.acked toHost < f.count with
    | none => s
    | some f =>
      let s := s.modChan ch fun m => { m with msg := f.fragment (f.acked toHost), st := 1 }
      let s := { s with hoop := if toHost then { s.hoop with fragHost := true } else { s.hoop with fragSafety := true } }
      s.ringNotice ch.val (if toHost then 0x01 else 0x08)

/-- Send what can be sent to both receivers. -/
def State.fsrSend (s : State) : State := ((s.fsrLeave).fsrPump true).fsrPump false

/-- The acknowledge of the fragment in flight to a receiver (R468). -/
def State.fsrAcked (s : State) (toHost : Bool) : State :=
  let go := fun (l : List Fsr) => match l.findIdx? fun f => f.acked toHost < f.count with
    | none => l
    | some i => l.modify i fun f => if toHost then { f with hostAck := f.hostAck + 1 } else { f with safetyAck := f.safetyAck + 1 }
  let s := { s with hoop := { s.hoop with fsrs := go s.hoop.fsrs } }
  let h := if toHost then { s.hoop with fragHost := false } else { s.hoop with fragSafety := false }
  ({ s with hoop := h }).fsrSend

/-- Queue a fault signature record of a kind; `kvs` are its keys from 7 to 18, in any order. -/
def State.fsr (s : State) (kind : Nat) (kvs : List (Nat × CborVal)) : State :=
  if s.hoop.fsrs.length ≥ 64 then
    { s with hoop := { s.hoop with fsrDropped := min 0xFFFF (s.hoop.fsrDropped + 1) } }
  else
    let head := [(0, CborVal.uint 1), (1, .uint s.devId), (2, .uint s.id.chip.toNat), (3, .uint s.fwVersion.toNat),
      (4, .uint s.evr.hours.toNat), (5, .uint s.evr.pcycle.toNat), (6, .uint kind)]
    let b := cborMap (head ++ kvs.foldl (fun l e => insertCbor e l) [] ++ [(19, .uint s.hoop.fsrDropped)])
    let f : Fsr := { num := s.hoop.fsrNum, bytes := b, hostAck := 0, safetyAck := 0 }
    let s := { s with hoop := { s.hoop with
        fsrs := s.hoop.fsrs ++ [f]
        fsrNum := (s.hoop.fsrNum + 1) % 2 ^ 16 } }
    s.fsrSend

/-- The location of a core's, engine's or mover's fault (R467, key 14); a mover has one where the fault's address is in its
registers. -/
def State.faultLoc (s : State) (u : UnitId) (st : Status) (located : Bool) : List Byte :=
  match u with
  | .tc n => if st = .rimFault then natToBytes 4 (s.core n).rim.toNat
    else if st = .tagFault ∨ st = .creelConflict then natToBytes 4 (s.unit u).regs.faultAddr.toNat else []
  | .mv _ =>
    let r := (s.unit u).regs
    if located then
      natToBytes 4 r.faultAddr.toNat ++ natToBytes 4 r.stat.toNat ++ (if r.ahi = 0#32 then [] else natToBytes 4 r.ahi.toNat)
    else []
  | _ => if st = .tagFault ∨ st = .windowFault then natToBytes 4 (s.unit u).regs.faultAddr.toNat else []

/-- Transients of a unit within 3,600 s of now. -/
def State.transientCount (s : State) (u : UnitId) : Nat :=
  ((s.unit u).transients.filter fun t => s.evr.hours.toNat - t ≤ 3600).length

/-- Quarantine a unit (R442): its CTRL bit, HOOP_ERR, an event and a record, which counts `more` transients beside those that the
unit keeps. -/
def State.quarantine (s : State) (u : UnitId) (st : Status) (kvs : List (Nat × CborVal)) (more : Nat := 0) : State :=
  let s := (s.modRegs u fun r => { r with quarantine := true }).hoopErr 8
  let s := s.event .quarantine (words [unitCode u, st.code])
  s.fsr 1 (kvs ++ [(15, .uint (s.transientCount u + more))])

/-- Count a transient of a unit (R442): HOOP_ERR, an event, a record, and quarantine at the third within 3,600 s of the
earlier of the two recorded. -/
def State.transient (s : State) (u : UnitId) (st : Status) (kvs : List (Nat × CborVal)) : State :=
  let now := s.evr.hours.toNat
  let ts := (s.unit u).transients
  let third := match ts with
    | [_, e] => decide (now - e ≤ 3600)
    | _ => false
  let s := (s.modUnit u fun x => { x with transients := (now :: x.transients).take 2 }).hoopErr 7
  let s := s.event .transient (words [unitCode u, st.code])
  let s := s.fsr 0 (kvs ++ [(15, .uint (s.transientCount u + boolNat third))])
  if third then s.quarantine u st kvs 1 else s

/-- The record keys of the fault that a replay answers: of the failed command, its last step, as it was detected (R467). -/
def State.fsrReplay (s : State) (r : Replay) : List (Nat × CborVal) :=
  s.fsrCommand r.struck r.status (r.steps.getLast?.map fun c => { ctx := r.ctx, frame := r.frame, hdr := c.hdr }) r.det r.loc

/-! ### Detection of a compute-domain cause (R453, R469) -/

/-- A cause that takes the compute domain through reset is detected (R453 to R455); under R436 and R461 the domain stays in
reset until cold boot, whatever else is detected. HOOP_OUT.CAUSE is the cause's bit of HOOP_ERR, where it has one (R433): Hoop
captures RST_CAUSE for the first one and marks later ones SECONDARY until the reset is asserted; one detected after its release
starts a new reset; ERR_OUT_N asserts. -/
def State.detectReset (s : State) (source : Nat) (st : Option Status) (u : Option UnitId) (detail : Nat) : State :=
  if s.serviceStatus.isSome then s
  else if s.hoop.inReset && !s.hoop.recovering then
    { s with hoop := { s.hoop with rstCause := s.hoop.rstCause ||| (1#32 <<< (24 + source)) } }
  else
    let code := match st with
      | some x => x.code
      | none => 0
    let unit := match u with
      | some x => unitCode x
      | none => 0xFF
    let w := source % 8 * 2 ^ 21 + code * 2 ^ 13 + unit * 2 ^ 5 + detail % 32
    let s := { s with hoop := { s.hoop with inReset := true, recovering := false, enterSent := false, rstCause := BitVec.ofNat 32 w } }
    (s.hoopErr 6).assertErr (if source = 0 then detail else if source = 1 then 1 else 6) false

end Sys2Proof.Machine
end

