-- ==== Sys2Proof/Machine/Commands.lean ====
section
/-! DEFINITION. The life of a command on a unit, shared by cores, engines and movers: checkpoints and limits (R342), the
switch to the fall-back graph (R343), frames that end aborted (R373), and what a command's end does by its status (R104,
R150, R437 to R445). -/

namespace Sys2Proof.Machine

/-! ### Graphs of a context -/

/-- The command at a position of a primary or fall-back queue. -/
def Ctx.cmdAt (x : Ctx) (fallback : Bool) (q pos : Nat) : Option Cmd :=
  match x.img with
  | none => none
  | some g =>
    if fallback then
      match g.fallback with
      | some fb => (fb.queues.getD q [])[pos]?
      | none => none
    else (g.queues.getD q [])[pos]?

/-- Every command of the primary (or the fall-back) graph. -/
def Ctx.cmds (x : Ctx) (fallback : Bool) : List Cmd :=
  match x.img with
  | none => []
  | some g =>
    if fallback then
      match g.fallback with
      | some fb => fb.queues.flatten
      | none => []
    else g.queues.flatten

/-- The refetch entry of a command index (R440); an index the table does not list is NONE. -/
def Ctx.refetch (x : Ctx) (fallback : Bool) (index : Nat) : Option (List Nat) :=
  match x.img with
  | none => none
  | some g =>
    let t := if fallback then (match g.fallback with | some fb => fb.refetch | none => []) else g.refetch
    match t.find? (·.index == index) with
    | some e => e.list
    | none => none

/-- Has the context a deadline monitor that is on (R342, R346, R347). -/
def Ctx.monitor (x : Ctx) : Bool := x.cls == 0 && !bitAt (BitVec.ofNat 8 x.flags) 2

/-- Can a frame of the context switch to a fall-back graph by the monitor or a fault (R346, R347, R439). -/
def Ctx.canSwitch (x : Ctx) : Bool := x.monitor && x.fbId != 0#32

/-- The limit of a checkpoint (R342), in ns of the device time base. -/
def Ctx.limit (x : Ctx) (rem : Nat) : Int := (x.origin.toNat : Int) + 1000 * x.deadlineUs.toNat - rem

/-- The lowest-numbered checkpoint not yet reached, with its REM. -/
def Ctx.nextCheckpoint (x : Ctx) (f : FrameRun) : Option (Nat × Nat) :=
  match x.img with
  | none => none
  | some g => (g.checkpoints.filter fun k => !f.reached.contains k.1).foldl
      (fun m k => match m with
        | none => some k
        | some j => if k.1 < j.1 then some k else some j) none

/-- Is an abort of the current frame waiting, so that nothing of the frame is placed (R373). -/
def Ctx.aborting (x : Ctx) : Bool := x.waitPkt.any fun w => w.isAbort && w.frame == x.frame.toNat

/-- Was the current frame running at a Function Level Reset: its reply is not written (R359). -/
def Ctx.hushed (x : Ctx) : Bool := x.waitPkt.any fun w => w.silent && !w.isAbort && w.frame == x.frame.toNat

/-- The highest k such that checkpoints 1 to k are reached (R324, CKPT_LAST). -/
def ckptLast (reached : List Nat) : Nat → Nat → Nat
  | 0, k => k
  | n + 1, k => if reached.contains (k + 1) then ckptLast reached n (k + 1) else k

/-! ### Switching and aborting a frame -/

/-- The waiting replays of primary commands of a context, once its frame has switched: none is placed, and a unit fault counts as
a transient (R439). -/
def State.dropPrimaryReplays (s : State) (c : Nat) : State :=
  let mine := fun (r : Replay) => r.ctx == c && !r.placed && !r.fallback
  let rs := s.disp.replays.filter mine
  let s := { s with disp := { s.disp with replays := s.disp.replays.filter fun r => !mine r } }
  rs.foldl (fun s r => if r.counts then s.transient r.struck r.status (s.fsrReplay r) else s) s

/-- Switch the current frame of a context to the fall-back graph from entry `k` (R343): PATH, the start of every
fall-back queue, the FALLBACK event, and the end of waiting replays. A context without a fall-back graph is never switched
(R346). -/
def State.switchFrame (s : State) (c k : Nat) : State :=
  let x := s.ctx c
  match x.run with
  | none => s
  | some f =>
    if f.switched || x.fbId == 0#32 then s
    else
      let entry := match x.img with
        | some g => (match g.fallback with | some fb => fb.entries.getD k [] | none => [])
        | none => []
      let s := s.setCtx c { x with
        path := 1 + k
        run := some { f with switched := true, fallback := true, fbHeads := entry } }
      (s.event .fallback (words [c, x.frame.toNat, k])).dropPrimaryReplays c

/-- The frame ends aborted: no further command of it is placed, and no output or record is written (R373). -/
def State.abortFrame (s : State) (c : Nat) : State := s.modFrame c fun f => { f with aborted := true }

/-- An unresolved fault of a frame (R439): HOOP_ERR.UNRESOLVED, RIM_FLAGGED. -/
def State.flagUnresolved (s : State) (c : Nat) : State :=
  (s.hoopErr 13).modFrame c fun f => { f with rimFlagged := true }

/-- What an unresolved fault of a command leads to (R439): the frame switches when it can, or ends aborted in a
best-effort context; else, where `reset` holds, the compute domain goes through reset, and otherwise the frame ends
aborted. -/
def State.unresolved (s : State) (u : UnitId) (c : Nat) (fallback reset : Bool) (st : Status) : State :=
  let x := s.ctx c
  let s := s.flagUnresolved c
  if !fallback && x.canSwitch then s.switchFrame c x.ckptLast
  else if x.cls = 1 then s.abortFrame c
  else if reset then s.detectReset 3 (some st) (some u) 0
  else s.abortFrame c

/-- A configuration fault (R441): the frame switches when it can and else ends aborted; at its end the context enters
STOPPED. -/
def State.configFault (s : State) (c : Nat) (fallback : Bool) : State :=
  let x := s.ctx c
  let s := (s.flagUnresolved c).modFrame c fun f => { f with configFault := true }
  if !fallback && x.canSwitch then s.switchFrame c x.ckptLast else s.abortFrame c

/-- A checkpoint is reached (R342); a SCRIPTED frame with a fall-back path switches once checkpoints 1 to k are (R347). -/
def State.reachCheckpoint (s : State) (c k : Nat) : State :=
  if k = 0 then s else
  let s := s.modCtx c fun x => match x.run with
    | none => x
    | some f =>
      let reached := if f.reached.contains k then f.reached else f.reached ++ [k]
      { x with run := some { f with reached := reached }, ckptLast := ckptLast reached 255 0 }
  let x := s.ctx c
  match x.run with
  | some f =>
    match f.req with
    | some q => if q.path > 0 ∧ !f.switched ∧ x.ckptLast ≥ q.path - 1 then s.switchFrame c (q.path - 1) else s
    | none => s
  | none => s

/-! ### Output lines (R26, R27) -/

/-- The output tensors that the current frame of a context delivers: its graph's, or after a switch its fall-back graph's. -/
def Ctx.outputs (x : Ctx) : List OutTensor :=
  match x.img with
  | none => []
  | some g => if x.run.any (·.switched) then (match g.fallback with | some fb => fb.outputs | none => []) else g.outputs

/-- The output tensors that the primary and the fall-back graph declare. -/
def Ctx.allOutputs (x : Ctx) : List OutTensor :=
  match x.img with
  | none => []
  | some g => g.outputs ++ (match g.fallback with | some fb => fb.outputs | none => [])

/-- The target of line `i` of an output tensor. -/
def State.outputTarget (s : State) (x : Ctx) (o : OutTensor) (i : Nat) : Option Target :=
  s.translate x.windows.toList (o.addr + 256 * i) true

/-- Is a target a line of an output tensor that a graph of the context declares. -/
def State.isOutput (s : State) (c : Nat) (t : Target) : Bool :=
  let x := s.ctx c
  x.allOutputs.any fun o => (List.range o.lines).any fun i => s.outputTarget x o i == some t

/-- The place of a target among the lines that a frame has written: lines of the device, then of the host. -/
def outKey : Target → Option Nat
  | .device k => some k
  | .host a => some (2 ^ 48 + a / 256)
  | .peer _ _ => none

/-- The time `back` ACLK cycles ago, in the layout of DONE_TIME (R26): a TCLK tick has 5.5 ACLK cycles (R485). -/
def State.wordBack (s : State) (back : Nat) : BitVec 96 :=
  let t := stampOf (s.stampQ 0 - 2 * back * (if s.tu.halved then 2 * s.tu.inc else s.tu.inc) / 11)
  timeWord t.sec t.ns

/-- The frame of a context has written an output line with a tag, `back` ACLK cycles ago (R26, R27). -/
def State.noteOutput (s : State) (c : Nat) (t : Target) (tag : Word) (back : Nat) : State :=
  match outKey t with
  | some k =>
    if s.isOutput c t then
      let note : OutNote := { tag := tag, halves := 11 * s.tu.ticks - 2 * back, time := s.wordBack back }
      s.modFrame c fun f => { f with outTags := sparsePut none f.outTags k (some note) }
    else s
  | none => s

/-- A line that a command posted to host memory leaves the chip. -/
def State.sendPost (s : State) (c : Nat) (h : HostLine) (back : Nat) : State :=
  (s.emit (.hostWrite h.addr (toBytes h.data 256))).noteOutput c (.host h.addr) h.tag back

/-- A counter between its values `a` before and `b` after a command, by a free number (R208, R233). -/
def statBetween (a b : Word) (x : Nat) : Word := BitVec.ofNat 32 (a.toNat + x % (b.toNat - a.toNat + 1))

/-- The counters of a unit whose command stops before its end have counted some of its events: how many is free (R204, R233,
log 18). PLT_QSTAT holds two counts. -/
def State.cutStat (s : State) (u : UnitId) : State :=
  match (s.unit u).run.bind (·.fin) with
  | some e =>
    match e.statOld with
    | some a =>
      let x := s.drawLine
      x.2.modRegs u fun r => { r with stat := match u with
        | .plt _ =>
          let part := fun (o : Nat) (v : Word) => (v.extractLsb' o 16).setWidth 32
          statBetween (part 16 a) (part 16 r.stat) (fieldNat x.1 1024 1024) <<< 16 |||
            statBetween (part 0 a) (part 0 r.stat) (fieldNat x.1 0 1024)
        | _ => statBetween a r.stat x.1.toNat }
    | none => s
  | none => s

/-- The unit stops in ACLK cycle `cycle` of its command, none where that cycle is not known: a write that has begun completes,
and lines whose write would begin later are not written or sent (R150, R151, R207, R321). Where the rules fix no cycle for a
line, the lines before a free one are written: a command writes in order (R208, R298, log 60). A DRAM line whose group's tag
line is not written back by then keeps the old tag (R318). -/
def State.cutWrites (s : State) (u : UnitId) (cycle : Option Nat) : State :=
  let s := s.cutStat u
  let x := s.drawLine
  let y := x.2.unit u
  let n := x.1.toNat / 2 % ((y.undo.map (·.index) ++ y.posts.map (·.index)).foldl max 0 + 2)
  let late := fun (c : Option Nat) (i : Nat) => match cycle, c with
    | some a, some b => decide (a < b)
    | _, _ => decide (n ≤ i)
  let tagged := fun (w : Undo) => y.undo.any fun e =>
    e.key / 64 == w.key / 64 && decide (w.index ≤ e.index) && !late e.cycle e.index && (match cycle, e.tagLine with
      | some a, some (some b) => decide (b ≤ a)
      | _, some _ => decide (e.index + 1 < n) || bitAt x.1 0
      | _, none => false)
  let s := (x.2.unwrite u fun w => late w.cycle w.index).modUnit u fun y =>
    { y with posts := y.posts.filter fun h => !late h.cycle h.index }
  match u with
  | .mv _ => s.staleTags u fun w => !tagged w
  | _ => s

/-- The lines that a unit's command has written are final: posts leave, and output lines of the frame are noted with the time of
their write (R26, R371). A COPY that ends well ends 8 ACLK cycles after its last write (R317); where no rule fixes the cycle of a
line, how long before the end the last write fell is free (log 67). -/
def State.settleWrites (s : State) (u : UnitId) (p : Placed) (used : Nat) (ok : Bool) : State :=
  let x := s.unit u
  let s := s.modUnit u fun y => { y with undo := [], posts := [] }
  let isCopy := match u with
    | .mv _ => bytesNat p.hdr 12 1 == 1
    | _ => false
  let open_ := if isCopy && ok then 8 else (Config.freeCycle s.freeCtr).toNat % (used + 1)
  let back := fun (c : Option Nat) => match c with
    | some c => used - c
    | none => open_
  let s := { s with freeCtr := s.freeCtr + 1 }
  let s := x.posts.foldl (fun s h => s.sendPost p.ctx h (back h.cycle)) s
  x.undo.foldl (fun s w => s.noteOutput p.ctx (.device w.key) (s.tag w.key) (back w.cycle)) s

/-! ### The end of a command -/

/-- How a command ended (R150, R202, R207, R316). -/
structure EndInfo where
  status : Status
  used : Nat
  det : Nat
  sticky : Word
  /-- adds recorded by TIE instructions (R123) -/
  ties : List (Nat × Nat)
  /-- the count is a bound only (R316) -/
  bounded : Bool
  /-- a hang timer ended it (R449) -/
  hang : Bool := false
  /-- the fault's address is in the unit's registers (R323) -/
  located : Bool := false
deriving DecidableEq, Repr

/-- Is a command a graph's own, on its first run or in a replay. -/
def fromGraph : Origin → Bool
  | .queue .. => true
  | .replay .. => true
  | _ => false

/-- The core whose fence a mover's command met, by MV_FAULT_ADDR (R323, R452). -/
def State.fenceMet (s : State) (u : UnitId) (st : Status) : Option (Fin 16) :=
  if st = .fenced then some (Fin.ofNat 16 ((s.unit u).regs.faultAddr.toNat / 65536)) else none

/-- A replay of a faulted command: the steps in order, the failed command last (R437, R440). -/
def mkReplay (p : Placed) (fb : Bool) (q pos : Nat) (u : UnitId) (st : Status) (steps : List Cmd) (counts : Bool) (det : Nat)
    (loc : List Byte) (met : Option (Fin 16)) : Replay :=
  { ctx := p.ctx, frame := p.frame, fallback := fb, q := q, pos := pos, struck := u, status := st, steps := steps,
    placed := false, counts := counts, det := det, loc := loc, waitFence := met,
    sent := p.sendBegun }

/-- Does a replay of `cycles` declared cycles pass the limit of the lowest-numbered checkpoint not yet reached (R439). -/
def State.replayTooLate (s : State) (c cycles : Nat) : Bool :=
  let x := s.ctx c
  match x.run with
  | none => false
  | some f =>
    x.monitor && f.originKnown &&
    (match x.nextCheckpoint f with
     | some (_, rem) => decide (x.limit rem < ((s.nowNs + aclkNs cycles : Nat) : Int))
     | none => false)

/-- Is a fault a unit fault that counts (R442, R443). -/
def countsAs (st : Status) (bounded : Bool) : Bool :=
  match st with
  | .rimFault => true
  | .internal => true
  | .creelConflict => true
  | .cycleFault => !bounded
  | _ => false

/-- A fault of a command on its first run (R437 to R443, R452). While an abort of the frame waits nothing is replayed, the frame
ends aborted (R373), and a hang counts as a transient (R450). A unit whose fault counts and whose replay comes too late is
quarantined (R443). A primary command whose frame has switched is not replayed, and its
unit fault counts as a transient (R439). A TAG_FAULT that no sequence answers takes the compute domain through reset (R440, R443,
log 82). A FENCED command is replayed whenever the fence lifts (R452). -/
def State.firstFault (s : State) (u : UnitId) (p : Placed) (fb : Bool) (q pos : Nat) (e : EndInfo) : State :=
  let x := s.ctx p.ctx
  let self : Cmd := { hdr := p.hdr, prog := p.prog }
  let loc := s.faultLoc u e.status e.located
  let kvs := s.fsrCommand u e.status (some p.ref) e.det loc
  let counts := countsAs e.status e.bounded
  let switched := match x.run with
    | some f => f.switched
    | none => false
  let gone := match x.run with
    | some f => f.aborted
    | none => false
  let resets := !(e.status = .peerLost || e.status = .linkDigest || e.status = .cycleFault && e.bounded)
  if x.aborting || gone then (if e.hang then s.transient u e.status kvs else s).abortFrame p.ctx
  else if e.status.isReject then s.configFault p.ctx fb
  else if switched && !fb then (if counts then s.transient u e.status kvs else s)
  else if e.status = .peerLost then s.unresolved u p.ctx fb false e.status
  else
    let steps : Option (List Cmd) :=
      if e.status = .tagFault then
        match x.refetch fb (hdrIndex p.hdr) with
        | none => none
        | some l => some (l.filterMap (fun i => (x.cmds fb).find? fun c => hdrIndex c.hdr == i) ++ [self])
      else some [self]
    match steps with
    | none => s.detectReset 3 (some e.status) (some u) 0
    | some steps =>
      if e.status ≠ .fenced ∧ s.replayTooLate p.ctx (steps.foldl (fun n c => n + hdrDecl c.hdr) 0) then
        if e.status = .windowFault then s.configFault p.ctx fb
        else if e.status = .tagFault then (s.flagUnresolved p.ctx).detectReset 3 (some e.status) (some u) 0
        else (if counts then s.quarantine u e.status kvs else s).unresolved u p.ctx fb resets e.status
      else
        { s with disp := { s.disp with
            replays := s.disp.replays ++ [mkReplay p fb q pos u e.status steps counts e.det loc
              (s.fenceMet u e.status)] } }

/-- The replay that a command on a unit belongs to. -/
def State.replayOf (s : State) (p : Placed) : Option Replay :=
  s.disp.replays.find? fun r => r.placed && r.ctx == p.ctx && r.frame == p.frame &&
    (match r.steps with | c :: _ => c.hdr == p.hdr | [] => false)

/-- Drop a replay. -/
def State.dropReplay (s : State) (r : Replay) : State :=
  { s with disp := { s.disp with replays := s.disp.replays.filter (· != r) } }

/-- A step of a replay has ended (R437 to R443); where it fails, the unit on which a counted fault first struck is quarantined.
One that ends FENCED is run again once the fence lifts (R452). No further step of a primary sequence is placed after a switch,
and none of an aborted frame (R373, R439). -/
def State.replayEnd (s : State) (u : UnitId) (p : Placed) (struck : UnitId) (r : Replay) (e : EndInfo) : State :=
  let kvs := s.fsrReplay r
  let switched := (s.ctx p.ctx).run.any (·.switched) && !r.fallback
  if e.status.ok then
    match r.steps with
    | [_] =>
      let s := s.dropReplay r
      if r.counts then s.transient struck r.status kvs else s
    | _ :: rest =>
      if switched then s.dropReplay r else
      { s with disp := { s.disp with
          replays := s.disp.replays.map fun y => if y = r then { r with steps := rest, placed := false } else y } }
    | [] => s.dropReplay r
  else if e.status = .aborted then s.dropReplay r
  else if e.status = .fenced ∧ !switched then
    { s with disp := { s.disp with
        replays := s.disp.replays.map fun y => if y = r then { r with placed := false, waitFence := s.fenceMet u e.status } else y } }
  else
    let s := s.dropReplay r
    let s := if r.counts then s.quarantine struck r.status kvs else s
    if (s.ctx p.ctx).aborting then
      (if e.hang then s.transient u e.status (s.fsrCommand u e.status (some p.ref) e.det (s.faultLoc u e.status e.located)) else s).abortFrame p.ctx
    else if switched then s
    else if r.status = .tagFault then
      (s.flagUnresolved p.ctx).detectReset (if e.status = .tagFault then 4 else 3) (some e.status) (some u) 0
    else if r.status = .done then s
    else if r.status = .windowFault ∨ e.status.isReject then s.configFault p.ctx r.fallback
    else if r.status = .linkDigest ∨ e.status = .peerLost then s.unresolved u p.ctx r.fallback false e.status
    else s.unresolved u p.ctx r.fallback (r.counts || r.status = .fenced) e.status

/-- A command on a unit ends (R104, R150, R151, R202, R207, R350): the unit's registers, then the unit is free; on DONE or
DONE_ABORT_LATE the ties, the checkpoint, the live set; on a fault the reaction of R439 to R443. -/
def State.endCommand (s : State) (u : UnitId) (e : EndInfo) : State :=
  match (s.unit u).run with
  | none => s
  | some p =>
    let unver := (s.unit u).regs.unverified
    let s := s.settleWrites u p e.used e.status.ok
    let s := s.modUnit u fun x => { x with run := none, regs := endRegs e.status e.used e.det e.sticky x.regs }
    let s := if unver then s.modFrame p.ctx fun f => { f with unverified := true } else s
    let refetched := match p.origin with
      | .replay _ r => r
      | _ => false
    let fb := match p.origin with
      | .queue fb _ _ => fb
      | .replay .. => (match s.replayOf p with | some r => r.fallback | none => false)
      | _ => false
    let s :=
      if e.status.ok && !refetched then
        let s := s.tieAdds (hdrSignals p.hdr ++ e.ties)
        if fb then s else s.reachCheckpoint p.ctx (hdrCkpt p.hdr)
      else s
    let s := match u, fromGraph p.origin with
      | .tc n, true => s.modCtx p.ctx fun x =>
          { x with live := x.live.filter (·.1 != n.val) ++ [(n.val, hdrLive p.hdr)] }
      | _, _ => s
    let s := if e.status = .aborted && fromGraph p.origin then s.abortFrame p.ctx else s
    match p.origin with
    | .queue fb q pos => if e.status.isFault then s.firstFault u p fb q pos e else s
    | .replay struck _ =>
      match s.replayOf p with
      | some r => s.replayEnd u p struck r e
      | none => s
    | .prelude i =>
      if e.status.ok then s.modCtx p.ctx fun x => { x with prelude := i - 1 }
      else s.detectReset 6 (some e.status) (some u) 0
    | .tally => s

end Sys2Proof.Machine
end

