-- ==== Sys2Proof/Machine/Engines.lean ====
section
/-! DEFINITION. What Plait, Twining, Coil, Waling and the movers share while a command runs: the running command, its
early end, reads with tag checks, and its count (R202, R203, R207, R209, R210). -/

namespace Sys2Proof.Machine

/-- The command that a unit runs and whose work has not ended. -/
def State.working (s : State) (u : UnitId) : Option Placed :=
  match (s.unit u).run with
  | some p => if p.stage = .running && p.fin.isNone && p.origin != .tally then some p else none
  | none => none

/-- Can a Plait command's named mover issue requests: a fenced one issues none (R201, R404, R451). -/
def State.namedMover (s : State) (h : Header) : Bool :=
  if x : bytesNat h 13 1 < 8 then (s.unit (.mv ⟨bytesNat h 13 1, x⟩)).fence == .open_ else true

/-- The work of a unit's command has ended: the end is reported by COMMAND_END or DECL_CYCLES_EXPIRY. -/
def State.finish (s : State) (u : UnitId) (e : RunEnd) : State := s.modRun u fun p => { p with fin := some e }

/-- An end without fault after `used` ACLK cycles. -/
def doneEnd (used : Nat) : RunEnd :=
  { status := .done, used := used, det := 0, sticky := 0#32, faultAddr := none, stat := 0#32, ahi := 0#32, bound := none }

/-- An end with a fault detected in cycle `det`. -/
def faultEnd (st : Status) (det : Nat) (sticky : Word) (addr : Option Word) : RunEnd :=
  { status := st, used := det + 1, det := det, sticky := sticky, faultAddr := addr, stat := 0#32, ahi := 0#32,
    bound := none }

/-- An end with a fault of a command that would take `span` cycles: the cycle of detection is free, before `span` (log 18). Where
it lies behind the declared count, the count ends the command first (R150). -/
def State.faultFin (s : State) (u : UnitId) (span : Nat) (st : Status) (sticky : Word) (addr : Option Word) : State :=
  ({ s with freeCtr := s.freeCtr + 1 }).finish u
    (faultEnd st ((Config.freeCycle s.freeCtr).toNat % max 1 span) sticky addr)

/-- An end before any side effect (R206, R527): a check has failed. -/
def State.rejectFin (s : State) (u : UnitId) (st : Status) : State := s.finish u (faultEnd st 0 0#32 none)

/-- Does a parity error in an internal store strike (R208, R427). -/
def storeUpset (ups : List Upset) : Bool := ups.any fun u => match u with
  | .store => true
  | _ => false

/-- STORE_PARITY, TAG_MISMATCH and CYCLE_MISMATCH of ENG_STATUS (R233). -/
def engStore : Word := 0x40#32
@[inherit_doc engStore] def engTag : Word := 0x10#32
@[inherit_doc engStore] def engCycle : Word := 0x80#32

/-- Cycles that disturbances add to a command's count (R150). -/
def extraOf (ups : List Upset) : Nat :=
  ups.foldl (fun n u => match u with
    | .extraCycles k => n + k
    | _ => n) 0

/-- Add to ENG_STAT, which stops at its maximum (R233). -/
def statAdd (w : Word) (n : Nat) : Word := BitVec.ofNat 32 (min 0xFFFFFFFF (w.toNat + n))

/-- The engine's counter where a fault stops a command that would have counted up to `n` events: how many of them it has counted
by the cycle of detection is free (R208, R233, log 18). -/
def State.statSome (s : State) (u : UnitId) (n : Nat) : State :=
  ({ s with freeCtr := s.freeCtr + 1 }).modRegs u fun x =>
    { x with stat := statAdd x.stat ((Config.freeCycle s.freeCtr).toNat % (n + 1)) }

/-- The unit's counter stood at `old` before the command. -/
def State.statFrom (s : State) (u : UnitId) (old : Word) : State :=
  s.modRun u fun p => { p with fin := p.fin.map fun e => { e with statOld := some old } }

/-- A parity error of an engine ends its command INTERNAL (R208, R427). How many of the lines that it would have written, and of
the events that it would have counted from `old` on, come before the error is free (R233, log 18, log 60). -/
def State.engParity (s : State) (u : UnitId) (old : Word) (span : Nat) : State :=
  let s := s.cutWrites u none
  let x := (Config.freeCycle s.freeCtr).toNat
  ((({ s with freeCtr := s.freeCtr + 1 }).modRegs u fun r => { r with stat := statBetween old r.stat x }).faultFin u span
    .internal engStore none).statFrom u old

/-- A tag fault of an engine at a hamper line (R208, R233). Where a parity error strikes the command too, which of the two is
detected first is free (log 18). -/
def State.engTagFault (s : State) (u : UnitId) (old : Word) (span k : Nat) (ups : List Upset) : State :=
  let t := { s with freeCtr := s.freeCtr + 1 }
  if storeUpset ups ∧ bitAt (Config.freeCycle s.freeCtr) 0 then t.engParity u old span
  else (t.faultFin u span .tagFault engTag (some (BitVec.ofNat 32 (k % 2 ^ 20)))).statFrom u old

/-- The end of an engine's work without a fault: it has written its lines, counts `n` events and takes `used` cycles. -/
def State.engDone (s : State) (u : UnitId) (n used : Nat) (ups : List Upset) : State :=
  let old := (s.unit u).regs.stat
  let s := s.modRegs u fun x => { x with stat := statAdd x.stat n }
  if storeUpset ups then s.engParity u old used else s.finish u { doneEnd used with statOld := some old }

/-- The first line with a bad tag in a list of store keys. -/
def State.firstBadOf (s : State) (ks : List Nat) : Option Nat := ks.find? fun k => !s.tagOk k

/-- Keys of `n` hamper lines from line `l`. -/
def hamKeys (l n : Nat) : List Nat := (List.range n).map fun i => hamKey (l + i)

/-- Do `n` lines from hamper line `l` exist (R292): line indices of the hamper do not wrap (R148). -/
def hamFits (l n : Nat) : Bool := decide (l + n ≤ hamperLines)

/-- Lines from hamper line `l` on, with their keys. -/
def hamLines (l : Nat) (ls : List Line) : List (Nat × Line) := ls.zipIdx.map fun x => (hamKey (l + x.2), x.1)

/-- FP16, BF16 or FP32 element of a hamper byte string as a value. -/
def srcValue (fmt : Nat) (bs : Array Byte) (i : Nat) : Fp :=
  let b := fun k => (bs.getD k 0#8).toNat
  if fmt = 0 then fpDecode .fp16 (b (2 * i) + 256 * b (2 * i + 1))
  else if fmt = 1 then fpDecode .bf16 (b (2 * i) + 256 * b (2 * i + 1))
  else fpDecode .fp32 (b (4 * i) + 256 * b (4 * i + 1) + 65536 * b (4 * i + 2) + 16777216 * b (4 * i + 3))

/-- The nearest integer to `x / d`, ties toward +∞, for `d` positive. -/
def ratioNearest (x d : Fp) : Int :=
  match x, d with
  | .fin a m e, .fin _ n f =>
    let e0 := min e f
    let num := alignInt a m e e0
    let den := alignInt false n f e0
    (2 * num + den) / (2 * den)
  | _, _ => 0

/-- Is an FP32 word positive, finite and normal (R177, R190). -/
def posNormal (w : Word) : Bool :=
  let e := fieldNat w 23 8
  !bitAt w 31 && e ≠ 0 && e ≠ 255

end Sys2Proof.Machine
end

