-- ==== Sys2Proof/Machine/Links.lean ====
section
/-! DEFINITION. The link layer of Jexolo: topology and routes (R386 to R388), flits out and in with acknowledges and
replays (R390 to R394), and how the loss of a link or a peer ends its halves (R400). -/

namespace Sys2Proof.Machine

/-! ### Routes -/

/-- The lowest bit in which two chips differ. -/
def lowestDiff (a b : Nat) : Nat := if (a ^^^ b) % 2 = 1 then 0 else if (a ^^^ b) / 2 % 2 = 1 then 1 else 2

/-- The next hop from chip `c` toward chip `d` (R387). -/
def nextHop (topo nm1 c d : Nat) : Option (Fin 6) :=
  match (List.finRange 6).find? fun l => (linkPeer topo nm1 c l.val).map (·.1) == some d with
  | some l => some l
  | none =>
    if topo = 0 then
      let n := nm1 + 1
      if (d + n - c % n) % n ≤ n / 2 then some 0 else some 1
    else if topo = 2 then
      (match lowestDiff c d with
       | 0 => some 2
       | 1 => some 3
       | _ => some 4)
    else none

/-- Hops of the route from chip `c` to chip 0 (R387, R407); fuel bounds the route. -/
def hopCount (topo nm1 : Nat) : Nat → Nat → Nat
  | 0, _ => 0
  | n + 1, c =>
    if c = 0 then 0
    else match nextHop topo nm1 c 0 with
      | some l => (match linkPeer topo nm1 c l.val with
        | some p => 1 + hopCount topo nm1 n p.1
        | none => 0)
      | none => 0

/-- The next hop of this chip toward chip `d` (R387). -/
def State.route (s : State) (d : Nat) : Option (Fin 6) :=
  if !s.fabric.en || d == s.self then none else nextHop s.fabric.topo s.fabric.nm1 s.self d

/-- Is a route to chip `d` ACTIVE: the link of its next hop is (R406, R464). -/
def State.routeActive (s : State) (d : Nat) : Bool :=
  match s.route d with
  | some l => (s.link l).active
  | none => false

/-! ### Flits -/

/-- Flit types (R391). -/
def tIdle : Byte := 0x00#8
@[inherit_doc tIdle] def tHead : Byte := 0x01#8
@[inherit_doc tIdle] def tData : Byte := 0x02#8
@[inherit_doc tIdle] def tTail : Byte := 0x03#8
@[inherit_doc tIdle] def tReady : Byte := 0x04#8
@[inherit_doc tIdle] def tRefuse : Byte := 0x05#8
@[inherit_doc tIdle] def tTie : Byte := 0x10#8
@[inherit_doc tIdle] def tMail : Byte := 0x11#8
@[inherit_doc tIdle] def tMack : Byte := 0x12#8
@[inherit_doc tIdle] def tFabric : Byte := 0x13#8
@[inherit_doc tIdle] def tBeacon : Byte := 0x20#8
@[inherit_doc tIdle] def tDelayReq : Byte := 0x21#8
@[inherit_doc tIdle] def tDelayResp : Byte := 0x22#8

/-- Is a type routed (R391). -/
def routedType (t : Byte) : Bool := t == tTie || t == tMail || t == tMack || t == tFabric

/-- Is a type defined (R391). -/
def definedType (t : Byte) : Bool :=
  t.toNat ≤ 5 || (0x10 ≤ t.toNat && t.toNat ≤ 0x13) || (0x20 ≤ t.toNat && t.toNat ≤ 0x22)

/-- A flit of this chip, before the link layer fills it in. -/
def mkFlit (typ : Byte) (src dst : Nat) (tagw : Word) (payload : List Byte) : Flit :=
  { typ := typ, ackv := false, nack := false, ackSeq := 0#16, fseq := 0#16, src := BitVec.ofNat 3 src,
    dst := BitVec.ofNat 3 dst, tagw := tagw, payload := BitVec.ofNat 1920 (natOfBytes (payload.take 240)) }

/-- Bytes 0 to 251 of a flit (R390). -/
def flitBody (f : Flit) : List Byte :=
  [f.typ, BitVec.ofNat 8 (boolNat f.ackv + 2 * boolNat f.nack)] ++ natToBytes 2 f.ackSeq.toNat ++ natToBytes 2 f.fseq.toNat ++
  [f.src.setWidth 8, f.dst.setWidth 8] ++ toBytes f.tagw 4 ++ toBytes f.payload 240

/-- A flit on the wire, its CRC changed by `x`: 0, or all ones for a stomped one (R390). -/
def flitWire (f : Flit) (x : Nat := 0) : BitVec 2048 :=
  BitVec.ofNat 2048 (natOfBytes (flitBody f ++ natToBytes 4 (crc32 (flitBody f) ^^^ x)))

/-- The fields of a flit on the wire (R390). -/
def flitOf (w : BitVec 2048) : Flit :=
  { typ := w.extractLsb' 0 8, ackv := bitAt w 8, nack := bitAt w 9, ackSeq := w.extractLsb' 16 16, fseq := w.extractLsb' 32 16,
    src := w.extractLsb' 48 3, dst := w.extractLsb' 56 3, tagw := w.extractLsb' 64 32, payload := w.extractLsb' 96 1920 }

/-- The CRC field of a flit on the wire, compared with the CRC of its other bytes: 0 when it is good (R390). -/
def flitSyndrome (w : BitVec 2048) : Nat := crc32 ((toBytes w 256).take 252) ^^^ fieldNat w 2016 32

/-- A flit's acknowledge fields (R390, R392). -/
def LinkState.stampAck (x : LinkState) (nack : Bool) (f : Flit) : Flit :=
  { f with ackv := x.accepted || nack, nack := nack, ackSeq := x.rxNext - 1#16 }

/-- Send an IDLE flit with the latest acknowledge (R391, R392). -/
def State.sendIdle (s : State) (l : Fin 6) (nack : Bool) : State :=
  let peer := ((s.peerOf l.val).map (·.1)).getD s.self
  s.emit (.flit l.val (flitWire ((s.link l).stampAck nack (mkFlit tIdle s.self peer 0#32 []))))

/-- Rank of a message among those that wait for a free slot (R393). -/
def flitRank (self : Nat) (f : Flit) : Nat :=
  if routedType f.typ ∧ f.src.toNat ≠ self then 0
  else if f.typ = tFabric then 1
  else if f.typ = tReady ∨ f.typ = tRefuse then 2
  else if f.typ = tTie then 3
  else if f.typ = tMack then 4
  else if f.typ = tMail then 5
  else if f.typ = tDelayResp then 6
  else if f.typ = tBeacon then 7
  else if f.typ = tDelayReq then 8
  else 9

/-- Put a flit into the queue of a link by its rank, after those of the same rank. -/
def insertFlit (self : Nat) (f : Flit) : List Flit → List Flit
  | [] => [f]
  | g :: gs => if flitRank self f < flitRank self g then f :: g :: gs else g :: insertFlit self f gs

/-- e(j) of R402: FCLK cycles that `j` slots span. -/
def slotSpan (j : Nat) : Nat := 143 * (j / 16) + 143 * (j % 16) / 16

/-- DATA flits D of a transfer of `nl` lines (R396). -/
def dataFlits (nl : Nat) : Nat := ceilDiv (16 * nl) 15

/-- Slot span P of a transfer of `nl` lines (R397). -/
def slotsOf (nl : Nat) : Nat := dataFlits nl + 2 + (dataFlits nl + 1) / 127

/-- ACLK cycles that a command with halves counts (R402 to R404): SEND, RECV and ROTATE. -/
def halfCount (u : UnitId) (h : Header) : Nat :=
  match u with
  | .mv _ => if bytesNat h 12 1 = 2 then 2 * slotSpan (slotsOf (bytesNat h 36 4))
      else 2 * (slotSpan (slotsOf (bytesNat h 36 4)) + 160)
  | _ => 2 * (16 + slotSpan (slotsOf (bytesNat h 32 4)) + 160)

/-- The link on which a command sends (R403, R404). -/
def sendLink (u : UnitId) (h : Header) : Option Nat :=
  match u with
  | .mv _ => if bytesNat h 12 1 = 2 then some (bytesNat h 13 1) else none
  | .plt _ => if bytesNat h 12 1 = 4 then some (bytesNat h 17 1) else none
  | _ => none

/-- The link on which a command receives (R403, R404). -/
def recvLink (u : UnitId) (h : Header) : Option Nat :=
  match u with
  | .mv _ => if bytesNat h 12 1 = 3 then some (bytesNat h 13 1) else none
  | .plt _ =>
    let a := bytesNat h 17 1
    if bytesNat h 12 1 = 4 then some (if a ≤ 1 then 1 - a else a) else none
  | _ => none

/-- Is a command a SEND that reads DRAM in open-page mode, whose count is a bound only (R309, R316). -/
def State.openSend (s : State) (u : UnitId) (p : Placed) : Bool :=
  match u with
  | .mv _ => bytesNat p.hdr 12 1 == 2 && !s.dram.det &&
      (List.range (bytesNat p.hdr 36 4)).any fun k =>
        match s.translate p.windows (bytesNat p.hdr 20 8 + 256 * k) false with
        | some (.device l) => decide (l < 0x10000000)
        | _ => false
  | _ => false

/-- The end of a command whose count is checked as a bound only: the count is free, up to twice the declared one (R316, R402,
R491, log 18). -/
def State.finishBounded (s : State) (u : UnitId) (p : Placed) : State :=
  ({ s with freeCtr := s.freeCtr + 1 }).finish u
    { doneEnd ((Config.freeCycle s.freeCtr).toNat % max 1 (2 * hdrDecl p.hdr) + 1 + extraOf p.ups) with
        bound := some (hdrDecl p.hdr) }

/-- A link-level replay or a slowed clock falls into the count of a link half or of a bounded mover command: it is checked as a
bound of twice its declared count, also where the work is done and the end not yet reported (R402, R491). -/
def State.loosen (s : State) (u : UnitId) : State :=
  match (s.unit u).run with
  | none => s
  | some p =>
    let s := s.modRun u fun p => { p with slowed := true }
    match p.fin with
    | some e =>
      if e.status = .done ∧ (e.bound.isSome ∨ (sendLink u p.hdr).isSome ∨ (recvLink u p.hdr).isSome) then s.finishBounded u p else s
    | none => s

/-- The same for a unit whose command is in its count by `sure`. A ROTATE whose receive half has had its TAIL counts for 160 FCLK
cycles more, and then waits uncounted for its send half: which of the two it does is not held, so that it is free (R402, R404,
log 118). -/
def State.loosenIf (s : State) (u : UnitId) (p : Placed) (sure : Bool) : State :=
  match u with
  | .plt _ =>
    if p.recvDone then
      let t := { s with freeCtr := s.freeCtr + 1 }
      if bitAt (Config.freeCycle s.freeCtr) 0 then t.loosen u else t
    else if sure then s.loosen u else s
  | _ => if sure then s.loosen u else s

/-- Report the end of a command whose halves have all ended (R402, R404): with a link-level replay or a slowed clock during its
count, or in open-page mode, the count is free up to the bound (log 18), otherwise it is exact. -/
def State.halvesDone (s : State) (u : UnitId) : State :=
  match s.working u with
  | none => s
  | some p =>
    let op := bytesNat p.hdr 12 1
    let ended := match u with
      | .mv _ => if op = 2 then p.sendDone else p.recvDone
      | _ => p.sendDone && p.recvDone
    if !ended then s
    else if p.slowed || s.openSend u p then s.finishBounded u p
    else s.finish u (doneEnd (halfCount u p.hdr + extraOf p.ups))

/-- XID of a command's halves: P3 of a ROTATE. -/
def halfXid (u : UnitId) (h : Header) : Word :=
  match u with
  | .plt _ => h.extractLsb' 288 32
  | _ => h.extractLsb' 832 32

/-- What a RETRY may name later of a send half that has ended DONE (R401): a graph's command, on its first run or in a replay. -/
def State.sentHalf (s : State) (u : UnitId) (p : Placed) : Option SentHalf :=
  let mk := fun (fb : Bool) (q pos : Nat) => (some
    { xid := halfXid u p.hdr, ctx := p.ctx, frame := p.frame, fallback := fb, q := q, pos := pos, unit := u,
      cmd := { hdr := p.hdr, prog := p.prog } } : Option SentHalf)
  match p.origin with
  | .queue fb q pos => mk fb q pos
  | .replay .. => match s.replayOf p with
    | some r => mk r.fallback r.q r.pos
    | none => none
  | _ => none

/-- Keep a send half that has ended DONE: a RETRY may name it (R401). -/
def LinkState.keepSent (x : LinkState) (e : SentHalf) : LinkState :=
  { x with sent := x.sent.filter (fun y => y.xid != e.xid) ++ [e] }

/-- A SEND that ends DONE, on its first run or in a replay, may be named by a RETRY (R401). -/
def State.noteSent (s : State) (u : UnitId) (p : Placed) : State :=
  match u, sendLink u p.hdr, s.sentHalf u p with
  | .mv _, some a, some e => if h : a < 6 then s.modLink ⟨a, h⟩ fun x => x.keepSent e else s
  | _, _, _ => s

/-- The send half of a unit has sent its last flit (R402, R404). -/
def State.sendEnded (s : State) (u : UnitId) : State := (s.modRun u fun p => { p with sendDone := true }).halvesDone u

/-- The TAIL of a transfer has left: the send half of a ROTATE has ended DONE, whatever its receive half does (R401), and the
command that owns the transfer goes on. -/
def State.tailLeft (s : State) (l : Fin 6) : State :=
  let x := s.link l
  let y := { x with txOwner := none, txHalf := none }
  let s := s.setLink l (match x.txHalf with
    | some e => y.keepSent e
    | none => y)
  match x.txOwner with
  | some u => s.sendEnded u
  | none => s

/-- The next flit of the running transfer takes the slot; after every 127 the next slot stays free of it (R397). -/
def LinkState.slotTransfer (x : LinkState) : Option (Flit × LinkState) :=
  match x.xq with
  | [] => none
  | f :: rest =>
    let n := x.xsent + 1
    some (f, { x with
      xq := rest
      xsent := if rest.isEmpty then 0 else n
      gap := !rest.isEmpty && n % 127 == 0 })

/-- The flit of the next slot and the link after it (R393, R397): before the HEAD of a transfer and in its free slots the first
message that waits, in its other slots the transfer's next flit. -/
def LinkState.slot (x : LinkState) : Option (Flit × LinkState) :=
  match x.txq with
  | [] => ({ x with gap := false }).slotTransfer
  | f :: rest =>
    if x.xq.isEmpty || x.xsent == 0 || x.gap then some (f, { x with txq := rest, gap := false }) else x.slotTransfer

/-- Replace 12 bytes of a flit's payload, from byte `o`, by a stamp. -/
def putStamp (f : Flit) (o : Nat) (t : Stamp) : Flit :=
  { f with payload := f.payload &&& ~~~((BitVec.allOnes 96).setWidth 1920 <<< (8 * o)) |||
      ((timeWord t.sec t.ns).setWidth 1920 <<< (8 * o)) }

/-- The stamp that a flit's payload holds from byte `o` on. -/
def stampAt (f : Flit) (o : Nat) : Stamp :=
  { sec := fieldNat f.payload (8 * o + 32) 48, ns := fieldNat f.payload (8 * o) 32, frac := 0 }

/-- The later of two stamps. -/
def Stamp.later (a b : Stamp) : Stamp := if a.q < b.q then b else a

/-- A flit leaves the transmit pins: BEACON, DELAY_REQ and DELAY_RESP take TXTIME, T1 and T3 now, each time they are sent (R407,
R408, R473). The phase within the tick is free (log 18), but a response leaves no earlier than T2, at which its request came. -/
def State.leave (s : State) (f : Flit) : Flit × State :=
  let t := s.stamp ((Config.freeCycle s.freeCtr).toNat % 80)
  let s' := { s with freeCtr := s.freeCtr + 1 }
  if f.typ = tBeacon then (putStamp f 0 t, s')
  else if f.typ = tDelayReq then (putStamp f 0 t, { s' with fabric := { s'.fabric with t1 := some t } })
  else if f.typ = tDelayResp then (putStamp f 24 (t.later (stampAt f 12)), s')
  else (f, s)

/-- Move waiting flits, slot by slot, into the 128-flit replay buffer and onto the link (R392, R393, R397). Fuel bounds the
flits. -/
def pump (l : Fin 6) : Nat → State → State
  | 0, s => s
  | n + 1, s =>
    let x := s.link l
    match x.slot with
    | none => s
    | some (f, y) =>
      if !x.active || x.out.length ≥ 128 then s
      else
        let h := s.leave f
        let g := { x.stampAck false h.1 with fseq := x.txNext }
        let s := (h.2.setLink l { y with out := x.out ++ [g], txNext := x.txNext + 1#16 }).emit (.flit l.val (flitWire g))
        pump l n (if f.typ = tTail then s.tailLeft l else s)

/-- Give a flit to a link; a link that is not ACTIVE sends nothing. -/
def State.sendFlit (s : State) (l : Fin 6) (f : Flit) : State :=
  if !(s.link l).active then s
  else pump l 256 (s.modLink l fun x => { x with txq := insertFlit s.self f x.txq })

/-- Give the flits of a transfer to a link that sends none, in order (R397). -/
def State.sendTransfer (s : State) (l : Fin 6) (u : UnitId) (fs : List Flit) : State :=
  if !(s.link l).active then s
  else pump l 256 (s.modLink l fun x => { x with xq := fs, xsent := 0, gap := false, txOwner := some u })

/-- Give a routed flit to the next hop toward its destination (R387). -/
def State.sendRouted (s : State) (f : Flit) : State :=
  match s.route f.dst.toNat with
  | some l => s.sendFlit l f
  | none => s

/-! ### Halves -/

/-- Does a header's command have a half on link `l` (R403, R404): MV operations 2 and 3, and ROTATE. -/
def usesLink (u : UnitId) (h : Header) (l : Nat) : Bool := sendLink u h == some l || recvLink u h == some l

/-- Has a command on link `l` a half that waits or runs: one that has ended needs its link no more (R400). -/
def openHalf (u : UnitId) (p : Placed) (l : Nat) : Bool :=
  (sendLink u p.hdr == some l && !p.sendDone) || (recvLink u p.hdr == some l && !p.recvDone)

/-- Does a unit run a command with a half on link `l` that has not ended. -/
def State.halfOn (s : State) (l : Nat) (u : UnitId) : Bool :=
  match s.working u with
  | some p => openHalf u p l
  | none => false

/-- Sticky bit of a half's fault: ROTATE_FAULT for Plait (R204), none for movers. -/
def halfSticky (u : UnitId) : Word := match u with
  | .plt _ => 0x100#32
  | _ => 0#32

/-- Sticky bits of a half's end with a status (R204, R323). -/
def halfStickyOf (u : UnitId) (st : Status) : Word :=
  match st, u with
  | .linkDigest, _ => halfSticky u
  | .peerLost, _ => halfSticky u
  | .tagFault, _ => 0x10#32
  | .windowFault, _ => 0x20#32
  | .internal, .mv _ => 0x40#32
  | _, _ => 0#32

/-- A half ends with a fault at line `k`, with its two address words; the cycle of detection is free (log 18). -/
def State.halfFault (s : State) (u : UnitId) (st : Status) (addr : Option (Word × Word)) (k : Nat) : State :=
  match (s.unit u).run with
  | none => s
  | some p =>
    let det := (Config.freeCycle s.freeCtr).toNat % max 1 (hdrDecl p.hdr)
    ({ s with freeCtr := s.freeCtr + 1 }).finish u
      { status := st, used := det + 1, det := det, sticky := halfStickyOf u st, faultAddr := addr.map fun a : Word × Word => a.1,
        stat := BitVec.ofNat 32 k, ahi := (addr.map fun a : Word × Word => a.2).getD 0#32, bound := none }

/-- Forget what a unit's receive half holds on the links; a send half that has begun goes on (R401, R404). -/
def State.clearRecv (s : State) (u : UnitId) : State :=
  (List.finRange 6).foldl (fun s l => s.modLink l fun x => { x with
    posted := x.posted.filter (·.unit != u)
    rx := match x.rx with
      | some r => (match r.post with
        | some p => if p.unit = u then some { r with post := none } else some r
        | none => some r)
      | none => none
    txOwner := if x.txOwner = some u then none else x.txOwner }) s

/-- Forget what a unit's halves hold on the links: its transfer stops. -/
def State.clearHalf (s : State) (u : UnitId) : State :=
  ((List.finRange 6).foldl (fun s l => s.modLink l fun x => if x.txOwner = some u then { x with
    txHalf := none
    xq := []
    xsent := 0
    gap := false } else x) s).clearRecv u

/-- A fence ends a receive half in the middle of its transfer: what still comes finds no transfer, and its TAIL is counted
(R451). -/
def State.dropRx (s : State) (u : UnitId) : State :=
  (List.finRange 6).foldl (fun s l => s.modLink l fun x => { x with
    rx := match x.rx with
      | some r => (match r.post with
        | some p => if p.unit = u then none else some r
        | none => some r)
      | none => none }) s

/-- Is a unit's receive half in the middle of its transfer. -/
def State.receives (s : State) (u : UnitId) : Bool :=
  (List.finRange 6).any fun l => match (s.link l).rx with
    | some r => r.post.any (·.unit == u)
    | none => false

/-- Does a command with a half count cycles now (R402, R404): a SEND from its HEAD to its last slot, a RECV and a ROTATE while the
receive half is in its transfer. -/
def State.halfCounts (s : State) (u : UnitId) (p : Placed) : Bool :=
  s.receives u || (match u with
    | .mv _ => p.sendBegun && !p.sendDone
    | _ => false)

/-- Does a unit's command wait for a READY or a HEAD, or a ROTATE for its send half: its hang timer pauses (R448). -/
def State.halfWaits (s : State) (u : UnitId) : Bool :=
  match s.working u with
  | none => false
  | some p => p.begun && !s.halfCounts u p

/-- The half of a unit ends PEER_LOST (R400). -/
def State.halfLost (s : State) (u : UnitId) : State := (s.clearHalf u).halfFault u .peerLost none 0

/-- Every half on a link ends PEER_LOST (R400). -/
def State.endHalves (s : State) (l : Nat) : State :=
  allUnits.foldl (fun s u => if s.halfOn l u then s.halfLost u else s) s

/-- A link-level replay on a link: a half that counts on it until its end is reported, of a ROTATE the receive half, is checked as
a bound from now on (R402, R404). -/
def State.markReplay (s : State) (l : Nat) : State :=
  allUnits.foldl (fun s u => match (s.unit u).run with
    | some p =>
      let on := match u with
        | .mv _ => usesLink u p.hdr l
        | _ => recvLink u p.hdr == some l
      if on && p.stage == .running then s.loosenIf u p (s.halfCounts u p || p.sendDone || p.recvDone) else s
    | none => s) s

/-! ### Notices about chips (R462 to R465) -/

/-- The 24 bytes of a notice (R463). -/
def State.noticeBytes (s : State) (kind subject cause : Nat) : List Byte :=
  natToBytes 1 kind ++ natToBytes 1 subject ++ natToBytes 2 s.fabric.epoch ++ natToBytes 4 s.fabric.nseq.toNat ++
  natToBytes 4 cause ++ natToBytes 12 s.nowWord.toNat

/-- Send a notice to chips; each notice takes the sender's next NSEQ. A notice to this chip needs no flit. -/
def State.notice (s : State) (kind subject cause : Nat) (chips : List Nat) : State :=
  let b := s.noticeBytes kind subject cause
  let s := (chips.filter (· != s.self)).foldl (fun s d => s.sendRouted (mkFlit tFabric s.self d 0#32 b)) s
  { s with fabric := { s.fabric with nseq := s.fabric.nseq + 1#32 } }

/-- Every chip of the fabric. -/
def State.chips (s : State) : List Nat := if s.fabric.en then List.range (s.fabric.nm1 + 1) else []

/-- Chip `p` is regarded as down (R465): halves with it end PEER_LOST; contexts whose peer table names it switch their
current frame, and begin later frames on the fall-back path; SCRIPTED contexts keep their path. -/
def State.peerGone (s : State) (p : Nat) : State :=
  let s := { s with fabric := { s.fabric with down := s.fabric.down ||| (1#8 <<< p) } }
  let s := s.usedLinks.foldl (fun s l =>
    if (s.peerOf l.val).map (·.1) = some p then s.endHalves l.val else s) s
  (s.ctxs.map (·.1)).foldl (fun s c =>
    let x := s.ctx c
    match x.img with
    | none => s
    | some g =>
      match g.peers.find? (fun e => e.1 == p) with
      | none => s
      | some e =>
        if x.cls = 1 ∨ bitAt (BitVec.ofNat 8 x.flags) 2 then s
        else
          let s := s.setCtx c { x with downPeers := if x.downPeers.contains p then x.downPeers else x.downPeers ++ [p] }
          s.switchFrame c (min x.ckptLast e.2)) s

/-- Chip `p` is lost (R464): down until a PEER_UP names it. -/
def State.peerLose (s : State) (p : Nat) : State :=
  (({ s with fabric := { s.fabric with lost := s.fabric.lost ||| (1#8 <<< p) } }).peerGone p)

/-- Chip `p` is back (R464, R465). -/
def State.peerBack (s : State) (p : Nat) : State :=
  let s := { s with fabric := { s.fabric with
    down := s.fabric.down &&& ~~~(1#8 <<< p)
    lost := s.fabric.lost &&& ~~~(1#8 <<< p) } }
  (s.ctxs.map (·.1)).foldl (fun s c => s.modCtx c fun x => { x with downPeers := x.downPeers.filter (· != p) }) s

/-- The manager declares chip `p` lost (R464). -/
def State.declareLost (s : State) (p : Nat) : State :=
  if s.fabric.lost.getLsbD p then s else (s.notice 0x12 p 0 s.chips).peerLose p

/-- Is this chip in service. -/
def State.inService (s : State) : Bool := !s.hoop.inReset && s.serviceStatus.isNone

/-- Is this chip the manager: it has the role, and is in service (R462). -/
def State.isManager (s : State) : Bool := s.fabric.en && s.fabric.manager == s.self && s.inService

/-- FOLLOW holds on a chip other than chip 0 of a formed fabric (R476); when it clears INC returns to INC_P. -/
def State.refollow (s : State) : State :=
  let on := s.formed && s.self != 0
  if on == s.tu.follow then s
  else if on then { s with tu := { s.tu with follow := true, incP := s.tu.inc, integ := 0 } }
  else { s with tu := { s.tu with follow := false, inc := s.tu.incP } }

/-- A link leaves ACTIVE for state `st` (R384, R392, R400): what it held is gone, and its halves end. The manager
declares lost each chip to which no route is ACTIVE any more (R464). -/
def State.linkLeave (s : State) (l : Fin 6) (st : Nat) : State :=
  let reached := s.chips.filter s.routeActive
  let was := (s.link l).active
  let s := if was then s.endHalves l.val else s
  let s := s.modLink l fun x => { x with
    st := st
    downEvent := x.downEvent || was
    wiring := false
    txNext := 0#16
    rxNext := 0#16
    out := []
    txq := []
    xq := []
    xsent := 0
    gap := false
    accepted := false
    nacked := false
    replaysInRow := 0
    episode := false
    posted := []
    readies := []
    rx := none
    txOwner := none
    txHalf := none }
  let s := s.refollow
  if s.isManager then reached.foldl (fun s p => if s.routeActive p then s else s.declareLost p) s else s

/-! ### Replays and acknowledges (R392) -/

/-- Resend every unacknowledged flit; the sixteenth replay in a row takes the link down, and it trains again. -/
def State.resend (s : State) (l : Fin 6) : State :=
  let x := s.link l
  let s := s.markReplay l.val
  let s := if x.episode then s
    else (s.modLink l fun y => { y with episode := true, replaySeen := true, replay := satInc y.replay }).event
      (.linkReplay l.val) []
  let n := x.replaysInRow + 1
  if n ≥ 16 then s.linkLeave l 1
  else
    let s := s.modLink l fun y => { y with replaysInRow := n, out := [] }
    x.out.foldl (fun s f =>
      let h := s.leave f
      let g := x.stampAck false h.1
      (h.2.modLink l fun y => { y with out := y.out ++ [g] }).emit (.flit l.val (flitWire g))) s

/-- Is a sequence number at or before another, modulo 2^16. -/
def seqLe (a b : BitVec 16) : Bool := (b - a).toNat < 2 ^ 15

/-- An acknowledge frees the flits up to ACKSEQ (R392). -/
def State.acked (s : State) (l : Fin 6) (a : BitVec 16) : State :=
  s.modLink l fun x =>
    let out := x.out.filter fun f => !seqLe f.fseq a
    if out.length < x.out.length then { x with out := out, replaysInRow := 0, episode := false } else x

/-- The link layer on a flit with a good CRC (R392): whether the flit is accepted. One that is behind the expected number comes
again by a replay of the peer (R402). -/
def linkRx (l : Fin 6) (f : Flit) (s : State) : State × Bool :=
  if !(s.link l).active then (s, false)
  else
    let s := if f.ackv then s.acked l f.ackSeq else s
    let s := if f.nack then s.resend l else s
    let s := pump l 256 s
    let x := s.link l
    if f.typ = tIdle || !x.active then (s, false)
    else if f.fseq = x.rxNext then
      ((s.modLink l fun y => { y with rxNext := y.rxNext + 1#16, accepted := true, nacked := false }).sendIdle l false, true)
    else if seqLe f.fseq x.rxNext then ((s.markReplay l.val).sendIdle l false, false)
    else if x.nacked then (s, false)
    else (((s.markReplay l.val).modLink l fun y => { y with nacked := true }).sendIdle l true, false)

/-- A routed flit for another chip is forwarded (R394). -/
def State.forward (s : State) (f : Flit) : State := s.sendRouted { f with ackv := false, nack := false }

end Sys2Proof.Machine
end

