-- ==== Sys2Proof/Machine/Collisions.lean ====
section
/-! DEFINITION. How a mover's command ends when its access of a creel collides (R83, R320). -/

namespace Sys2Proof.Machine

/-- MV_FAULT_ADDR of a line of core `n`'s creel (R323). -/
def creelAddr (n : Fin 16) (line : Nat) : Word := BitVec.ofNat 32 (0x10000000 + n.val * 0x10000 + line % 0x10000)

/-- The command of a unit collides at line `k` before its work has come there: it will end at the first such line. -/
def State.noteClash (s : State) (u : UnitId) (k : Nat) (addr : Word) : State :=
  s.modRun u fun p => { p with clash := some (match p.clash with
    | some j => if k < j.1 then (k, addr) else j
    | none => (k, addr)) }

/-- A mover's access of the creel collided (R83): its command ends CREEL_CONFLICT at that line, unless it ended on a fault
at an earlier line; lines from there on are not written (R320). A command whose work has not ended keeps the line in mind, and
ends when it comes there; flits of a SEND leave only behind its collisions (log 104). -/
def State.collideMover (n : Fin 16) (s : State) (v : Visit) : State :=
  match (s.unit (.mv v.mover)).run with
  | none => s
  | some p =>
    match p.fin with
    | none => s.noteClash (.mv v.mover) v.k (creelAddr n v.line)
    | some f =>
      if f.status.isFault && decide (f.stat.toNat ≤ v.k) then s
      else
        let det := (Config.freeCycle s.freeCtr).toNat % max 1 (hdrDecl p.hdr)
        let e : RunEnd := {
          status := .creelConflict, used := det + 1, det := det, sticky := 0#32, stat := BitVec.ofNat 32 v.k, ahi := 0#32
          faultAddr := some (creelAddr n v.line), bound := f.bound }
        (({ s with freeCtr := s.freeCtr + 1 }).modRun (.mv v.mover) fun p => { p with fin := some e }).unwrite
          (.mv v.mover) fun w => v.k ≤ w.index

end Sys2Proof.Machine
end

