-- ==== Sys2Proof/Machine/Operands.lean ====
section
/-! DEFINITION. The operand forms of the tensor-core instructions (R113, R115), the line ranges they name (R116), and
the flow of a program's loops (R119). -/

namespace Sys2Proof.Machine

/-- The opcode of an instruction (R113). -/
def tcOpcode (w : TcWord) : Nat := fieldNat w 120 8

/-- The iteration of the loop at level `l` (0 outermost) that contains the instruction; 0 where there is none (R115). -/
def loopIter (loops : List LoopFrame) (l : Nat) : Nat :=
  match loops.reverse[l]? with
  | some f => f.iter
  | none => 0

/-- The effective address of the AOP whose low bit is `lo` (R113, R115). -/
def aopAddr (r : CoreRun) (w : TcWord) (lo : Nat) : Nat :=
  let x := r.areg.getD (fieldNat w (lo + 20) 4) AddrReg.zero
  let strides := (List.range 4).foldl (fun acc l => acc + (loopIter r.loops l : Int) * x.strides.getD l 0) 0
  wrapNat 32 ((x.base.toNat : Int) + 32 * strides + 32 * fieldInt w lo 20)

/-- Line `q` from byte address `a`, modulo 2^32 (R79, R115). -/
def lineOf (a q : Nat) : Nat := (a + 256 * q) % 2 ^ 32 / 256

/-- The lines that cover `n` bytes from byte address `a`. -/
def spanLines (a n : Nat) : List Nat := (List.range ((a % 256 + n + 255) / 256)).map (lineOf a)

/-- Is every line of a list in the working set of a header (R105, R116). -/
def inWorkingSet (h : Header) (ls : List Nat) : Bool :=
  let base := bytesNat h 20 2
  let n := bytesNat h 22 2
  ls.all fun l => base ≤ l && l < base + n

/-- Where control goes after the instruction before `p`: the step back of a body costs no cycle, and after the last
iteration the instruction after the body follows (R119). Frames are innermost first. -/
def loopFlow (p : Nat) : List LoopFrame → Nat × List LoopFrame
  | [] => (p, [])
  | f :: fs =>
    if p = f.last then
      if f.iter + 1 < f.count then (f.first, { f with iter := f.iter + 1 } :: fs) else loopFlow p fs
    else (p, f :: fs)

/-- The transposed read of R90: chunk `q` (128 bytes) of a 1 KiB block given as four lines, elements of `e` bytes. -/
def transposeChunk (blk : List Line) (e q : Nat) : Line :=
  let a := blk.toArray
  lineOfBytes ((List.range 128).map fun k =>
    let i := 4 / e * q + k / (32 * e)
    let src := (k % (32 * e) / e) * 32 + i * e + k % e
    BitVec.ofNat 8 (linesNat a src 1))

/-- Half `h` of a line, in its low 128 bytes (R89, R135). -/
def halfLine (l : Line) (h : Nat) : Line := (l.extractLsb' (1024 * h) 1024).setWidth 2048

/-- The element formats of VLD and VST MODE 1 (R143, R144). -/
def vldFmt (c : Nat) : Option ElemFmt :=
  match c with
  | 0 => some .int4 | 1 => some .int8 | 2 => some .int16 | 3 => some .e4m3
  | 4 => some .e5m2 | 5 => some .fp16 | 6 => some .bf16 | _ => none

/-- The element formats of CMPCNT (R146). -/
def cmpFmt (c : Nat) : Option ElemFmt :=
  match c with
  | 0 => some .int8 | 1 => some .int16 | 2 => some .int32 | 3 => some .e4m3
  | 4 => some .fp16 | 5 => some .bf16 | 6 => some .fp32 | _ => none

/-- Lane `i` of a vector register. -/
def lane (v : Line) (i : Nat) : Word := v.extractLsb' (32 * i) 32

/-- A vector register from its 64 lanes. -/
def lanesOf (f : Nat → Word) : Line :=
  BitVec.ofNat 2048 ((List.range 64).foldr (fun i acc => (f i).toNat + acc * 2 ^ 32) 0)

/-- Bits of a predicate or lane mask. -/
def maskOf (f : Nat → Bool) : DWord :=
  BitVec.ofNat 64 ((List.range 64).foldr (fun i acc => boolNat (f i) + acc * 2) 0)

/-- Window rows NR, with their sign (R155). -/
def windowRows (fh sh dh pt pb ohc : Nat) : Int := ((ohc - 1) * sh + (fh - 1) * dh + 1 : Nat) - (pt : Int) - pb

/-- The record coordinate that a padding pair reads (R157); none where the pair is excluded. -/
def padCoord (padmode : Nat) (w : Int) (e : Nat) : Option Nat :=
  if 0 ≤ w ∧ w < e then some w.toNat
  else match padmode with
    | 1 => some (clampInt 0 (e - 1) w).toNat
    | 2 => some (if w < 0 then -w else 2 * ((e : Int) - 1) - w).toNat
    | _ => none

end Sys2Proof.Machine
end

