-- ==== Sys2Proof/Machine/CoreCycle.lean ====
section
/-! DEFINITION. One ACLK cycle of a tensor core: the work that issued instructions left, each part in the cycle that
R67 to R90 and R125 to R149 fix. Reads and writes are worked in their bank cycle (R80): a write reaches its bank
after the reads of its own cycle (R82). -/

namespace Sys2Proof.Machine

/-- One use of a creel port in a bank cycle; a held port (R90, R143) reaches no bank. `visit` is a splint mover's use. -/
structure Access where
  port : Nat
  line : Nat
  serial : Nat
  hold : Bool
  visit : Option Visit := none
deriving DecidableEq, Repr

/-- Does a pass read two rows per line (R135). -/
def PassJob.paired (p : PassJob) : Bool := modeRho p.mode == 1 && !p.abs

/-- Depths that one weight line carries (R135). -/
def weightStep (ref : TileRef) : Nat := 256 / rowBytes ref.wfmt * (if ref.wfmt = 1 ∧ ref.xmode ≠ 0 then 2 else 1)

/-- The cycle of item `i` of a job: the bank cycle of a creel read, else the cycle in which the item takes effect. A row of a
CONV reads the line-buffer store at L − 4, when it is requested, not at its delivery (DESIGN CHOICE, log 108). The first reads
of a transposed pass that latches at t + 7 would precede its issue; they are done at t + 1 (DESIGN CHOICE, log 75). -/
def itemCycle (k : JobKind) (i : Nat) : Nat :=
  match k with
  | .params u => u.issue + 2 * i + 1
  | .tilePrefix ref => ref.issue + i + 1
  | .weights p ref => p.a - modeLambda p.mode * (p.k - i * weightStep ref) - 5
  | .reads p =>
    match p.src with
    | .creel _ => if p.paired then p.a + 2 * p.rho * i - 6 else p.a + p.rho * i - 6
    | .strided _ _ => p.a + p.rho * i - 6
    | .transposed _ => p.a + i - 9
    | .window _ _ _ _ _ _ _ _ _ _ _ _ _ _ _ _ => p.a + p.rho * i - 4
  | .rows p => p.a + p.rho * i + p.stages
  | .drain _ _ _ _ _ rho start _ _ _ => start + rho * i
  | .table _ _ _ start _ _ => start + i + 2
  | .deposit _ cycle _ _ _ => cycle
  | .lbf _ t st _ _ => t + st * i + 1
  | .vld _ t _ _ _ _ _ _ => t + i + 1
  | .vtab _ t _ _ => t + i + 1
  | .cmpcnt _ _ _ _ _ _ _ _ reads => reads.getD i 0 + 1
  | .move _ dir _ _ s0 _ => if dir = 0 then s0 + 8 * i else s0 + 8 * i - 40

/-- The creel read of item `i`, if it is one. -/
def itemAccess (k : JobKind) (i : Nat) : Option Access :=
  let rd := fun serial line => some { port := 0, line := line, serial := serial, hold := false }
  match k with
  | .params u => rd u.serial (lineOf u.param i)
  | .tilePrefix ref =>
    let n := if ref.bs then (if ref.wfmt = 1 then 6 else 4) else 0
    rd ref.serial (if i < n then lineOf ref.srec i else lineOf ref.list (i - n))
  | .weights p ref => rd p.serial (lineOf ref.tile i)
  | .reads p =>
    match p.src with
    | .creel act => rd p.serial (lineOf act i)
    | .strided act st => rd p.serial (lineOf (act + 128 * st * i) 0)
    | .transposed act =>
      if i % 8 < 4 then rd p.serial (lineOf act (4 * (i / 8) + i % 8))
      else some { port := 0, line := lineOf act (4 * (i / 8) + 3), serial := p.serial, hold := true }
    | .window _ _ _ _ _ _ _ _ _ _ _ _ _ _ _ _ => none
  | .table serial _ entries _ _ _ => rd serial (entries.getD i 0 / 256)
  | .lbf serial _ _ src _ => rd serial (lineOf src i)
  | .vld serial _ _ _ _ _ _ addr =>
    if i < 4 then rd serial (lineOf addr i)
    else some { port := 0, line := lineOf addr 3, serial := serial, hold := true }
  | .vtab serial _ _ addr => rd serial (lineOf addr i)
  | .cmpcnt serial _ _ _ _ _ src _ _ => rd serial (lineOf src i)
  | .move serial dir creel _ _ _ =>
    if dir = 0 then some { port := 2, line := lineOf creel i, serial := serial, hold := false } else none
  | .rows _ => none
  | .drain _ _ _ _ _ _ _ _ _ _ => none
  | .deposit _ _ _ _ _ => none

/-- Sticky bits of TC_STATUS (R101). -/
def stTag : Word := 0x200#32
@[inherit_doc stTag] def stConflict : Word := 0x100#32
@[inherit_doc stTag] def stCycle : Word := 0x080#32
@[inherit_doc stTag] def stRim : Word := 0x040#32
@[inherit_doc stTag] def stVec : Word := 0x400#32

/-- Note a fault that will be detected in a cycle. -/
def CoreRun.fault (r : CoreRun) (cycle : Nat) (st : Status) (info : FaultInfo) (sticky : Word) : CoreRun :=
  { r with faults := r.faults ++ [{ cycle := cycle, status := st, info := info, sticky := sticky }] }

/-- Note a register write (R91). -/
def CoreRun.land (r : CoreRun) (cycle serial : Nat) (w : RegWrite) : CoreRun :=
  { r with pendRegs := r.pendRegs ++ [(cycle, serial, w)] }

/-- Add a job. -/
def CoreRun.job (r : CoreRun) (k : JobKind) (total : Nat) : CoreRun :=
  { r with jobs := r.jobs ++ [{ kind := k, next := 0, total := total, got := [], bytes := [] }] }

/-- Issue a line write at `issue` on the write port (R80). -/
def CoreRun.write (r : CoreRun) (issue serial line : Nat) (data : Line) : CoreRun :=
  { r with writes := r.writes ++
      [{ bank := issue + 1, port := 1, serial := serial, line := line, data := data, tag := none }] }

/-- Replace lanes of a register (R142). -/
def mergeLanes (mask : DWord) (new old : Line) : Line :=
  lanesOf fun i => if bitAt mask i then lane new i else lane old i

/-- A register write lands. -/
def landOne (r : CoreRun) : RegWrite → CoreRun
  | .v i m x => { r with vreg := r.vreg.set i (mergeLanes m x (r.vreg.getD i 0#2048)) }
  | .s i x => { r with sreg := r.sreg.set i x }
  | .sAdd i n => { r with sreg := r.sreg.set i (r.sreg.getD i 0#32 + BitVec.ofNat 32 n) }
  | .p i x => { r with preg := r.preg.set i x }
  | .t i x => { r with tabs := r.tabs.set i x }

/-- Every register write due by cycle `c` lands, in the order noted. -/
def landRegs (c : Nat) (r : CoreRun) : CoreRun :=
  let due := r.pendRegs.filter fun x => x.1 ≤ c
  due.foldl (fun r x => landOne r x.2.2) { r with pendRegs := r.pendRegs.filter fun x => c < x.1 }

/-- Read a creel line in bank cycle `c`; a tag mismatch is detected at stage 5 (R81). -/
def readLine (s : State) (n : Fin 16) (c line : Nat) (r : CoreRun) : Line × CoreRun :=
  let k := creelKey n.val line
  (s.line k, if s.tagOk k then r else r.fault (c + 3) .tagFault (.line 0 line) stTag)

/-- The lines gathered under a serial number. -/
def CoreRun.linesOf (r : CoreRun) (serial : Nat) : List Line :=
  match r.lines.find? (·.1 == serial) with
  | some x => x.2
  | none => []

/-- The window row of output position `m` (R155 to R158): its contents and the taps that take part. -/
def windowRow (lb : Sparse Line) (afmt m : Nat) : RowSource → Line × Nat
  | .window padmode fh fw sh sw dh dw pt pb pl _pr ow ohc base iw tap0 =>
    let rb := if afmt = 1 then 64 else if afmt ≤ 3 then 128 else 256
    let rl := ceilDiv (iw * rb) 256
    let nr := (windowRows fh sh dh pt pb ohc).toNat
    let j := m / ow
    let x := m % ow
    let tap := fun t =>
      let ky := t / fw
      let kx := t % fw
      let wy : Int := ((j * sh + ky * dh : Nat) : Int) - pt
      let wx : Int := ((x * sw + kx * dw : Nat) : Int) - pl
      match padCoord padmode wy nr, padCoord padmode wx iw with
      | some y, some x' =>
        let l := sparseGet 0#2048 lb ((base + y * rl + x' * rb / 256) % 2048)
        some (fieldNat l (8 * (x' * rb % 256)) (8 * rb))
      | _, _ => none
    let taps := if afmt = 1 then (if tap0 + 1 < fh * fw then [tap0, tap0 + 1] else [tap0]) else [tap0]
    let vals := taps.map tap
    (BitVec.ofNat 2048 (vals.foldr (fun v acc => v.getD 0 + acc * 2 ^ (8 * rb)) 0),
     vals.foldr (fun v acc => boolNat v.isSome + 2 * acc) 0)
  | _ => (0#2048, 0)

/-- The disturbances of row `m` of a pass on its column sums (R418). -/
def arrayErrs (ups : List Upset) (m : Nat) : List (Nat × Int) :=
  ups.filterMap fun u => match u with
    | .array row col err => if row = m then some (col, err) else none
    | _ => none

/-- The set and row that activation row `m` of a pass goes to (R72). -/
def PassJob.place (p : PassJob) (m : Nat) : Nat × Nat := if p.stream then (m / 32 % 2, m % 32) else (p.set, m)

/-- An accumulator row. -/
def CoreRun.accRow (r : CoreRun) (set row : Nat) : Option AccRow := (r.acc.getD set []).getD row none

/-- Replace an accumulator row. -/
def CoreRun.setAcc (r : CoreRun) (set row : Nat) (x : Option AccRow) : CoreRun :=
  { r with acc := r.acc.set set ((r.acc.getD set []).set row x) }

/-- The rim verdict of row `m` of a pass, `139` or `142` cycles after its latch in column 0 (R78, R416, R419, R421). -/
def CoreRun.rimFault (r : CoreRun) (p : PassJob) (m : Nat) (col : Option Nat) : CoreRun :=
  let pl := p.place m
  r.fault (p.a + p.rho * m + (if mode16 p.mode then 142 else 139)) .rimFault
    (.rim col.isSome pl.1 pl.2 p.index (col.getD 0)) stRim

/-- The errors of a row in one column. -/
def errOf (errs : List (Nat × Int)) (col : Nat) : Int :=
  errs.foldl (fun (acc : Int) (e : Nat × Int) => if e.1 = col then acc + e.2 else acc) 0

/-- The exact sums of a row in columns 0 to N − 1, with its disturbances (R418), and the row's rim check (R417 to R421):
the check columns in the integer and FP8 modes, the second path in the 16-bit modes. A row that lies all in padding is
checked like any other, on sums of nothing (R158). -/
def rowSums (p : PassJob) (t : Tile) (row : ActRow) (m : Nat) (r : CoreRun) : List Int × CoreRun :=
  let errs := arrayErrs p.ups m
  let fix := if mode16 p.mode then [] else rowFix p.mode p.afmt p.scaled row
  let ys := (List.range p.n).map fun col =>
    (if mode16 p.mode then 0 else colSum p.mode p.scaled t col fix row) + errOf errs col
  if mode16 p.mode then
    match ys.findIdx? fun (y : Int) => y % 2 ^ 32 != 0 with
    | some col => (ys, r.rimFault p m (some col))
    | none => (ys, r)
  else
    match rimCheck p.mode p.scaled t p.n fix row ys errs with
    | some col => (ys, r.rimFault p m col)
    | none => (ys, r)

/-- The empty result, 0 or +0 in every column, as a row of a stream pass that lies all in padding is written (R158). -/
def emptyRow (p : PassJob) : AccRow :=
  { vals := List.replicate p.n 0#32
    res := List.replicate p.n (residue (p.scaled || decide (p.mode ≥ 2)) 0#32)
    sat := List.replicate p.n false
    pass := p.index }

/-- Row `m` of a pass reaches its accumulator row (R52 to R57, R66, R73, R158, R423); the duplicated adder (R424). -/
def doRow (c : Nat) (p : PassJob) (m : Nat) (r : CoreRun) : CoreRun :=
  match r.rowData.find? (fun x => x.1 == p.index && x.2.1 == m) with
  | none => r
  | some x =>
    let r := { r with rowData := r.rowData.filter fun y => !(y.1 == p.index && y.2.1 == m) }
    let depth := tileDepth p.mode p.k
    let inc := (List.range depth).map fun d => Nat.testBit x.2.2.2 (d / 128)
    let row := rowOfLine p.afmt depth p.abs inc x.2.2.1
    let tile := match r.tiles.find? (·.1 == p.tile) with
      | some t => t.2
      | none => mkTile p.mode p.wfmt false 0 [] [] []
    let s := rowSums p tile row m r
    let r := s.2
    let place := p.place m
    if !inc.any id then
      if p.stream then r.setAcc place.1 place.2 (some (emptyRow p)) else r
    else
      let ys := s.1.toArray
      let old := r.accRow place.1 place.2
      let isFp := p.scaled || p.mode ≥ 2
      let cols := (List.range p.n).map fun col =>
        let y := reduceCol p.mode p.afmt p.wfmt p.scaled tile col row (ys.getD col 0)
        let z := accumulate isFp (old.map fun o => o.vals.getD col 0#32) y.1
        let sat := match old with
          | some o => o.sat.getD col false
          | none => false
        (z.1, predictResidue isFp (old.map fun o => (o.vals.getD col 0#32, o.res.getD col 0)) y.1 z, z.2 || y.2 || sat)
      let r := r.setAcc place.1 place.2
        (some { vals := cols.map (·.1), res := cols.map (·.2.1), sat := cols.map (·.2.2), pass := p.index })
      p.ups.foldl (fun r u => match u with
        | .adder row' col =>
          if row' = m ∧ isFp ∧ old.isSome ∧ col < p.n then
            r.fault (c + col) .rimFault (.rim true place.1 place.2 p.index col) stRim
          else r
        | _ => r) r

/-- An accumulator entry as the drain reads it: with the bits that flipped in its storage (R423). -/
def flipEntry (ups : List Upset) (row col : Nat) (v : Word) : Word :=
  ups.foldl (fun (v : Word) u => match u with
    | .residue row' col' bit => if row' = row ∧ col' = col then v ^^^ (1#32 <<< bit) else v
    | _ => v) v

/-- The drain reads row `i` in column 0 in cycle `c` (R74 to R76, R423): the entries turn fresh, the residue of each is
recomputed and compared, and the output goes on by the captured path. -/
def doDrain (c serial : Nat) (stream : Bool) (set row0 n i : Nat) (last isFp : Bool) (u : Setup) (ups : List Upset)
    (r : CoreRun) : CoreRun :=
  let place := if stream then (i / 32 % 2, i % 32) else (set, row0 + i)
  let row := r.accRow place.1 place.2
  let r := r.setAcc place.1 place.2 none
  let val := fun col => match row with
    | some a => flipEntry ups place.2 col (a.vals.getD col 0#32)
    | none => 0#32
  let sats := (List.range n).filter fun col => match row with
    | some a => a.sat.getD col false
    | none => false
  let r := { r with marks := r.marks ++ sats.map fun col => (c + col, Mark.sat place.1 place.2 col) }
  let r := match row with
    | some a => (List.range n).foldl (fun (r : CoreRun) col =>
        if residue isFp (val col) = a.res.getD col 0 then r
        else r.fault (c + col) .rimFault (.rim true place.1 place.2 a.pass col) stRim) r
    | none => r
  let w := outBytes u.path u.ofmt
  let addr := u.out + i * w
  let pars := r.linesOf u.serial
  let par := fun col => paramOf pars (u.param % 256) col
  if u.path = 0 then
    let cs := (List.range n).map fun col => drainElem u.ofmt u.esc isFp (par col) (val col)
    r.job (.deposit serial (c + n + 2) addr (packRow u.ofmt.bits w cs) last) 1
  else if u.path = 1 then
    let es := (List.range n).map fun col =>
      let p := par col
      (u.table + 8192 * col + 2 * tableIndex (val col).toInt p.k p.off) % 2 ^ 32
    r.job (.table serial u es c addr last) n
  else if u.path = 2 then
    r.job (.deposit serial (c + n + 2) addr (packRow 32 w ((List.range n).map fun col => (val col).toNat)) last) 1
  else
    let half := fun h => lanesOf fun l => if 64 * h + l < n then val (64 * h + l) else 0#32
    (r.land (c + n + 3) serial (.v u.vreg 0xFFFFFFFFFFFFFFFF#64 (half 0))).land (c + n + 4) serial
      (.v (u.vreg + 1) 0xFFFFFFFFFFFFFFFF#64 (half 1))

/-- The bytes of an assembler's open line, unwritten bytes zero (R84). -/
def asmLine (bs : List (Option Byte)) : Line := lineOfBytes (bs.map fun b => b.getD 0#8)

/-- Put bytes into an open line. -/
def asmPut (old : List (Option Byte)) (off : Nat) (bs : List Byte) : List (Option Byte) :=
  old.take off ++ bs.map some ++ old.drop (off + bs.length)

/-- Bytes of an output row reach the drain's assembler in cycle `c` (R75, R84). A raw row fills two lines. -/
def doDeposit (c serial addr : Nat) (bytes : List Byte) (last : Bool) (r : CoreRun) : CoreRun :=
  let line := lineOf addr 0
  let r := match r.asmDrain with
    | some (l, bs) =>
      if l = line ∧ bytes.length < 256 then r
      else { r.write (c + 1) serial l (asmLine bs) with asmDrain := none }
    | none => r
  if bytes.length = 512 then
    (r.write (c + 1) serial line (lineOfBytes (bytes.take 256))).write (c + 2) serial (lineOf addr 1)
      (lineOfBytes (bytes.drop 256))
  else
    let cur := match r.asmDrain with
      | some (_, bs) => bs
      | none => List.replicate 256 none
    let bs := asmPut cur (addr % 256) bytes
    if last || bs.all (·.isSome) then { r.write (c + 1) serial line (asmLine bs) with asmDrain := none }
    else { r with asmDrain := some (line, bs) }

/-- Does an element satisfy a comparison with the thresholds (R87, R88). -/
def cmpHolds (f : ElemFmt) (cmp : Nat) (t0 t1 x : Nat) : Bool :=
  let v := elemValue f x
  let a := elemValue f t0
  let b := elemValue f t1
  if v.isNan || a.isNan || (cmp == 6 && b.isNan) then cmp == 5
  else match cmp with
    | 0 => fpLt v a
    | 1 => fpLe v a
    | 2 => fpLt a v
    | 3 => fpLe a v
    | 4 => fpEq v a
    | 5 => !fpEq v a
    | _ => fpLe a v && fpLt v b

/-- The counts of one line, group by group (R87). -/
def cmpCounts (f : ElemFmt) (cmp : Nat) (t0 t1 : Word) (l : Line) : List Nat :=
  (List.range (64 / f.bits)).map fun g =>
    ((List.range 32).filter fun e =>
      cmpHolds f cmp (t0.toNat % 2 ^ f.bits) (t1.toNat % 2 ^ f.bits) (elemCode l f (32 * g + e))).length

/-- Item `i` of a job in cycle `c`. A MOVE with DIR 1 does not check the hamper line's tag, and carries it on (DEDUCED,
log 98); it may read the line before another unit's write (R300). A tag mismatch of a creel line that a MOVE with DIR 0
reads is detected in the bank cycle of its slot (DESIGN CHOICE, log 113). The last entries of a parameter block off the line
boundary come with the eighth read (R58, R126; DEDUCED, log 77). -/
def doItem (s : State) (n : Fin 16) (c : Nat) (j : Job) (r : CoreRun) : CoreRun × Job :=
  let i := j.next
  let last := i + 1 == j.total
  let gather := fun (line : Nat) (done : CoreRun → List Line → CoreRun) =>
    let x := readLine s n c line r
    let got := j.got ++ [x.1]
    (if last then done x.2 got else x.2, { j with next := i + 1, got := got })
  match j.kind with
  | .params u => gather (lineOf u.param i) fun r got =>
      if u.param % 256 = 0 then { r with lines := (u.serial, got) :: r.lines }
      else
        let x := readLine s n c (lineOf u.param 8) r
        { x.2 with lines := (u.serial, got ++ [x.1]) :: x.2.lines }
  | .tilePrefix ref =>
    let k := if ref.bs then (if ref.wfmt = 1 then 6 else 4) else 0
    gather (if i < k then lineOf ref.srec i else lineOf ref.list (i - k)) fun r got =>
      { r with lines := (ref.serial, got) :: r.lines }
  | .weights p ref =>
    gather (lineOf ref.tile i) fun r got =>
      let t := buildTile ref.wfmt ref.xmode ref.bs ref.esc ref.k ref.n got (r.linesOf ref.serial)
      { r with tiles := (ref.serial, t.1) :: r.tiles
               marks := if t.2 then r.marks ++ [(p.a, Mark.escMiss)] else r.marks }
  | .reads p =>
    let keep := fun (r : CoreRun) (m : Nat) (l : Line) (taps : Nat) =>
      if m < p.m then { r with rowData := r.rowData ++ [(p.index, m, l, taps)] } else r
    match p.src with
    | .creel act =>
      let x := readLine s n c (lineOf act i) r
      (if p.paired then keep (keep x.2 (2 * i) (halfLine x.1 0) 3) (2 * i + 1) (halfLine x.1 1) 3
        else keep x.2 i x.1 3, { j with next := i + 1 })
    | .strided act st =>
      let a := act + 128 * st * i
      let x := readLine s n c (lineOf a 0) r
      (keep x.2 i (halfLine x.1 (a / 128 % 2)) 3, { j with next := i + 1 })
    | .transposed act =>
      if i % 8 < 4 then
        let x := readLine s n c (lineOf act (4 * (i / 8) + i % 8)) r
        let got := if i % 8 = 0 then [x.1] else j.got ++ [x.1]
        let r := if i % 8 = 3 then
            (List.range 8).foldl (fun r q => keep r (8 * (i / 8) + q) (transposeChunk got 1 q) 3) x.2
          else x.2
        (r, { j with next := i + 1, got := got })
      else (r, { j with next := i + 1 })
    | src@(.window _ _ _ _ _ _ _ _ _ _ _ _ _ _ _ _) =>
      let x := windowRow r.lb p.afmt i src
      (keep r i x.1 x.2, { j with next := i + 1 })
  | .rows p => (doRow c p i r, { j with next := i + 1 })
  | .drain serial stream set row0 cols _ _ isFp u ups =>
    (doDrain c serial stream set row0 cols i last isFp u ups r, { j with next := i + 1 })
  | .table serial u es start addr lastRow =>
    let x := readLine s n c (es.getD i 0 / 256) r
    let e := bytesNat x.1 (es.getD i 0 % 256) 2
    let bytes := j.bytes ++ natToBytes 4 (tableElem u.ofmt u.esc e)
    let r := if last then
        let cs := (List.range j.total).map fun q => natOfBytes ((bytes.drop (4 * q)).take 4)
        x.2.job (.deposit serial (start + j.total + 7) addr (packRow u.ofmt.bits (outBytes u.path u.ofmt) cs) lastRow) 1
      else x.2
    (r, { j with next := i + 1, bytes := bytes })
  | .deposit serial _ addr bytes lastRow => (doDeposit c serial addr bytes lastRow r, { j with next := i + 1 })
  | .lbf _ _ _ src lb =>
    let x := readLine s n c (lineOf src i) r
    ({ x.2 with lbWrites := x.2.lbWrites ++ [(c + 5, lb + i, x.1)] }, { j with next := i + 1 })
  | .vld serial t mode fmt half vd q addr =>
    if i < 4 then
      let x := readLine s n c (lineOf addr i) r
      let got := j.got ++ [x.1]
      let all : DWord := 0xFFFFFFFFFFFFFFFF#64
      let hm : DWord := if half = 0 then 0xFFFFFFFF#64 else 0xFFFFFFFF00000000#64
      let part := fun (l : Line) => if half = 0 then l else l <<< 1024
      let r :=
        if mode = 0 then x.2.land (t + 6) serial (.v vd all x.1)
        else if mode = 1 then
          match vldFmt fmt with
          | some f => x.2.land (t + 7) serial
              (.v vd all (lanesOf fun k => widenElem f (elemCode x.1 f (addr % 256 * 8 / f.bits + k))))
          | none => x.2
        else if mode = 2 then x.2.land (t + 6) serial (.v vd hm (part (halfLine x.1 (addr / 128 % 2))))
        else if i = 3 then
          x.2.land (t + 10 + q) serial (.v vd hm (part (transposeChunk got (if fmt = 7 then 4 else fmt) q)))
        else x.2
      (r, { j with next := i + 1, got := got })
    else (r, { j with next := i + 1 })
  | .vtab serial t slot addr =>
    let x := readLine s n c (lineOf addr i) r
    let got := j.got ++ [x.1]
    let r := if i = 0 ∧ (signedOf 8 (bytesNat x.1 4 1) < -16 ∨ 8 < signedOf 8 (bytesNat x.1 4 1)) then
        x.2.fault (t + 6) .rejectFormat .none 0#32 else x.2
    let table : ActTable := BitVec.ofNat 10240 (got.foldr (fun l acc => l.toNat + acc * 2 ^ 2048) 0)
    (if last then r.land (t + 10) serial (.t slot table) else r, { j with next := i + 1, got := got })
  | .cmpcnt serial fmt cmp sc t0 t1 src dst _ =>
    match cmpFmt fmt with
    | none => (r, { j with next := i + 1 })
    | some f =>
      let x := readLine s n c (lineOf src i) r
      let cs := cmpCounts f cmp t0 t1 x.1
      let bytes := j.bytes ++ cs.map (BitVec.ofNat 8)
      let per := 4 * f.bits
      let r := x.2.land (c + 6) serial (.sAdd sc (cs.foldl (· + ·) 0))
      if (i + 1) % per = 0 ∨ last then
        (r.write (c + 7) serial (lineOf dst (i / per)) (lineOfBytes bytes), { j with next := i + 1, bytes := [] })
      else (r, { j with next := i + 1, bytes := bytes })
  | .move serial dir creel hline s0 seen =>
    let line := lineOf creel i
    if dir = 0 then
      let k := creelKey n.val line
      let r := if s.tagOk k then
          { r with hwrites := r.hwrites ++ [(c + 40, hline + i, s.line k, s.badTag k)] }
        else r.fault c .tagFault (.line 2 line) stTag
      (r, { j with next := i + 1 })
    else
      let k := hamKey (hline + i)
      let x := match (s.periodReads (some (.tc n)) seen).find? (·.1 == k) with
        | some r => r.2
        | none => (s.line k, s.badTag k)
      ({ r with writes := r.writes ++ [{ bank := s0 + 8 * i, port := 2, serial := serial, line := line,
                                         data := x.1, tag := x.2 }] }, { j with next := i + 1 })

/-- The items of a job that are due by cycle `c`. -/
def runJob (s : State) (n : Fin 16) (c : Nat) : Nat → Job → CoreRun → CoreRun × Job
  | 0, j, r => (r, j)
  | k + 1, j, r =>
    if j.next < j.total ∧ itemCycle j.kind j.next ≤ c then
      let x := doItem s n c j r
      runJob s n c k x.2 x.1
    else (r, j)

/-- Every job, in the order the instructions issued; finished jobs leave. -/
def runJobs (s : State) (n : Fin 16) (c : Nat) : List Job → CoreRun → CoreRun
  | [], r => r
  | j :: js, r =>
    let x := runJob s n c 16 j r
    let r := if x.2.next < x.2.total then { x.1 with jobs := x.1.jobs ++ [x.2] } else x.1
    runJobs s n c js r

/-- The uses of the ports whose bank cycle is `c`: of the items still to do, also those behind the first where an
instruction's earlier ones are overdue (log 75), of the writes, and of the movers that visit the creel. -/
def accessesAt (r : CoreRun) (c : Nat) : List Access :=
  (r.jobs.flatMap fun j => (List.range (min 16 (j.total - j.next))).filterMap fun i =>
    if itemCycle j.kind (j.next + i) = c then itemAccess j.kind (j.next + i) else none) ++
  ((r.writes.filter (·.bank == c)).map fun w => { port := w.port, line := w.line, serial := w.serial, hold := false }) ++
  (r.visits.filter (·.cycle == c)).map fun v =>
    { port := 2, line := v.line, serial := 2 ^ 64 + v.mover.val, hold := false, visit := some v }

/-- The access that R83 records among conflicting ones: the lowest port, then the earliest instruction. -/
def pickAccess (a b : Access) : Access :=
  if b.port < a.port ∨ (b.port = a.port ∧ b.serial < a.serial) then b else a

/-- Accesses of bank cycle `c` that conflict (R83): the run notes CREEL_CONFLICT, detected in `det`, with the line of the
access that `pickAccess` chooses, and the movers involved; the writes among them take no effect. Where only movers collide the
core's command is not involved. -/
def CoreRun.collide (r : CoreRun) (c det : Nat) : List Access → CoreRun
  | [] => r
  | a :: rest =>
    let x := rest.foldl pickAccess a
    let hit := fun (w : CreelWrite) => (a :: rest).any fun (y : Access) =>
      y.visit.isNone && y.port == w.port && y.line == w.line && y.serial == w.serial
    let own := (a :: rest).any (·.visit.isNone)
    { (if own then r.fault det .creelConflict (.line x.port x.line) stConflict else r) with
        writes := r.writes.filter fun w => !(w.bank == c && hit w)
        collided := r.collided ++ (a :: rest).filterMap (·.visit) }

/-- Conflicts among the accesses of bank cycle `c` (R83, R299): two lines on one port, detected in the issue cycle on the
read and write ports and in the bank cycle on the mover port (log 75); two accesses to one bank, detected in the bank
cycle. -/
def conflicts (c : Nat) (as : List Access) (r : CoreRun) : CoreRun :=
  let port := fun (r : CoreRun) (p : Nat) =>
    let xs := as.filter (·.port == p)
    if xs.length < 2 then r else r.collide c (if p = 2 then c else c - 1) xs
  let bank := fun (r : CoreRun) (k : Nat) =>
    let xs := as.filter (fun a => !a.hold && a.line % 16 == k)
    if xs.length < 2 then r else r.collide c c xs
  (List.range 16).foldl bank ([0, 1, 2].foldl port r)

/-- The writes whose cycle is past reach their stores (R82, R137, R300). -/
def commit (n : Fin 16) (c : Nat) (x : State × CoreRun) : State × CoreRun :=
  let r := x.2
  let s := (r.writes.filter (·.bank < c)).foldl
    (fun s w => s.putLineTag (creelKey n.val w.line) w.data w.tag) x.1
  let s := (r.hwrites.filter (·.1 < c)).foldl
    (fun s w => (s.noteWrite (.tc n) 0 (some w.1) (hamKey w.2.1)).putLineTag (hamKey w.2.1) w.2.2.1 w.2.2.2) s
  let lb := (r.lbWrites.filter (·.1 < c)).foldl (fun m w => sparsePut 0#2048 m w.2.1 w.2.2) r.lb
  (s, { r with writes := r.writes.filter (c ≤ ·.bank), hwrites := r.hwrites.filter (c ≤ ·.1), lb := lb,
               lbWrites := r.lbWrites.filter (c ≤ ·.1) })

/-- The first saturated entry that marks name: cycle, set, row and column; of two read in one cycle the one noted first, the
earlier row (DESIGN CHOICE, log 75). -/
def firstSat (ms : List (Nat × Mark)) : Option (Nat × Nat × Nat × Nat) :=
  ms.foldl (fun (b : Option (Nat × Nat × Nat × Nat)) m => match m.2 with
    | .sat set row col =>
      match b with
      | none => some (m.1, set, row, col)
      | some y => if m.1 < y.1 then some (m.1, set, row, col) else b
    | .escMiss => b) none

/-- The marks that fell by cycle `f` set their sticky bits, and the first saturated entry is recorded while none is valid
(R43, R74). -/
def applyMarks (s : State) (n : Fin 16) (r : CoreRun) (f : Nat) : State :=
  let ms := r.marks.filter (·.1 ≤ f)
  if ms.isEmpty then s
  else
    let esc := ms.any fun m => match m.2 with | .escMiss => true | _ => false
    let first := firstSat ms
    let s := s.modRegs (.tc n) fun x => { x with sticky := x.sticky ||| (if esc then 0x10#32 else 0#32) |||
      (if first.isSome then 0x20#32 else 0#32) }
    match first with
    | some y =>
      let c := s.core n
      if bitAt c.satInfo 31 then s
      else s.setCore n { c with satInfo := BitVec.ofNat 32 (2 ^ 31 + y.2.1 * 2 ^ 13 + y.2.2.1 * 2 ^ 8 + y.2.2.2) }
    | none => s

/-- The first cycle in which a fault is detected. -/
def firstFault (r : CoreRun) : Option Nat :=
  r.faults.foldl (fun m f => match m with
    | none => some f.cycle
    | some c => some (min c f.cycle)) none

/-- Has the core stopped: every use of the cycle after the first fault's has been worked, so its companions are known. -/
def coreHalted (r : CoreRun) : Bool :=
  match firstFault r with
  | some f => f + 2 ≤ r.cycle
  | none => false

/-- One cycle. The marks of the cycles in which a stop would be known by now take effect (R43, R74). -/
def coreCycle (n : Fin 16) (x : State × CoreRun) : State × CoreRun :=
  let c := x.2.cycle
  let x := commit n c x
  let due := { x.2 with marks := x.2.marks.filter fun m => c < m.1 + 2 }
  let s := if c < 2 then x.1 else applyMarks x.1 n x.2 (c - 2)
  let r := landRegs c (if c < 2 then x.2 else due)
  let r := conflicts c (accessesAt r c) r
  let r := runJobs s n c r.jobs { r with jobs := [] }
  (s, { r with cycle := c + 1 })

/-- `k` cycles, or until the core has stopped. -/
def coreCycles (n : Fin 16) : Nat → State × CoreRun → State × CoreRun
  | 0, x => x
  | k + 1, x => if coreHalted x.2 then x else coreCycles n k (coreCycle n x)

/-- Work every cycle up to `t`. -/
def coreRunTo (n : Fin 16) (t : Nat) (x : State × CoreRun) : State × CoreRun := coreCycles n (t + 1 - x.2.cycle) x

end Sys2Proof.Machine
end

