-- ==== Sys2Proof/Machine/CoreIssue.lean ====
section
/-! DEFINITION. The sequencer of a tensor core: when the next instruction issues (R109, R110), what its issue checks do
(R116, R117, R525), and how a core stops on a fault (R85, R86) or at the end of its program (R112, R150). -/

namespace Sys2Proof.Machine

/-- The larger of an optional cycle and a cycle. -/
def maxOpt (a : Option Nat) (b : Nat) : Nat := match a with
  | some x => max x b
  | none => b

/-- Note a completion of the unit with FENCE bit `i` (R110, R121). -/
def CoreRun.done (r : CoreRun) (i cycle : Nat) : CoreRun :=
  { r with complete := r.complete.set i (some (maxOpt (r.complete.getD i none) cycle)) }

/-- The latest completion among the units of a mask. -/
def CoreRun.latest (r : CoreRun) (mask : Nat) : Option Nat :=
  (List.range 7).foldl (fun m i =>
    if Nat.testBit mask i then
      match r.complete.getD i none with
      | some c => some (maxOpt m c)
      | none => m
    else m) none

/-- The first cycle from `t` at which an instruction's unit lets it issue (R110, R121); none is never. -/
def unitReady (r : CoreRun) (w : TcWord) (t : Nat) : Option Nat :=
  match tcOpcode w with
  | 0x05 => some (match r.latest (fieldNat w 112 7) with | some c => max t (c + 1) | none => t)
  | 0x10 => some (match r.setup with | some u => max t (r.slotUse.getD (1 - u.slot) 0 + 1) | none => t)
  | 0x11 => if r.nextTile.isSome then none else some t
  | 0x12 | 0x13 =>
    match r.passQueue.filter (t ≤ ·) with
    | a :: b :: _ => some (max t (min a b + 1))
    | _ => some t
  | 0x14 => some (max t r.lbfReady)
  | 0x20 | 0x21 | 0x22 | 0x23 => some (max t r.vecReady)
  | 0x30 => some (max t r.cmpReady)
  | 0x40 => some (max t r.moveReady)
  | _ => some t

/-- The issue cycle of the next instruction (R109). -/
def issueCycle (r : CoreRun) (w : TcWord) : Option Nat :=
  unitReady r w (max (match r.lastIssue with | some t => t + 1 | none => 0) r.idleUntil)

/-! ### How a core stops -/

/-- The record of a rim mismatch (R101), kept while one is valid. -/
def rimRecord (s : State) (n : Fin 16) : FaultInfo → State
  | .rim located set row pass col =>
    let c := s.core n
    if bitAt c.rim 31 then s
    else s.setCore n { c with rim := BitVec.ofNat 32 (2 ^ 31 + boolNat located * 2 ^ 30 + set * 2 ^ 29 + row * 2 ^ 24 +
      pass % 2 ^ 16 * 2 ^ 8 + col) }
  | .rimFeed pass =>
    let c := s.core n
    if bitAt c.rim 31 then s
    else
      let x := s.drawLine
      x.2.setCore n { c with rim := BitVec.ofNat 32 (2 ^ 31 + x.1.toNat % 64 * 2 ^ 24 + pass % 2 ^ 16 * 2 ^ 8) }
  | _ => s

/-- The place of a tag or conflict fault (R101). -/
def addrRecord (s : State) (n : Fin 16) : FaultInfo → State
  | .line port line => s.modRegs (.tc n) fun x => { x with faultAddr := BitVec.ofNat 32 (port * 2 ^ 16 + line % 2 ^ 16) }
  | _ => s

/-- The fault that R86 chooses. -/
def worseFault (a b : CoreFault) : CoreFault :=
  if b.status.rank < a.status.rank then b else a

/-- The movers' visits that collide with one another, whether their cycles have been worked or not (R83). -/
def CoreRun.visitPairs (r : CoreRun) : List Visit :=
  ((r.visits.map (·.cycle)).eraseDups).flatMap fun c =>
    (conflicts c (accessesAt { CoreRun.init with visits := r.visits } c) CoreRun.init).collided

/-- A core's run ends: the movers whose accesses collided, with the core's by cycle `last` or with one another, end
CREEL_CONFLICT all the same (R83). -/
def State.freeCore (n : Fin 16) (s : State) (r : CoreRun) (last : Nat) : State :=
  (r.collided.filter (·.cycle ≤ last) ++ r.visitPairs).foldl (State.collideMover n)
    (s.setCore n { s.core n with run := CoreRun.init })

/-- The core stops in the cycle of its first fault (R85, R86, R101): status, sticky bits of every fault of the cycle, and
the command ends. Of two rim mismatches in one cycle TC_RIM takes the one noted first; of several conflicts, or a conflict and
a tag fault, in one cycle TC_FAULT_ADDR takes the line of the one whose status R86 puts first, of one status the one noted
first. A mover whose access collides in the bank cycle after that of the stop, whose accesses have been issued, still ends
CREEL_CONFLICT (DESIGN CHOICE, log 75). -/
def coreStop (n : Fin 16) (x : State × CoreRun) : State :=
  match firstFault x.2 with
  | none => x.1.setCore n { x.1.core n with run := x.2 }
  | some f =>
    match x.2.faults.filter (·.cycle == f) with
    | [] => x.1
    | a :: rest =>
      let best := rest.foldl worseFault a
      let sticky := (a :: rest).foldl (fun w y => w ||| y.sticky) 0#32
      let s := applyMarks x.1 n x.2 f
      let s := (a :: rest).foldl (fun s y => rimRecord s n y.info) s
      let s := (a :: rest).reverse.foldl (fun s y => addrRecord s n y.info) s
      let s := if best.status = .tagFault ∨ best.status = .creelConflict then addrRecord s n best.info else s
      (s.freeCore n x.2 (f + 1)).endCommand (.tc n)
        { status := best.status, used := f + 1, det := f, sticky := sticky, ties := [], bounded := false }

/-- The end cycle E of a program whose END has issued (R112), with the cycles that upsets add. -/
def endCycle (r : CoreRun) : Nat :=
  maxOpt (r.latest 0x7F) (r.lastIssue.getD 0) + r.extra

/-- The cycle-count check at the end cycle (R150). -/
def coreEnd (n : Fin 16) (decl : Nat) (late : Option Status) (x : State × CoreRun) : State :=
  let e := endCycle x.2
  let x := coreRunTo n (e + 1) x
  if (firstFault x.2).any (· < e) then coreStop n x
  else if e + 1 < decl then coreStop n (x.1, x.2.fault e .cycleFault .none stCycle)
  else if (firstFault x.2).any (· ≤ e) then coreStop n x
  else
    let s := applyMarks x.1 n x.2 e
    (s.freeCore n x.2 (e + 1)).endCommand (.tc n)
        { status := late.getD .done, used := e + 1, det := e, sticky := 0#32, ties := x.2.ties, bounded := false }

/-! ### Issue -/

/-- What an issue gives: the run after it, or the status of the check that failed with its sticky bits. -/
abbrev Issued := Except (Status × Word) CoreRun

/-- An instruction rejected at its issue (R117, R525). -/
def rejectIssue : Issued := .error (.rejectFormat, 0#32)

/-- The checks of R116: the lines, then the alignment (R86 puts WINDOW_FAULT first). -/
def checkIssue (h : Header) (lines : List Nat) (aligned : Bool) (r : CoreRun) : Issued :=
  if !inWorkingSet h lines then .error (.windowFault, 0#32)
  else if !aligned then rejectIssue
  else .ok r

/-- The sequencer's step after an issue in cycle `t` (R109, R119). -/
def afterIssue (t : Nat) (r : CoreRun) : CoreRun :=
  let x := loopFlow (r.pc + 1) r.loops
  { r with pc := x.1, loops := x.2, lastIssue := some t, serial := r.serial + 1 }

/-- Disturbances that any instruction may meet: extra cycles (R150), a parity error of a store it reads (R427). -/
def issueUpsets (ups : List Upset) (t : Nat) (r : CoreRun) : CoreRun :=
  ups.foldl (fun r u => match u with
    | .extraCycles k => { r with extra := r.extra + k }
    | .store => r.fault t .internal .none 0#32
    | _ => r) r

/-- Differences of the two vector copies: `cyc i` is the cycle of register write or assembler transfer `i` of the
instruction, in which it is compared (R93); none where there is none. -/
def vectorUpset (ups : List Upset) (cyc : Nat → Option Nat) (r : CoreRun) : CoreRun :=
  ups.foldl (fun r u => match u with
    | .vector i =>
      match cyc i with
      | some c => r.fault c .internal .none stVec
      | none => r
    | _ => r) r

/-- The cycles of an instruction whose one register write or transfer falls in cycle `c`. -/
def oneWrite (c i : Nat) : Option Nat := if i = 0 then some c else none

/-- The cycles of the register writes of a PATH 3 drain of `m` rows that starts at `start` (R75, R93): two for each row. -/
def drainWrites (path start rho n m i : Nat) : Option Nat :=
  if path = 3 ∧ i < 2 * m then some (start + rho * (i / 2) + n + 3 + i % 2) else none

/-- The sequencer of a core issues its next instruction, if it has opcode `op`: cycles up to the issue are worked, a
fault of an earlier cycle ends the command, and `f` gives the instruction's own part. -/
def coreIssue (op : Nat) (n : Fin 16) (ups : List Upset) (s : State) (f : Header → TcWord → Nat → CoreRun → Issued) : State :=
  match (s.unit (.tc n)).run with
  | none => s
  | some p =>
    let r := (s.core n).run
    if p.stage ≠ .running ∨ r.ended then s
    else
      match p.prog[r.pc]? with
      | none => s
      | some w =>
        if tcOpcode w ≠ op then s
        else
          match issueCycle r w with
          | none => s
          | some t =>
            let x := coreRunTo n t (s, r)
            let early := match firstFault x.2 with
              | some c => decide (c < t)
              | none => false
            if early then coreStop n x
            else
              match f p.hdr w t x.2 with
              | .error e => coreStop n (coreRunTo n (t + 1) (x.1, (issueUpsets ups t x.2).fault t e.1 .none e.2))
              | .ok r' =>
                let r'' := afterIssue t r'
                match firstFault r'' with
                | some c =>
                  if c ≤ t then coreStop n (coreRunTo n (t + 1) (x.1, r''))
                  else x.1.setCore n { x.1.core n with run := r'' }
                | none => x.1.setCore n { x.1.core n with run := r'' }

/-! ### Movers at a core's creel -/

/-- Is every instruction due by cycle `c` of a core's command issued, so that the core's cycles up to it can be worked. -/
def coreWorkable (p : Placed) (r : CoreRun) (c : Nat) : Bool :=
  r.ended || (match p.prog[r.pc]? with
    | some w => (match issueCycle r w with
      | some t => decide (c < t)
      | none => true)
    | none => true)

/-- The creel accesses of a mover in a core's command are worked, and one that collides ends the mover's command too (R83). -/
def State.meetCore (s : State) (m : Fin 8) (n : Fin 16) : State :=
  let r := (s.core n).run
  let last := (r.visits.filter (·.mover == m)).foldl (fun a v => max a v.cycle) 0
  match (s.unit (.tc n)).run with
  | none => s
  | some p =>
    if r.visits.any (·.mover == m) && coreWorkable p r (last + 1) then
      let x := coreRunTo n (last + 1) (s, r)
      let hits := x.2.collided.filter (·.mover == m)
      let s := x.1.setCore n { x.1.core n with run := { x.2 with
        visits := x.2.visits.filter (·.mover != m)
        collided := x.2.collided.filter (·.mover != m) } }
      hits.foldl (State.collideMover n) s
    else s

/-- The same for every core. -/
def State.meetCores (s : State) (m : Fin 8) : State := (List.finRange 16).foldl (fun s n => s.meetCore m n) s

/-! ### Passes (R132 to R136) -/

/-- The fields that PASS and CONV share. -/
structure PassReq where
  sw : Bool
  stream : Bool
  set : Nat
  afmt : Nat
  abs : Bool
  m : Nat
  src : RowSource
  /-- 7 for PASS, 5 for CONV (R138) -/
  lead : Nat
  aligned : Bool
deriving DecidableEq, Repr

/-- Rows of set A and of set B that a stream pass of `m` rows writes (R72). -/
def streamRows (m : Nat) : Nat × Nat := (min m 32, min (m - 32) 32)

/-- Last activation row that goes to set `st` in a stream pass of `m` rows; none if no row does. -/
def lastRowOf (st m : Nat) : Option Nat :=
  let g := (m - 1) / 32
  if g % 2 = st then some (m - 1) else if g = 0 then none else some (32 * g - 1)

/-- Is a tile and row format pair legal with the request's source (R65, R132). -/
def passPairOk (q : PassReq) (ref : TileRef) : Bool :=
  let mode := tileMode ref.wfmt ref.xmode
  let creel := match q.src with | .creel _ => true | .window _ _ _ _ _ _ _ _ _ _ _ _ _ _ _ _ => true | _ => false
  q.afmt ≤ 5 && rowMode q.afmt == mode && !(q.abs && (q.afmt > 1 || !creel)) && !(mode16 mode && !creel) &&
  q.m ≠ 0 && (q.stream || q.m ≤ 32)

/-- Rows of `[lo, lo + n)`. -/
def rowRange (lo n : Nat) : List Nat := (List.range n).map (lo + ·)

/-- The activation lines of a pass (R135). -/
def actLines (q : PassReq) (mode : Nat) : List Nat :=
  match q.src with
  | .creel act => (List.range (if modeRho mode == 1 && !q.abs then ceilDiv q.m 2 else q.m)).map (lineOf act)
  | .strided act st => (List.range q.m).map fun i => lineOf (act + 128 * st * i) 0
  | .transposed act => (List.range (4 * ceilDiv q.m 8)).map (lineOf act)
  | .window _ _ _ _ _ _ _ _ _ _ _ _ _ _ _ _ => []

/-- Items of a pass's read job. -/
def readItems (q : PassReq) (mode : Nat) : Nat :=
  match q.src with
  | .creel _ => if modeRho mode == 1 && !q.abs then ceilDiv q.m 2 else q.m
  | .strided _ _ => q.m
  | .transposed _ => 8 * ceilDiv q.m 8
  | .window _ _ _ _ _ _ _ _ _ _ _ _ _ _ _ _ => q.m

/-- Does a tile pass through one of the four duplicated steps of weight preparation (R422): escape resolution, INT4 widening,
16-bit expansion, the scale record. -/
def TileRef.prepared (ref : TileRef) : Bool := ref.esc || ref.bs || (ref.wfmt == 1 && ref.xmode != 0) ||
  (decide (ref.wfmt ≤ 1) && mode16 (tileMode ref.wfmt ref.xmode))

/-- The parity faults and differences that disturbances of a pass cause apart from its column sums (R420 to R422, R427);
`sw` where the pass switches, so that its tile's weight rows enter. -/
def passUpsets (p : PassJob) (ref : TileRef) (sw : Bool) (r : CoreRun) : CoreRun :=
  let weight := fun (r : CoreRun) (i : Nat) =>
    if sw && decide (i < p.k) then
      r.fault (p.a - modeLambda p.mode * (p.k - i)) .rimFault (.rimFeed p.index) stRim
    else r
  p.ups.foldl (fun r u => match u with
    | .feed m =>
      let pl := p.place m
      if m < p.m then r.fault (p.a + p.rho * m) .rimFault (.rim false pl.1 pl.2 p.index 0) stRim else r
    | .weightFeed i => weight r i
    | .weightPrep i => if ref.prepared then weight r i else r
    | .special m col =>
      if m < p.m ∧ col < p.n ∧ (p.scaled ∨ p.mode ≥ 2) then r.rimFault p m (some col) else r
    | .lineBuffer m =>
      match p.src with
      | .window .. => if m < p.m then r.fault (itemCycle (.reads p) m) .internal .none 0#32 else r
      | _ => r
    | _ => r) r

/-- Row spacing of a pass (R133, R136). -/
def passRho (q : PassReq) (ref : TileRef) (r : CoreRun) : Nat :=
  let base := modeRho (tileMode ref.wfmt ref.xmode)
  if q.stream then max base (drainSpacing (match r.setup with | some u => u.path | none => 0) ref.n) else base

/-- Are a pass's results FP32 (R56, R66). -/
def passIsFp (q : PassReq) (ref : TileRef) : Bool := tileMode ref.wfmt ref.xmode ≥ 2 || ref.bs || q.abs

/-- What a set is planned to hold. -/
def CoreRun.planOf (r : CoreRun) (i : Nat) : SetPlan := r.plan.getD i SetPlan.init

/-- Do undrained results of a set differ from a pass's in N or in accumulator type (R73, R132). -/
def CoreRun.clashes (r : CoreRun) (i n : Nat) (isFp : Bool) : Bool :=
  match (r.planOf i).since with
  | some x => x.1 != n || x.2 != isFp
  | none => false

/-- Must a pass be rejected at its issue for its setup, for undrained rows, or for its spacing (R72, R73, R77, R132, R136). -/
def passBad (q : PassReq) (ref : TileRef) (r : CoreRun) : Bool :=
  let isFp := passIsFp q ref
  let path := match r.setup with | some u => u.path | none => 0
  let fpOut := match r.setup with | some u => u.path < 2 && u.ofmt.fp?.isSome | none => false
  let transposed := match q.src with | .transposed _ => true | _ => false
  let rows := streamRows q.m
  (transposed && passRho q ref r != 1) ||
  (if q.stream then
    r.setup.isNone || (path == 1 && isFp) || (fpOut && !isFp) ||
    (r.planOf 0).rows.any (· < rows.1) || (r.planOf 1).rows.any (· < rows.2) ||
    r.clashes 0 ref.n isFp || (rows.2 != 0 && r.clashes 1 ref.n isFp)
  else r.clashes q.set ref.n isFp)

/-- Weight lines of a switching pass. -/
def passWeightLines (ref : TileRef) : Nat := ceilDiv (storageRows ref.wfmt ref.xmode ref.k * rowBytes ref.wfmt) 256

/-- The lines that a pass names (R116). -/
def passLines (q : PassReq) (ref : TileRef) (r : CoreRun) : List Nat :=
  (if q.sw then (List.range (passWeightLines ref)).map (lineOf ref.tile) else []) ++
  actLines q (tileMode ref.wfmt ref.xmode) ++
  (match r.setup with
   | some u => (if q.stream && u.path != 3 then spanLines u.out (q.m * outBytes u.path u.ofmt) else []) ++
       (if u.path == 1 then spanLines u.table (8192 * ref.n) else [])
   | none => [])

/-- The cycle after the last column-0 drain read of the issued DRAINs of a set whose rows the pass writes (R134, R140);
R77 taken to name those alone (DEDUCED, log 96). A row of a CONV that lies all in padding counts as one that the pass writes
here (DESIGN CHOICE, log 109). -/
def passDrainTerm (q : PassReq) (r : CoreRun) (i : Nat) : Nat :=
  let rows := streamRows q.m
  let writes := fun (row : Nat) =>
    if q.stream then decide (row < (if i = 0 then rows.1 else rows.2)) else i == q.set && decide (row < q.m)
  ((r.planOf i).drains.filter fun d => (rowRange d.1 d.2.1).any writes).foldl (fun m d => max m (d.2.2 + 1)) 0

/-- The rows of a set-mode pass that it writes: not those whose taps all lie in padding (R158). -/
def passRows (q : PassReq) (ref : TileRef) : List Nat :=
  let depth := tileDepth (tileMode ref.wfmt ref.xmode) ref.k
  match q.src with
  | src@(.window ..) => (List.range q.m).filter fun m =>
      let taps := (windowRow [] q.afmt m src).2
      Nat.testBit taps 0 || (decide (128 < depth) && Nat.testBit taps 1)
  | _ => List.range q.m

/-- The latch cycle of a pass's row 0 in column 0, for an issue in cycle `t` (R133, R134, R140). -/
def passLatch (q : PassReq) (ref : TileRef) (t : Nat) (r : CoreRun) : Nat :=
  let mode := tileMode ref.wfmt ref.xmode
  let lam := modeLambda mode
  [r.passNext, passDrainTerm q r 0, passDrainTerm q r 1,
    (if q.sw then max (t + 6 + lam * ref.k) (ref.issue + ref.prefixLines + 6 + lam * ref.k) else t + q.lead),
    (if q.sw then (match r.prevSwitch with | some y => y + lam * ref.k | none => 0) else 0),
    (match r.setup with
     | some u => if q.stream && u.path < 2 then u.issue + 20 - modeStages mode else 0
     | none => 0)].foldl max 0

/-- PASS and CONV at their issue in cycle `t`. -/
def issuePass (ups : List Upset) (q : PassReq) (h : Header) (t : Nat) (r : CoreRun) : Issued :=
  match (if q.sw then r.nextTile else r.active) with
  | none => rejectIssue
  | some ref =>
    if !passPairOk q ref || passBad q ref r then rejectIssue
    else
      match checkIssue h (passLines q ref r) q.aligned r with
      | .error e => .error e
      | .ok r =>
        let mode := tileMode ref.wfmt ref.xmode
        let isFp := passIsFp q ref
        let n := ref.n
        let st := modeStages mode
        let rho := passRho q ref r
        let a := passLatch q ref t r
        let last := a + rho * (q.m - 1)
        let p : PassJob := {
          index := r.passCount, serial := r.serial, tile := ref.serial, stream := q.stream,
          set := q.set, afmt := q.afmt, abs := q.abs, m := q.m, src := q.src, rho := rho, a := a, stages := st,
          k := ref.k, n := n, mode := mode, scaled := mode ≤ 1 && isFp, wfmt := ref.wfmt, ups := ups }
        let r := issueUpsets ups t r
        let r := if q.sw then
            { (r.job (.weights p ref) (passWeightLines ref)) with nextTile := none, active := some ref, prevSwitch := some a }
          else r
        let r := (r.job (.reads p) (readItems q mode)).job (.rows p) q.m
        let r := { r with
          passCount := r.passCount + 1, passNext := a + rho * q.m,
          passQueue := r.passQueue.filter (t ≤ ·) ++ [last] }
        let verdict := last + (if mode16 mode then 142 else 139)
        let acc := fun (x : SetPlan) (row : Option Nat) => match row with
          | some m => { x with lastAcc := some (maxOpt x.lastAcc (a + rho * m + st)) }
          | none => x
        let r := match r.setup with
          | some u =>
            if q.stream then
              let c0 := last + st + 1
              let r := vectorUpset ups (drainWrites u.path (a + st + 1) rho n q.m)
                (r.job (.drain r.serial true 0 0 n rho (a + st + 1) isFp u ups) q.m)
              let r := { r with
                lastDrainRead := some (maxOpt r.lastDrainRead c0)
                slotUse := r.slotUse.set u.slot (max (r.slotUse.getD u.slot 0) c0)
                plan := [acc (r.planOf 0) (lastRowOf 0 q.m), acc (r.planOf 1) (lastRowOf 1 q.m)] }
              r.done 0 (max verdict (last + n - 1 + st + (if u.path = 0 then 6 else if u.path = 1 then 11 else 7)))
            else r.done 0 verdict
          | none => r.done 0 verdict
        let r := if q.stream then r else
          let x := acc (r.planOf q.set) (some (q.m - 1))
          let rows := passRows q ref
          { r with plan := r.plan.set q.set { x with
              rows := (x.rows ++ rows).eraseDups
              since := if rows.isEmpty then x.since else some (n, isFp) } }
        .ok (passUpsets p ref q.sw r)

end Sys2Proof.Machine
end

