-- ==== Sys2Proof/Machine/ArrayOps.lean ====
section
/-! DEFINITION. The instructions of a tensor core's array, drain, weight loader, line-buffer filler, compare-and-count
unit and mover port: SETD, LOADW, PASS, CONV, LBF, DRAIN, CMPCNT, MOVE (R125 to R140, R146 to R149, R159). -/

namespace Sys2Proof.Machine

/-- SETD (R125, R126): a drain setup into the free slot with the lower number; PATH 0 and 1 read the parameter lines. The
alignment of OUT and of PARAM is checked on every path: R125 declares neither ignored. Eight reads are made, from the line
of PARAM on; the entries that a block off the line boundary puts on a ninth line (R58) come with the eighth (log 77). -/
def issueSetd (ups : List Upset) (h : Header) (w : TcWord) (t : Nat) (r : CoreRun) : Issued :=
  let path := fieldNat w 118 2
  let fmt := ofmtOf (fieldNat w 115 3)
  let vreg := fieldNat w 83 5
  if (path < 2 && fmt.isNone) || (path == 3 && vreg % 2 == 1) then rejectIssue
  else
    let out := aopAddr r w 88
    let param := aopAddr r w 59
    let lines := if path < 2 then spanLines param 2048 else []
    match checkIssue h lines (out % 256 == 0 && param % 16 == 0) r with
    | .error e => .error e
    | .ok r =>
      let u : Setup := {
        path := path, ofmt := fmt.getD .int8, esc := bitAt w 114, out := out, vreg := vreg, param := param,
        table := aopAddr r w 35, issue := t, ready := if path < 2 then t + 20 else t,
        slot := (match r.setup with | some v => 1 - v.slot | none => 0), serial := r.serial }
      let r := issueUpsets ups t { r with setup := some u }
      let r := if path < 2 then r.job (.params u) 8 else r
      .ok (r.done 1 u.ready)

/-- SETD (R125). -/
def execSetd (n : Fin 16) (ups : List Upset) (s : State) : Result :=
  .next (coreIssue 0x10 n ups s fun h w t r => issueSetd ups h w t r)

/-- LOADW (R48, R127 to R130, R526): names the next tile and reads its prefix. -/
def issueLoadw (ups : List Upset) (h : Header) (w : TcWord) (t : Nat) (r : CoreRun) : Issued :=
  let wfmt := fieldNat w 117 3
  let xmode := fieldNat w 115 2
  let bs := bitAt w 114
  let esc := bitAt w 113
  let k := fieldNat w 105 7 + 1
  if !loadwOk wfmt xmode bs esc || ups.any (· == .layout) then rejectIssue
  else
    let tile := aopAddr r w 74
    let srec := aopAddr r w 50
    let list := aopAddr r w 26
    let sl := if bs then (if wfmt = 1 then 6 else 4) else 0
    let p := prefixCount wfmt xmode bs esc k
    let lines := (List.range p).map fun i => if i < sl then lineOf srec i else lineOf list (i - sl)
    let aligned := tile % 256 == 0 && (!bs || srec % 256 == 0) && (!esc || list % 256 == 0)
    match checkIssue h lines aligned r with
    | .error e => .error e
    | .ok r =>
      let ref : TileRef := {
        wfmt := wfmt, xmode := xmode, bs := bs, esc := esc, k := k, n := fieldNat w 98 7 + 1, tile := tile,
        srec := srec, list := list, issue := t, prefixLines := p, serial := r.serial }
      let r := issueUpsets ups t { r with nextTile := some ref }
      let r := if p = 0 then r else r.job (.tilePrefix ref) p
      .ok (r.done 6 (if p = 0 then t else t + p + 5))

/-- LOADW (R127). -/
def execLoadw (n : Fin 16) (ups : List Upset) (s : State) : Result :=
  .next (coreIssue 0x11 n ups s fun h w t r => issueLoadw ups h w t r)

/-- The request that a PASS makes (R131); ASRC 3 is undefined. -/
def passReq (w : TcWord) (r : CoreRun) : Option PassReq :=
  let act := aopAddr r w 72
  let q := fun (src : RowSource) (al : Nat) => some {
    sw := bitAt w 119, stream := bitAt w 118, set := fieldNat w 117 1, afmt := fieldNat w 112 3, abs := bitAt w 71,
    m := fieldNat w 96 16, src := src, lead := 7, aligned := act % al == 0 : PassReq }
  match fieldNat w 115 2 with
  | 0 => q (.creel act) 256
  | 1 => q (.strided act (fieldNat w 55 16)) 128
  | 2 => q (.transposed act) 1024
  | _ => none

/-- PASS (R131 to R136). -/
def issuePassWord (ups : List Upset) (h : Header) (w : TcWord) (t : Nat) (r : CoreRun) : Issued :=
  match passReq w r with
  | some q => issuePass ups q h t r
  | none => rejectIssue

/-- PASS (R131). -/
def execPass (n : Fin 16) (ups : List Upset) (s : State) : Result :=
  .next (coreIssue 0x12 n ups s fun h w t r => issuePassWord ups h w t r)

/-- The request that a CONV makes (R138), with the rejections of R138 and R159 that need no tile. -/
def convReq (w : TcWord) : Option PassReq :=
  let fh := fieldNat w 108 4 + 1
  let fw := fieldNat w 104 4 + 1
  let sh := fieldNat w 101 3 + 1
  let sw := fieldNat w 98 3 + 1
  let dh := fieldNat w 93 5 + 1
  let dw := fieldNat w 88 5 + 1
  let pt := fieldNat w 83 5
  let pb := fieldNat w 78 5
  let pl := fieldNat w 73 5
  let pr := fieldNat w 68 5
  let ow := fieldNat w 52 16
  let ohc := fieldNat w 44 8
  let lb := fieldNat w 33 11
  let iw := fieldNat w 17 16
  let tap0 := fieldNat w 9 8
  let pad := fieldNat w 118 2
  let afmt := fieldNat w 113 3
  let rb := if afmt = 1 then 64 else if afmt ≤ 3 then 128 else 256
  let nr := windowRows fh sh dh pt pb ohc
  let m := ow * ohc
  if fh = 16 ∨ fw = 16 ∨ pad = 3 ∨ m > 65535 ∨ ow = 0 ∨ ohc = 0 ∨ iw = 0 ∨ nr < 1 ∨
     nr * ((ceilDiv (iw * rb) 256 : Nat) : Int) > 2048 ∨
     (((ow - 1) * sw + (fw - 1) * dw : Nat) : Int) - pl > (iw : Int) - 1 + pr ∨
     tap0 ≥ fh * fw ∨
     (pad = 2 ∧ ((pt : Int) ≥ nr ∨ (pb : Int) ≥ nr ∨ pl ≥ iw ∨ pr ≥ iw)) then none
  else some {
    sw := bitAt w 112, stream := bitAt w 117, set := fieldNat w 116 1, afmt := afmt, abs := false, m := m,
    src := .window pad fh fw sh sw dh dw pt pb pl pr ow ohc lb iw tap0, lead := 5, aligned := true }

/-- Does a CONV in INT4 mode lack its second tap (R159). -/
def convTapMissing (q : PassReq) (ref : TileRef) : Bool :=
  match q.src with
  | .window _ fh fw _ _ _ _ _ _ _ _ _ _ _ _ tap0 =>
    tileMode ref.wfmt ref.xmode == 1 && decide (ref.k > 64) && decide (tap0 + 1 ≥ fh * fw)
  | _ => false

/-- CONV (R138, R152 to R159). -/
def issueConvWord (ups : List Upset) (h : Header) (w : TcWord) (t : Nat) (r : CoreRun) : Issued :=
  match convReq w with
  | some q =>
    match (if q.sw then r.nextTile else r.active) with
    | some ref => if convTapMissing q ref then rejectIssue else issuePass ups q h t r
    | none => rejectIssue
  | none => rejectIssue

/-- CONV (R138). -/
def execConv (n : Fin 16) (ups : List Upset) (s : State) : Result :=
  .next (coreIssue 0x13 n ups s fun h w t r => issueConvWord ups h w t r)

/-- LBF (R137): creel lines into the line-buffer store. -/
def issueLbf (ups : List Upset) (h : Header) (w : TcWord) (t : Nat) (r : CoreRun) : Issued :=
  let lb := fieldNat w 77 11
  let nl := fieldNat w 65 12 + 1
  let st := 1 + fieldNat w 119 1
  let src := aopAddr r w 88
  if lb + nl > 2048 then rejectIssue
  else
    match checkIssue h ((List.range nl).map (lineOf src)) (src % 256 == 0) r with
    | .error e => .error e
    | .ok r =>
      let r := issueUpsets ups t { r with lbfReady := t + (nl - 1) * st + 1 }
      .ok ((r.job (.lbf r.serial t st src lb) nl).done 3 (t + (nl - 1) * st + 6))

/-- LBF (R137). -/
def execLbf (n : Fin 16) (ups : List Upset) (s : State) : Result :=
  .next (coreIssue 0x14 n ups s fun h w t r => issueLbf ups h w t r)

/-- DRAIN (R126, R139, R140). A set that is drained in part keeps its type and N until every row is covered (DEDUCED,
log 97). -/
def issueDrain (ups : List Upset) (h : Header) (w : TcWord) (t : Nat) (r : CoreRun) : Issued :=
  let set := fieldNat w 119 1
  let row0 := fieldNat w 107 5
  let nrows := fieldNat w 101 6
  match r.setup with
  | none => rejectIssue
  | some u =>
    let plan := r.plan.getD set SetPlan.init
    let fpOut := u.path < 2 && u.ofmt.fp?.isSome
    let n := match plan.since with | some x => x.1 | none => 128
    let isFp : Bool := match plan.since with | some x => x.2 | none => fpOut
    if nrows = 0 ∨ row0 + nrows > 32 ∨ (u.path = 1 ∧ isFp) ∨ (fpOut ∧ !isFp) then rejectIssue
    else
      let lines := (if u.path = 3 then [] else spanLines u.out (nrows * outBytes u.path u.ofmt)) ++
        (if u.path = 1 then spanLines u.table (8192 * n) else [])
      match checkIssue h lines true r with
      | .error e => .error e
      | .ok r =>
        let rho := drainSpacing u.path n
        let d := [t + 1, (match plan.lastAcc with | some c => c + 1 | none => 0),
          (match r.lastDrainRead with | some c => c + 1 | none => 0), u.ready + 1].foldl max 0
        let c0 := d + rho * (nrows - 1)
        let rows := plan.rows.filter fun x => !(row0 ≤ x && x < row0 + nrows)
        let r := vectorUpset ups (drainWrites u.path d rho n nrows) (issueUpsets ups t r)
        let r := r.job (.drain r.serial false set row0 n rho d isFp u ups) nrows
        let r := { r with
          lastDrainRead := some (maxOpt r.lastDrainRead c0)
          slotUse := r.slotUse.set u.slot (max (r.slotUse.getD u.slot 0) c0)
          plan := r.plan.set set { plan with
            rows := rows
            since := if rows.isEmpty then none else plan.since
            drains := plan.drains ++ [(row0, nrows, c0)] } }
        .ok (r.done 1 (c0 + n - 1 + (if u.path = 0 then 5 else if u.path = 1 then 10 else 6)))

/-- DRAIN (R139). -/
def execDrain (n : Fin 16) (ups : List Upset) (s : State) : Result :=
  .next (coreIssue 0x15 n ups s fun h w t r => issueDrain ups h w t r)

/-- The read cycles of a CMPCNT (R147): one line per cycle from `c`, none in a cycle in which the assembler issues a
write; `pend` holds the issue cycles of count-line writes. Answers the reads and the writes still known. -/
def cmpReads (nl per : Nat) : Nat → Nat → Nat → List Nat → List Nat × List Nat
  | 0, _, _, pend => ([], pend)
  | k + 1, c, j, pend =>
    if j = nl then ([], pend)
    else if pend.contains c then cmpReads nl per k (c + 1) j pend
    else
      let pend := if (j + 1) % per = 0 ∨ j + 1 = nl then pend ++ [c + 8] else pend
      let x := cmpReads nl per k (c + 1) (j + 1) pend
      (c :: x.1, x.2)

/-- CMPCNT (R87, R88, R146, R147). The thresholds S[ST0] and S[ST1] are read once, in the issue cycle: the rules name no cycle
(DESIGN CHOICE, log 113). -/
def issueCmpcnt (ups : List Upset) (h : Header) (w : TcWord) (t : Nat) (r : CoreRun) : Issued :=
  let fmt := fieldNat w 117 3
  let cmp := fieldNat w 114 3
  let nl := fieldNat w 87 16
  match cmpFmt fmt with
  | none => rejectIssue
  | some f =>
    if cmp = 7 ∨ nl = 0 then rejectIssue
    else
      let src := aopAddr r w 63
      let dst := aopAddr r w 39
      let per := 4 * f.bits
      let lines := (List.range nl).map (lineOf src) ++ (List.range (ceilDiv nl per)).map (lineOf dst)
      match checkIssue h lines (src % 256 == 0 && dst % 256 == 0) r with
      | .error e => .error e
      | .ok r =>
        let pend := r.cmpWrites.filter (t ≤ ·)
        let x := cmpReads nl per (nl + ceilDiv nl per + pend.length + 1) t 0 pend
        let last := x.1.getLastD t
        let r := vectorUpset ups (fun i => (x.1[i]?).map (· + 7)) (issueUpsets ups t { r with cmpWrites := x.2, cmpReady := last + 1 })
        let r := r.job (.cmpcnt r.serial fmt cmp (fieldNat w 103 3) (r.sreg.getD (fieldNat w 109 3) 0#32)
          (r.sreg.getD (fieldNat w 106 3) 0#32) src dst x.1) nl
        .ok (r.done 4 (x.2.foldl max 0 + 1))

/-- CMPCNT (R146). -/
def execCmpcnt (n : Fin 16) (ups : List Upset) (s : State) : Result :=
  .next (coreIssue 0x30 n ups s fun h w t r => issueCmpcnt ups h w t r)

/-- MOVE (R148, R149, R299). -/
def issueMove (ups : List Upset) (h : Header) (w : TcWord) (t : Nat) (r : CoreRun) : Issued :=
  let dir := fieldNat w 119 1
  let hline := fieldNat w 69 19
  let nl := fieldNat w 53 16
  let creel := aopAddr r w 88
  let s0 := 8 * ceilDiv (t + (if dir = 0 then 1 else 40)) 8
  let q0 := s0 / 8
  if nl = 0 ∨ hline + nl > 524288 ∨ hline % 32 ≠ (if dir = 0 then q0 + 5 else q0 - 5) % 32 then rejectIssue
  else
    match checkIssue h ((List.range nl).map (lineOf creel)) (creel % 256 == 0) r with
    | .error e => .error e
    | .ok r =>
      let last := s0 + 8 * (nl - 1)
      let r := issueUpsets ups t { r with moveReady := last + 1 }
      .ok ((r.job (.move r.serial dir creel hline s0 ups) nl).done 5 (if dir = 0 then last + 40 else last))

/-- MOVE (R148). -/
def execMove (n : Fin 16) (ups : List Upset) (s : State) : Result :=
  .next (coreIssue 0x40 n ups s fun h w t r => issueMove ups h w t r)

end Sys2Proof.Machine
end

