-- ==== Sys2Proof/Machine/Crypto.lean ====
section
/-! DEFINITION. The verification of a Protil image (R502, R503): SHA-256 and SHA-384, ECDSA on P-384, and LMS with
LMS_SHA256_M32_H15 and LMOTS_SHA256_N32_W4. The manual names these schemes; their contents are those of FIPS 180-4, FIPS 186-5
and RFC 8554 (PRESUMED, log 7). Words, digests and field elements are numbers, the first byte the most significant. -/

namespace Sys2Proof.Machine

/-- Apply a function to a number that is evaluated first. -/
def strict {α : Type} (n : Nat) (f : Nat → α) : α :=
  match n with
  | 0 => f 0
  | m + 1 => f (Nat.succ m)

/-- A fold whose accumulator is evaluated at each step. -/
def foldStrict {α : Type} (f : Nat → α → Nat) : Nat → List α → Nat
  | n, [] => n
  | n, x :: xs => strict (f n x) fun m => foldStrict f m xs

/-- Bytes as one number, the first byte the most significant. -/
def beNumber (bs : List Byte) : Nat := foldStrict (fun n b => 256 * n + b.toNat) 0 bs

/-- Bytes `o` to `o + n - 1` of a bit vector stored little-endian, as one number, the first byte the most significant. -/
def beField {w : Nat} (h : BitVec w) (o n : Nat) : Nat :=
  strict (bytesNat h o n) fun v => foldStrict (fun a i => 256 * a + v >>> (8 * i) % 256) 0 (List.range n)

/-! ### SHA-2 -/

/-- The working variables of a block. -/
structure ShaVars where
  a : Nat
  b : Nat
  c : Nat
  d : Nat
  e : Nat
  f : Nat
  g : Nat
  h : Nat

/-- A hash function of the SHA-2 family: word length and modulus, digest length in words, round constants, rotations of its
functions, and initial value. -/
structure Sha where
  w : Nat
  m : Nat
  out : Nat
  consts : List Nat
  sum0 : Nat × Nat × Nat
  sum1 : Nat × Nat × Nat
  sig0 : Nat × Nat × Nat
  sig1 : Nat × Nat × Nat
  init : ShaVars

/-- The 80 primes below 410: the numbers from 2 on that no smaller prime below 20 divides. -/
def primes : List Nat :=
  ((List.range 410).drop 2).filter fun x => [2, 3, 5, 7, 11, 13, 17, 19].all fun p => Nat.ble x p || !Nat.beq (x % p) 0

/-- The root of degree `e` of `t`, rounded down, from `r` on: `k` more bits, the highest first. -/
def rootFrom (e t : Nat) : Nat → Nat → Nat
  | 0, r => r
  | k + 1, r => strict (bif Nat.ble ((r + 2 ^ k) ^ e) t then r + 2 ^ k else r) fun r => rootFrom e t k r

/-- The first 64 bits of the fractional part of the root of degree `e` of a number below 512. -/
def rootBits (e n : Nat) : Nat := strict (n <<< (64 * e)) fun t => rootFrom e t 69 0 % 2 ^ 64

/-- The round constants of SHA-512, from the cube roots of the first 80 primes; SHA-256 uses the upper halves of the first 64. -/
def shaConstants : List Nat := primes.map (rootBits 3)

/-- Eight words of an initial value, from the square roots of eight primes. -/
def shaInit (w from_ : Nat) : ShaVars :=
  let x := fun i => rootBits 2 (primes.getD (from_ + i) 0) >>> (64 - w)
  ⟨x 0, x 1, x 2, x 3, x 4, x 5, x 6, x 7⟩

/-- SHA-256. -/
def sha256Kind : Sha :=
  { w := 32, m := 2 ^ 32, out := 8, consts := (shaConstants.take 64).map (· >>> 32), init := shaInit 32 0
    sum0 := (2, 13, 22), sum1 := (6, 11, 25), sig0 := (7, 18, 3), sig1 := (17, 19, 10) }

/-- SHA-384. -/
def sha384Kind : Sha :=
  { w := 64, m := 2 ^ 64, out := 6, consts := shaConstants, init := shaInit 64 8
    sum0 := (28, 34, 39), sum1 := (14, 18, 41), sig0 := (1, 8, 7), sig1 := (19, 61, 6) }

/-- Rotate a word right. -/
def Sha.rotr (k : Sha) (x r : Nat) : Nat := Nat.mod (Nat.lor (Nat.shiftRight x r) (Nat.shiftLeft x (Nat.sub k.w r))) k.m

/-- Three rotations, combined. -/
def Sha.sum (k : Sha) (r : Nat × Nat × Nat) (x : Nat) : Nat :=
  Nat.xor (k.rotr x r.1) (Nat.xor (k.rotr x r.2.1) (k.rotr x r.2.2))

/-- Two rotations and a shift, combined. -/
def Sha.sig (k : Sha) (r : Nat × Nat × Nat) (x : Nat) : Nat :=
  Nat.xor (k.rotr x r.1) (Nat.xor (k.rotr x r.2.1) (Nat.shiftRight x r.2.2))

/-- Word `i` of the 16 that a number holds, the first one the most significant. -/
def Sha.word (k : Sha) (win i : Nat) : Nat := Nat.mod (Nat.shiftRight win (Nat.mul k.w (Nat.sub 15 i))) k.m

/-- The rounds of a block, with their constants; `win` holds the 16 words of the schedule from the next round's on. -/
def Sha.run (k : Sha) (win a b c d e f g h : Nat) : List Nat → ShaVars
  | [] => { a := a, b := b, c := c, d := d, e := e, f := f, g := g, h := h }
  | x :: xs =>
    strict (Nat.add (Nat.add (Nat.add h (k.sum k.sum1 e)) (Nat.add x (k.word win 0)))
      (Nat.xor (Nat.land e f) (Nat.land (Nat.sub (Nat.sub k.m 1) e) g))) fun t1 =>
    strict (Nat.mod (Nat.add (Nat.add t1 (k.sum k.sum0 a))
      (Nat.xor (Nat.land a b) (Nat.xor (Nat.land a c) (Nat.land b c)))) k.m) fun a' =>
    strict (Nat.mod (Nat.add d t1) k.m) fun e' =>
    strict (Nat.add (Nat.mul (Nat.mod win (2 ^ (15 * k.w))) k.m)
      (Nat.mod (Nat.add (Nat.add (k.sig k.sig1 (k.word win 14)) (k.word win 9))
        (Nat.add (k.sig k.sig0 (k.word win 1)) (k.word win 0))) k.m)) fun win' =>
    k.run win' a' a b c e' e f g xs

/-- The hash value after one more block. -/
def Sha.block (k : Sha) (v : ShaVars) (blk : Nat) : ShaVars :=
  let r := k.run blk v.a v.b v.c v.d v.e v.f v.g v.h k.consts
  let add := fun (x y : Nat) => Nat.mod (Nat.add x y) k.m
  strict (add v.a r.a) fun a => strict (add v.b r.b) fun b => strict (add v.c r.c) fun c => strict (add v.d r.d) fun d =>
  strict (add v.e r.e) fun e => strict (add v.f r.f) fun f => strict (add v.g r.g) fun g => strict (add v.h r.h) fun h =>
  { a := a, b := b, c := c, d := d, e := e, f := f, g := g, h := h }

/-- The blocks of a message of `len` bytes, padded. -/
def Sha.blocks (k : Sha) (len v : Nat) : List Nat :=
  let n := ceilDiv (8 * len + 1 + 2 * k.w) (16 * k.w)
  strict ((2 * v + 1) <<< (16 * k.w * n - 8 * len - 1) ||| 8 * len) fun p =>
  (List.range n).map fun i => p >>> (16 * k.w * (n - 1 - i)) % 2 ^ (16 * k.w)

/-- The blocks of a message, one after another. -/
def Sha.hash (k : Sha) : ShaVars → List Nat → ShaVars
  | v, [] => v
  | v, b :: bs => strict b fun b => k.hash (k.block v b) bs

/-- The digest of a message of `len` bytes. -/
def Sha.digest (k : Sha) (len v : Nat) : Nat :=
  let r := k.hash k.init (k.blocks len v)
  foldStrict (fun n x => n <<< k.w ||| x) 0 ([r.a, r.b, r.c, r.d, r.e, r.f, r.g, r.h].take k.out)

/-- SHA-256 of a message of `len` bytes. -/
def sha256 (len v : Nat) : Nat := sha256Kind.digest len v

/-- SHA-384 of a message of `len` bytes. -/
def sha384 (len v : Nat) : Nat := sha384Kind.digest len v

/-! ### ECDSA on P-384 -/

/-- The field prime, the group order, the coefficient b and the generator of P-384. -/
def ecP : Nat := 2 ^ 384 - 2 ^ 128 - 2 ^ 96 + 2 ^ 32 - 1
@[inherit_doc ecP] def ecN : Nat :=
  0xffffffffffffffffffffffffffffffffffffffffffffffffc7634d81f4372ddf581a0db248b0a77aecec196accc52973
@[inherit_doc ecP] def ecB : Nat :=
  0xb3312fa7e23ee7e4988e056be3f82d19181d9c6efe8141120314088f5013875ac656398d8a2ed19d2a85c8edd3ec2aef
@[inherit_doc ecP] def ecGx : Nat :=
  0xaa87ca22be8b05378eb1c71ef320ad746e1d3b628ba79b9859f741e082542a385502f25dbf55296c3a545e3872760ab7
@[inherit_doc ecP] def ecGy : Nat :=
  0x3617de4a96262c6f5d9e98bf9292dc29f8f41dbd289a147ce9da3113b5f0b8c00a60b1ce1d7e819d7a431d7c90ea0e5f

/-- A point in Jacobian coordinates; `z` is 0 for the point at infinity. -/
structure EcPoint where
  x : Nat
  y : Nat
  z : Nat

/-- A point whose coordinates are evaluated, modulo the prime. -/
def mkPoint (x y z : Nat) : EcPoint := strict (x % ecP) fun x => strict (y % ecP) fun y => strict (z % ecP) fun z => ⟨x, y, z⟩

/-- `a - b` modulo the prime, for `b` below it. -/
def ecSub (a b : Nat) : Nat := (a + (ecP - b)) % ecP

/-- Twice a point. -/
def EcPoint.double (p : EcPoint) : EcPoint :=
  strict (p.z * p.z % ecP) fun zz =>
  strict (3 * ecSub p.x zz * (p.x + zz) % ecP) fun m =>
  strict (p.y * p.y % ecP) fun yy =>
  strict (4 * p.x * yy % ecP) fun s =>
  strict (ecSub (m * m) (2 * s % ecP)) fun x =>
  mkPoint x (ecSub (m * ecSub s x) (8 * yy * yy % ecP)) (2 * p.y * p.z)

/-- The sum of two points. -/
def EcPoint.add (p q : EcPoint) : EcPoint :=
  if p.z = 0 then q else if q.z = 0 then p
  else
    strict (p.z * p.z % ecP) fun zp =>
    strict (q.z * q.z % ecP) fun zq =>
    strict (p.x * zq % ecP) fun u =>
    strict (p.y * zq * q.z % ecP) fun v =>
    strict (ecSub (q.x * zp) u) fun h =>
    strict (ecSub (q.y * zp * p.z) v) fun r =>
    if h = 0 then (if r = 0 then p.double else ⟨1, 1, 0⟩)
    else
      strict (h * h % ecP) fun hh =>
      strict (h * hh % ecP) fun hhh =>
      strict (u * hh % ecP) fun w =>
      strict (ecSub (r * r) ((hhh + 2 * w) % ecP)) fun x =>
      mkPoint x (ecSub (r * ecSub w x) (v * hhh % ecP)) (h * p.z * q.z)

/-- `k` times a point, from bit `n - 1` of `k` down, added to twice `n` times `acc`. -/
def EcPoint.mul (p : EcPoint) (k : Nat) : Nat → EcPoint → EcPoint
  | 0, acc => acc
  | n + 1, acc =>
    match acc.double with
    | ⟨x, y, z⟩ => p.mul k n (if k.testBit n then EcPoint.add ⟨x, y, z⟩ p else ⟨x, y, z⟩)

/-- A power modulo `m`, from bit `n - 1` of the exponent down. -/
def powMod (b e m : Nat) : Nat → Nat → Nat
  | 0, acc => acc
  | n + 1, acc => strict (if e.testBit n then acc * acc % m * b % m else acc * acc % m) fun a => powMod b e m n a

/-- Does an uncompressed public key, a signature r and s, and a digest verify (FIPS 186-5). -/
def ecdsaOk (prefix_ qx qy r s digest : Nat) : Bool :=
  let q : EcPoint := ⟨qx, qy, 1⟩
  let w := powMod s (ecN - 2) ecN 384 1
  if prefix_ ≠ 4 ∨ ecP ≤ qx ∨ ecP ≤ qy ∨ (qy * qy) % ecP ≠ (qx * qx * qx + (ecP - 3) * qx + ecB) % ecP ∨
      r = 0 ∨ ecN ≤ r ∨ s = 0 ∨ ecN ≤ s then false
  else
    strict (digest * w % ecN) fun u1 => strict (r * w % ecN) fun u2 =>
    let g : EcPoint := ⟨ecGx, ecGy, 1⟩
    match (g.mul u1 384 ⟨1, 1, 0⟩).add (q.mul u2 384 ⟨1, 1, 0⟩) with
    | ⟨x, _, z⟩ =>
      z != 0 && (r * (z * z) % ecP == x || decide (r + ecN < ecP) && (r + ecN) * (z * z) % ecP == x)

/-! ### LMS -/

/-- The hash of an LMS input: the identifier I, a 4-byte and a 2-byte number, and the bytes that follow, as length and number. -/
def lmsHash (id a b : Nat) (rest : Nat × Nat) : Nat :=
  strict (((id <<< 32 ||| a) <<< 16 ||| b) <<< (8 * rest.1) ||| rest.2) fun m => sha256 (22 + rest.1) m

/-- Chain `i` of a one-time signature from step `j` on, `n` steps. -/
def lmotsChain (id q i : Nat) : Nat → Nat → Nat → Nat
  | 0, _, y => y
  | n + 1, j, y => strict (lmsHash id q i (33, j <<< 256 ||| y)) fun y' => lmotsChain id q i n (j + 1) y'

/-- Digit `i` of the 67 of a message digest with its checksum. -/
def lmotsDigit (digest i : Nat) : Nat :=
  let sum := (List.range 64).foldl (fun n j => n + (15 - digest >>> (4 * j) % 16)) 0
  if i < 64 then digest >>> (4 * (63 - i)) % 16 else sum >>> (4 * (66 - i)) % 16

/-- The root that an authentication path gives for a leaf's hash, from a node up. -/
def lmsRoot (id : Nat) : List Nat → Nat → Nat → Nat
  | [], _, t => t
  | p :: ps, node, t =>
    let pair := if node % 2 = 1 then p <<< 256 ||| t else t <<< 256 ||| p
    strict (lmsHash id (node / 2) 0x8383 (64, pair)) fun t' => lmsRoot id ps (node / 2) t'

/-- Does a 2,668-byte signature verify under a 56-byte public key over a message of `len` bytes (RFC 8554). `pub` and `sig` give
the number in their bytes from an offset on. -/
def lmsOk (pub sig : Nat → Nat → Nat) (len msg : Nat) : Bool :=
  strict (pub 8 16) fun id => strict (sig 0 4) fun q =>
  if pub 0 4 ≠ 7 ∨ pub 4 4 ≠ 3 ∨ sig 4 4 ≠ 3 ∨ sig 2184 4 ≠ 7 ∨ 2 ^ 15 ≤ q then false
  else
    strict (lmsHash id q 0x8181 (32 + len, sig 8 32 <<< (8 * len) ||| msg)) fun d =>
    let z := foldStrict (fun n i =>
      let a := lmotsDigit d i
      n <<< 256 ||| lmotsChain id q i (15 - a) a (sig (40 + 32 * i) 32)) 0 (List.range 67)
    strict (lmsHash id q 0x8080 (32 * 67, z)) fun kc =>
    let leaf := lmsHash id (2 ^ 15 + q) 0x8282 (32, kc)
    lmsRoot id ((List.range 15).map fun i => sig (2188 + 32 * i) 32) (2 ^ 15 + q) leaf == pub 24 32

end Sys2Proof.Machine
end

