-- ==== Sys2Proof/Machine/Descriptors.lean ====
section
/-! DEFINITION. The descriptors of the intake section: camera streams (R237, R246, R248, R249), lidar streams (R263,
R265) and replay sources (R269), and the lines of the hamper they lay out. -/

namespace Sys2Proof.Machine

/-! ### Camera streams -/

/-- Fields of a camera stream descriptor (R237). -/
def camPort (d : Line) : Nat := bytesNat d 1 1
@[inherit_doc camPort] def camVc (d : Line) : Nat := bytesNat d 2 1
@[inherit_doc camPort] def camDt (d : Line) : Nat := bytesNat d 3 1
@[inherit_doc camPort] def camSrc (d : Line) : Nat := bytesNat d 4 1
@[inherit_doc camPort] def camGroup (d : Line) : Nat := bytesNat d 5 1
@[inherit_doc camPort] def camCfa (d : Line) : Nat := bytesNat d 6 1
@[inherit_doc camPort] def camUndist (d : Line) : Bool := bitAt d 56
@[inherit_doc camPort] def camFnum (d : Line) : Bool := bitAt d 57
@[inherit_doc camPort] def camFp8 (d : Line) : Bool := bitAt d 58
@[inherit_doc camPort] def camRecord (d : Line) : Bool := bitAt d 59
@[inherit_doc camPort] def camF (d : Line) : Nat := if bitAt d 60 then 6 else 4
@[inherit_doc camPort] def camW (d : Line) : Nat := bytesNat d 8 2
@[inherit_doc camPort] def camH (d : Line) : Nat := bytesNat d 10 2
@[inherit_doc camPort] def camOW (d : Line) : Nat := bytesNat d 12 2
@[inherit_doc camPort] def camOH (d : Line) : Nat := bytesNat d 14 2
@[inherit_doc camPort] def camNlev (d : Line) : Nat := bytesNat d 16 1
@[inherit_doc camPort] def camPyrf (d : Line) : Nat := bytesNat d 17 1
@[inherit_doc camPort] def camNbuf (d : Line) : Nat := bytesNat d 18 1
@[inherit_doc camPort] def camNroi (d : Line) : Nat := bytesNat d 19 1
@[inherit_doc camPort] def camBand (d : Line) : Nat := bytesNat d 20 1
@[inherit_doc camPort] def camGlog (d : Line) : Nat := bytesNat d 21 1
@[inherit_doc camPort] def camPadl (d : Line) : Nat := bytesNat d 22 1
@[inherit_doc camPort] def camCW (d : Line) : Nat := bytesNat d 100 2
@[inherit_doc camPort] def camCH (d : Line) : Nat := bytesNat d 102 2
@[inherit_doc camPort] def camTieIn (d : Line) : Nat := bytesNat d 104 4
@[inherit_doc camPort] def camTieRel (d : Line) : Nat := bytesNat d 108 4
@[inherit_doc camPort] def camTieRoi (d : Line) : Nat := bytesNat d 112 4
@[inherit_doc camPort] def camTieSrc (d : Line) : Nat := bytesNat d 116 4
@[inherit_doc camPort] def camContext (d : Line) : Nat := bytesNat d 120 2
@[inherit_doc camPort] def camFnumMax (d : Line) : Nat := bytesNat d 122 2
@[inherit_doc camPort] def camPminUs (d : Line) : Nat := bytesNat d 124 4
@[inherit_doc camPort] def camPmaxUs (d : Line) : Nat := bytesNat d 128 4
@[inherit_doc camPort] def camFeToUs (d : Line) : Nat := bytesNat d 132 4
@[inherit_doc camPort] def camSyncUs (d : Line) : Nat := bytesNat d 136 4
@[inherit_doc camPort] def camRemap (d : Line) : Nat := bytesNat d 140 4
@[inherit_doc camPort] def camRoil (d : Line) : Nat := bytesNat d 144 4
@[inherit_doc camPort] def camOutb (d : Line) : Nat := bytesNat d 148 4
@[inherit_doc camPort] def camBufl (d : Line) : Nat := bytesNat d 152 4
@[inherit_doc camPort] def camMsrc (d : Line) : Nat := bytesNat d 156 4

/-- Sizes of the pyramid levels (R246). -/
def pyramidSizes (factor15 : Bool) : Nat → Nat → Nat → List (Nat × Nat)
  | 0, _, _ => []
  | n + 1, w, h =>
    (w, h) :: (if factor15 then pyramidSizes factor15 n (2 * (w / 3)) (2 * (h / 3))
               else pyramidSizes factor15 n (w / 2) (h / 2))

/-- Levels of a stream: width and height. -/
def camLevels (d : Line) : List (Nat × Nat) := pyramidSizes (camPyrf d == 1) (camNlev d) (camOW d) (camOH d)

/-- Lines of a `w` × `h` tensor in the stream's form (R248). -/
def camTensorLines (d : Line) (w h : Nat) : Nat :=
  if camRecord d then ceilDiv h (camF d) * ceilDiv (ceilDiv w (camF d) * 128) 256
  else 3 * h * ceilDiv (w + camPadl d) 256

/-- Lines of one crop (R249). -/
def camCropLines (d : Line) : Nat := camTensorLines d (camCW d) (camCH d)

/-- First line of each level, and the line after the last, within a buffer (R249). -/
def camLevelBase (d : Line) (l : Nat) : Nat :=
  ((camLevels d).take l).foldl (fun n x => n + camTensorLines d x.1 x.2) 0

/-- Line of the frame record within a buffer (R249). -/
def camRecordLine (d : Line) : Nat := camLevelBase d (camNlev d) + camNroi d * camCropLines d

/-- Hamper line of buffer `b` (R249). -/
def camBuffer (d : Line) (b : Nat) : Nat := camOutb d + b * camBufl d

/-- Length in bytes of an input line (R253, code 0x04). -/
def camLineBytes (d : Line) : Nat :=
  if camDt d = 0x2B then camW d * 5 / 4
  else if camDt d = 0x2C then camW d * 3 / 2
  else if camDt d = 0x1E then camW d * 2
  else camW d * 5 / 2

/-- Store key of the frame record of delivered frame `n` (R252, R256). -/
def camRecordKey (d : Line) (n : Nat) : Nat := hamKey (camBuffer d (n % max 1 (camNbuf d)) + camRecordLine d)

/-! ### Lidar streams -/

/-- Fields of a lidar stream descriptor (R263). -/
def lidMac (d : Line) : Nat := bytesNat d 1 1
@[inherit_doc lidMac] def lidSrc (d : Line) : Nat := bytesNat d 2 1
@[inherit_doc lidMac] def lidIpv6 (d : Line) : Bool := bitAt d 24
@[inherit_doc lidMac] def lidVlan (d : Line) : Bool := bitAt d 25
@[inherit_doc lidMac] def lidSeq32 (d : Line) : Bool := bitAt d 26
@[inherit_doc lidMac] def lidSeqBe (d : Line) : Bool := bitAt d 27
@[inherit_doc lidMac] def lidPtchk (d : Line) : Bool := bitAt d 28
@[inherit_doc lidMac] def lidSlotl (d : Line) : Nat := bytesNat d 4 1
@[inherit_doc lidMac] def lidNbuf (d : Line) : Nat := bytesNat d 5 1
@[inherit_doc lidMac] def lidVid (d : Line) : Nat := bytesNat d 6 2 % 4096
@[inherit_doc lidMac] def lidSmac (d : Line) : List Byte := (toBytes d 256).drop 8 |>.take 6
@[inherit_doc lidMac] def lidSip (d : Line) : List Byte := (toBytes d 256).drop 16 |>.take 16
@[inherit_doc lidMac] def lidDport (d : Line) : Nat := bytesNat d 32 2
@[inherit_doc lidMac] def lidSport (d : Line) : Nat := bytesNat d 34 2
@[inherit_doc lidMac] def lidNpkt (d : Line) : Nat := bytesNat d 36 2
@[inherit_doc lidMac] def lidSeqoff (d : Line) : Nat := bytesNat d 38 2
@[inherit_doc lidMac] def lidPaylen (d : Line) : Nat := bytesNat d 40 2
@[inherit_doc lidMac] def lidTsweepUs (d : Line) : Nat := bytesNat d 44 4
@[inherit_doc lidMac] def lidPttolUs (d : Line) : Nat := bytesNat d 48 4
@[inherit_doc lidMac] def lidDesc (d : Line) : Nat := bytesNat d 52 4
@[inherit_doc lidMac] def lidTieIn (d : Line) : Nat := bytesNat d 56 4
@[inherit_doc lidMac] def lidTieRel (d : Line) : Nat := bytesNat d 60 4
@[inherit_doc lidMac] def lidSlot0 (d : Line) : Nat := bytesNat d 64 4
@[inherit_doc lidMac] def lidContext (d : Line) : Nat := bytesNat d 68 2

/-- Hamper line of sweep buffer `b` (R265). -/
def lidBuffer (d : Line) (b : Nat) : Nat := lidSlot0 d + b * (lidNpkt d * lidSlotl d + 1)

/-- Store key of the sweep record of delivered sweep `n` (R265, R267). -/
def lidRecordKey (d : Line) (n : Nat) : Nat :=
  hamKey (lidBuffer d (n % max 1 (lidNbuf d)) + lidNpkt d * lidSlotl d)

/-! ### Replay sources -/

/-- Fields of a replay descriptor (R269). -/
def repInst (d : Line) : Nat := bytesNat d 1 1
@[inherit_doc repInst] def repMv (d : Line) : Nat := bytesNat d 2 1
@[inherit_doc repInst] def repPartialOk (d : Line) : Bool := bitAt d 24
@[inherit_doc repInst] def repCache (d : Line) : Bool := bitAt d 25
@[inherit_doc repInst] def repOutw16 (d : Line) : Bool := bitAt d 26
@[inherit_doc repInst] def repNbkt (d : Line) : Nat := bytesNat d 4 1
@[inherit_doc repInst] def repContext (d : Line) : Nat := bytesNat d 6 2
@[inherit_doc repInst] def repMaxw (d : Line) : Nat := bytesNat d 8 2
@[inherit_doc repInst] def repMaxh (d : Line) : Nat := bytesNat d 10 2
@[inherit_doc repInst] def repPpbmax (d : Line) : Nat := bytesNat d 12 2
@[inherit_doc repInst] def repReql (d : Line) : Nat := bytesNat d 16 4
@[inherit_doc repInst] def repNreq (d : Line) : Nat := bytesNat d 20 4
@[inherit_doc repInst] def repRecl (d : Line) : Nat := bytesNat d 24 4
@[inherit_doc repInst] def repNrec (d : Line) : Nat := bytesNat d 28 4
@[inherit_doc repInst] def repTieReq (d : Line) : Nat := bytesNat d 32 4
@[inherit_doc repInst] def repTieRec (d : Line) : Nat := bytesNat d 36 4
@[inherit_doc repInst] def repTieRrel (d : Line) : Nat := bytesNat d 40 4
@[inherit_doc repInst] def repStage (d : Line) : Nat := bytesNat d 44 4
@[inherit_doc repInst] def repCbase (d : Line) : Nat := bytesNat d 48 8

end Sys2Proof.Machine
end

