-- ==== Sys2Proof/Machine/Slots.lean ====
section
/-! DEFINITION. The two slot tables: the ports and positions of the hamper's crossbar (R293 to R300), the DRAM window and
its slots (R305 to R308), the fit of an image's slot plan (R296, R306), and the first grant that an access finds. Times are
FCLK cycles counted from the start of a DRAM window, which is the start of a hamper round too (R305). -/

namespace Sys2Proof.Machine

/-! ### Ports (R293) -/

/-- The port of a unit at the crossbar: the creel port of a core, the read or the write port of an engine or a mover. -/
def portOf (u : UnitId) (write : Bool) : Nat :=
  let w := boolNat write
  match u with
  | .tc n => n.val
  | .rid i => 0x20 + 2 * i.val + w
  | .skp i => 0x24 + 2 * i.val + w
  | .coil i => 0x28 + 2 * i.val + w
  | .twn i => 0x2C + 2 * i.val + w
  | .plt i => 0x34 + 2 * i.val + w
  | .wal i => 0x38 + 2 * i.val + w
  | .mv m => 0x40 + 2 * m.val + w

/-- The port identifiers in use; 0xFF is no port, and every other one is reserved. -/
def portOk (p : Nat) : Bool := p < 0x10 || (0x20 ≤ p && p < 0x3C) || (0x40 ≤ p && p < 0x54) || p == 0xFF

/-- Positions that a port may hold in one period: 4 for Plait, 1 for every other. -/
def portWidth (p : Nat) : Nat := if 0x34 ≤ p ∧ p < 0x38 then 4 else 1

/-- The port at position `x` in period `p` of a round. -/
def portAt (t : SlotTables) (p x : Nat) : Nat := t.slots.getD (32 * (p % 32) + x % 32) 0xFF

/-- A slot table that R295 allows: positions 0 to 15 belong to the creel ports, every identifier is one of R293, and no port
holds more positions in a period than its width. -/
def slotTableOk (t : SlotTables) : Bool :=
  (List.range 32).all fun p =>
    let row := (t.slots.drop (32 * p)).take 32
    (List.range 16).all (fun x => row.getD x 0xFF == x) && (row.drop 16).all (fun q => portOk q && 0x10 ≤ q) &&
    row.all fun q => q == 0xFF || (row.filter (· == q)).length ≤ portWidth q

/-! ### Phases and plans (R296, R297, R306) -/

/-- The phase of a unit: fixed for a core, from the merge for an engine or a mover. -/
def phaseOf (t : SlotTables) (u : UnitId) : Nat :=
  match u with
  | .tc n => (32 - n.val) % 32
  | .rid i => t.phases.getD i.val 0
  | .skp i => t.phases.getD (2 + i.val) 0
  | .coil i => t.phases.getD (4 + i.val) 0
  | .twn i => t.phases.getD (6 + i.val) 0
  | .plt i => t.phases.getD (10 + i.val) 0
  | .wal i => t.phases.getD (12 + i.val) 0
  | .mv m => t.phases.getD (14 + m.val) 0

/-- The instances of a unit class. -/
def classUnits : UnitClass → List UnitId
  | .rid => (List.finRange 2).map .rid
  | .skp => (List.finRange 2).map .skp
  | .coil => (List.finRange 2).map .coil
  | .twn => (List.finRange 4).map .twn
  | .plt => (List.finRange 2).map .plt
  | .wal => (List.finRange 2).map .wal
  | .mv => (List.finRange 8).map .mv

/-- Has an instance a grant of its class's plan, at the same period and slice from its start as every other instance (R296). -/
def grantHeld (t : SlotTables) (u : UnitId) (g : PlanGrant) : Bool :=
  portAt t (phaseOf t u + g.period) (g.position + 32 - phaseOf t u % 32) == portOf u g.write

/-! ### The DRAM window (R305) -/

/-- A run of DRAM slots: first FCLK offset, slots, direction, rank served. -/
structure DramRun where
  start : Nat
  count : Nat
  write : Bool
  rank : Nat
deriving DecidableEq, Repr

/-- FCLK cycles of a DRAM slot. -/
def dramSlotLen (slow : Bool) : Nat := if slow then 23 else 17

/-- The runs of a window at 8,533 MT/s, or with `slow` at 6,400 MT/s. -/
def dramRuns (slow : Bool) : List DramRun :=
  if slow then
    [⟨320, 18, false, 0⟩, ⟨744, 18, true, 0⟩, ⟨1168, 18, false, 1⟩, ⟨1592, 18, true, 1⟩, ⟨2016, 1, false, 0⟩]
  else
    [⟨320, 24, false, 0⟩, ⟨738, 24, true, 0⟩, ⟨1156, 24, false, 1⟩, ⟨1574, 24, true, 1⟩, ⟨1992, 3, false, 0⟩]

/-- A DRAM slot: FCLK offset, direction and rank. -/
structure DramSlot where
  offset : Nat
  write : Bool
  rank : Nat
deriving DecidableEq, Repr

/-- The slots of a window in order; slot `k` serves bank `k` mod 16. -/
def dramSlots (slow : Bool) : List DramSlot :=
  (dramRuns slow).flatMap fun r => (List.range r.count).map fun i => ⟨r.start + dramSlotLen slow * i, r.write, r.rank⟩

/-- Owner of DRAM slot `k` on channel `c` (R306): 0 to 7 a mover, 8 the Osier cluster, anything else nobody. -/
def dramOwner (t : SlotTables) (k c : Nat) : Nat := t.dram.getD (16 * k + c) 0xFF

/-- A DRAM slot table that R306 allows. -/
def dramTableOk (t : SlotTables) : Bool := t.dram.all fun o => o ≤ 8 || o == 0xFF

/-- Has a mover a DRAM grant of the plan: a slot of the channel that begins the plan's offset after the mover's DRAM phase. -/
def dramGrantHeld (slow : Bool) (t : SlotTables) (m : Fin 8) (g : DramGrant) : Bool :=
  let at_ := (t.dramPhases.getD m.val 0 + g.offset) % 2048
  (dramSlots slow).zipIdx.any fun x => x.1.offset == at_ && x.1.write == g.write && dramOwner t x.2 g.channel == m.val

/-- Do tables give every instance of every class what a plan names (R296, R306). -/
def planHeld (slow : Bool) (t : SlotTables) (p : SlotPlan) : Bool :=
  p.grants.all (fun g => (classUnits g.cls).all fun u => grantHeld t u g) &&
  p.dram.all fun g => (List.finRange 8).all fun m => dramGrantHeld slow t m g

/-- The unit whose port this is, and whether it is the write port, for the ports of engines and movers. -/
def portUnit (port : Nat) : Option (UnitClass × UnitId × Bool) :=
  ([UnitClass.rid, .skp, .coil, .twn, .plt, .wal, .mv]).findSome? fun c =>
    (classUnits c).findSome? fun u =>
      if port = portOf u false then some (c, u, false) else if port = portOf u true then some (c, u, true) else none

/-- Is a grant at position `x` of period `p` to a unit's port one that a plan names. -/
def slotPlanned (t : SlotTables) (plans : List SlotPlan) (p x : Nat) (c : UnitClass) (u : UnitId) (w : Bool) : Bool :=
  plans.any fun plan => plan.grants.any fun g =>
    g.cls == c && g.write == w && (phaseOf t u + g.period) % 32 == p && (g.position + 32 - phaseOf t u % 32) % 32 == x

/-- Is a DRAM slot of mover `m` on a channel one that a plan names. -/
def dramPlanned (t : SlotTables) (plans : List SlotPlan) (k : DramSlot) (ch m : Nat) : Bool :=
  plans.any fun plan => plan.dram.any fun g =>
    g.channel == ch && g.write == k.write && (t.dramPhases.getD m 0 + g.offset) % 2048 == k.offset

/-- Do tables give engines and movers no grant that no plan names: every instance sees exactly its class's plans (R296). -/
def noOther (slow : Bool) (t : SlotTables) (plans : List SlotPlan) : Bool :=
  (t.slots.zipIdx.all fun q => q.1 == 0xFF || q.2 % 32 < 16 ||
    match portUnit q.1 with
    | none => true
    | some (c, u, w) => slotPlanned t plans (q.2 / 32) (q.2 % 32) c u w) &&
  t.dram.zipIdx.all fun o => 8 ≤ o.1 ||
    match (dramSlots slow)[o.2 / 16]? with
    | none => true
    | some k => dramPlanned t plans k (o.2 % 16) o.1

/-! ### The merge of the plans (R296, R306) -/

/-- The classes that a plan names, in the order of the phases. -/
def planClasses : List UnitClass := [.rid, .skp, .coil, .twn, .plt, .wal, .mv]

/-- The grants that one instance of a class needs for all plans: a grant that two plans name is one. -/
def classGrants (plans : List SlotPlan) (c : UnitClass) : List PlanGrant :=
  ((plans.flatMap (·.grants)).filter (·.cls == c)).eraseDups

/-- The table entries, with their ports, that a unit takes at a phase. -/
def unitSlots (u : UnitId) (gs : List PlanGrant) (phase : Nat) : List (Nat × Nat) :=
  gs.map fun g => (32 * ((phase + g.period) % 32) + (g.position + 32 - phase) % 32, portOf u g.write)

/-- Do new entries fit beside those in use: at positions of the table, one port each, no port wider than it is (R295). -/
def slotsFit (used new : List (Nat × Nat)) : Bool :=
  new.all fun x => decide (16 ≤ x.1 % 32) && ((used ++ new).all fun y => y.1 != x.1 || y == x) &&
    decide ((new.filter fun y => y.2 == x.2 && y.1 / 32 == x.1 / 32).length ≤ portWidth x.2)

/-- Phases for the units of a list and the entries in use with them, if there are any; a unit without grants takes phase 0. -/
def findPhases : List (UnitId × List PlanGrant) → List (Nat × Nat) → Option (List Nat × List (Nat × Nat))
  | [], used => some ([], used)
  | x :: rest, used => (if x.2.isEmpty then [0] else List.range 32).findSome? fun ph =>
      let new := unitSlots x.1 x.2 ph
      if slotsFit used new then (findPhases rest (used ++ new)).map fun r => (ph :: r.1, r.2) else none

/-- The DRAM slots, as entries of the DRAM table, that a mover takes at a DRAM phase; none where the window has no such slot. -/
def moverSlots (slow : Bool) (gs : List DramGrant) (phase : Nat) : Option (List Nat) :=
  gs.mapM fun g => ((dramSlots slow).zipIdx.find? fun x =>
    x.1.offset == (phase + g.offset) % 2048 && x.1.write == g.write).map fun x => 16 * x.2 + g.channel

/-- DRAM phases for the movers from `m` on and the entries in use with them, if there are any. -/
def findDram (slow : Bool) (gs : List DramGrant) : List Nat → List (Nat × Nat) → Option (List Nat × List (Nat × Nat))
  | [], used => some ([], used)
  | m :: rest, used => (if gs.isEmpty then [0] else List.range 2048).findSome? fun ph =>
      match moverSlots slow gs ph with
      | some new =>
        if new.all fun k => used.all fun y => y.1 != k then
          (findDram slow gs rest (used ++ new.map fun k => (k, m))).map fun r => (ph :: r.1, r.2)
        else none
      | none => none

/-- The slot table over the entries in use: the creel ports, and at the first free positions of each period those of the host
endpoint and the Osier cluster (R295, R302, log 13). -/
def slotsOver (used : List (Nat × Nat)) : List Nat :=
  (List.range 1024).map fun i =>
    let owner := fun j => (used.find? (·.1 == j)).map (·.2)
    if i % 32 < 16 then i % 32
    else match owner i with
      | some p => p
      | none =>
        let n := ((List.range (i % 32 - 16)).filter fun x => (owner (i / 32 * 32 + 16 + x)).isNone).length
        if n < 4 then 0x50 + n else 0xFF

/-- The tables of a merge of plans, if one exists: a search over every phase of every unit (R296, R306). -/
def foundTables (slow : Bool) (plans : List SlotPlan) : Option SlotTables :=
  match findPhases (planClasses.flatMap fun c => (classUnits c).map fun u => (u, classGrants plans c)) [],
        findDram slow (plans.flatMap (·.dram)).eraseDups (List.range 8) [] with
  | some a, some b => some {
      slots := slotsOver a.2, phases := a.1
      dram := (List.range 1584).map fun i => ((b.2.find? (·.1 == i)).map (·.2)).getD 0xFF
      dramPhases := b.1 }
  | _, _ => none

/-! ### The first grant of an access (R298, R306, R317) -/

/-- The first period from `q` on, of the `n` after it, in which a port reaches a slice. -/
def nextPeriod (t : SlotTables) (port slice : Nat) : Nat → Nat → Option Nat
  | 0, _ => none
  | n + 1, q =>
    if portAt t q (slice + 32 - q % 32) == port then some q else nextPeriod t port slice n (q + 1)

/-- Has a port a grant in which it reaches the slice of a hamper line (R293, R294, R302). -/
def State.portReaches (s : State) (port line : Nat) : Bool := (nextPeriod s.disp.tables port (line % 32) 32 0).isSome

/-- Has the Osier cluster a grant to read or to write the line of a store key (R302). -/
def State.osierGrant (s : State) (write : Bool) (k : Nat) : Bool := s.portReaches (0x52 + boolNat write) (k - 0x100000000)

/-- Can Protil read a record in the hamper: a grant reaches it and its tag is good (R15, R302). -/
def State.osierSees (s : State) (k : Nat) : Bool := s.osierGrant false k && s.tagOk k

/-- The earlier of two optional times. -/
def minOpt (a b : Option Nat) : Option Nat :=
  match a, b with
  | some x, some y => some (min x y)
  | none, y => y
  | x, none => x

/-- What moves one line in a grant: a DRAM channel, or the port of a creel (R293, R305). -/
def grantOf (key : Nat) : Nat := if key < 0x10000000 then key % 16 else 16 + (key - 0x110000000) / 0x10000

/-- The first of the times `t`, `t + step`, … in which no access has taken the grant of `g`; fuel is the number taken. -/
def freeGrant (taken : List (Nat × Nat)) (step g : Nat) : Nat → Nat → Nat
  | 0, t => t
  | n + 1, t => if taken.contains (t, g) then freeGrant taken step g n (t + step) else t

/-- The start of the first DRAM slot from FCLK `t` on that a mover owns, that serves line `l` and that its command has not
taken (R305, R306). -/
def nextDram (s : State) (m : Fin 8) (write : Bool) (l t : Nat) (taken : List (Nat × Nat) := []) : Option Nat :=
  (dramSlots s.dram.rate).zipIdx.foldl (fun (b : Option Nat) x =>
    if x.1.write == write && x.2 % 16 == l / 16 % 16 && (!s.dram.ranks || x.1.rank == l / 256 % 2) &&
       dramOwner s.disp.tables x.2 (l % 16) == m.val then
      minOpt b (some (freeGrant taken 2048 (l % 16) taken.length (t + (x.1.offset + 2048 - t % 2048) % 2048)))
    else b) none

/-- When a mover's access of a device line, possible from FCLK `t` on, begins and completes: at the first matching hamper
grant, at the next slot period of a creel port (log 76) or in the first DRAM slot that its command has not taken; none where no
grant ever comes. -/
def nextAccess (s : State) (m : Fin 8) (write : Bool) (key t : Nat) (taken : List (Nat × Nat) := []) : Option (Nat × Nat) :=
  if key < 0x10000000 then (nextDram s m write key t taken).map fun x => (x, x + dramSlotLen s.dram.rate)
  else if key < 0x110000000 then
    (nextPeriod s.disp.tables (portOf (.mv m) write) (key % 32) 32 ((t + 3) / 4)).map fun q => (4 * q, 4 * q + 4)
  else
    let x := freeGrant taken 4 (grantOf key) taken.length (4 * ((t + 3) / 4))
    some (x, x + 4)

end Sys2Proof.Machine
end

