-- ==== Sys2Proof/Machine/Frames.lean ====
section
/-! DEFINITION. Rings' status replies (R365, R370 to R372), diagnostic intervals (R348 to R350), the origin of a frame
(R332), and the begin and the end of a frame (R24 to R28, R331, R345). -/

namespace Sys2Proof.Machine

/-! ### Replies -/

/-- The ring pair of a number: 0 is the admin ring (R363). -/
def State.ringOf (s : State) (ring : Nat) : Option Ring := if ring = 0 then s.hif.admin else (s.ctx ring).ring

/-- Replace a ring pair. -/
def State.setRing (s : State) (ring : Nat) (r : Option Ring) : State :=
  if ring = 0 then { s with hif := { s.hif with admin := r } } else s.modCtx ring fun x => { x with ring := r }

/-- The 32 bytes of a status reply (R371). -/
def replyBytes (r : Reply) (rnum : Word) : List Byte :=
  [BitVec.ofNat 8 r.status, BitVec.ofNat 8 r.typ] ++ natToBytes 2 r.ctx ++ natToBytes 4 r.seq.toNat ++
  natToBytes 4 r.frame ++ natToBytes 4 rnum.toNat ++ natToBytes 12 r.time.toNat ++ natToBytes 4 r.cycles

/-- May reply `r` of a ring be written (R365). -/
def Ring.room (r : Ring) : Bool := decide ((r.r - r.rqHead).toNat < 2 ^ r.rqLog2)

/-- May the next reply of a ring be written: the ring has room, and in the hamper, where the bytes join those of a line, the Osier
cluster has the grants to read and to write that line (R302, R365). -/
def State.replyMay (s : State) (r : Ring) : Bool :=
  r.room && (r.rqHost || ([false, true].all fun w => s.osierGrant w ((r.rqAddr + 32 * (r.r.toNat % 2 ^ r.rqLog2)) / 256)))

/-- Write one reply (R365, R372): its entry, then its MSI-X message. The device issues no host address from 2^48 on (R355), so an
entry of an admin ring that lies there is not written (log 110). -/
def State.putReply (s : State) (ring : Nat) (r : Ring) (rep : Reply) : State :=
  let addr := r.rqAddr + 32 * (r.r.toNat % 2 ^ r.rqLog2)
  let b := replyBytes rep (r.r + 1#32)
  let s := if r.rqHost then (if addr < 2 ^ 48 then s.emit (.hostWrite addr b) else s)
    else s.putLine (addr / 256) (lineSetBytes (s.line (addr / 256)) (addr % 256) b)
  let s := s.setRing ring (some { r with r := r.r + 1#32, waiting := r.waiting.drop 1 })
  if rep.noirq then s else s.msix r.vector

/-- Write the replies of a ring that may be written, up to and not including one that ends a frame. Fuel bounds the
replies written. -/
def State.writeWaiting (ring : Nat) : Nat → State → State
  | 0, s => s
  | n + 1, s =>
    match s.ringOf ring with
    | none => s
    | some r =>
      match r.waiting with
      | [] => s
      | rep :: _ => if rep.frameEnd || !s.replyMay r then s else State.writeWaiting ring n (s.putReply ring r rep)

/-- Queue a reply on a ring (R370); a ring that is not open takes none. -/
def State.queueReply (s : State) (ring : Nat) (rep : Reply) : State :=
  match s.ringOf ring with
  | none => s
  | some r => s.setRing ring (some { r with waiting := r.waiting ++ [rep] })

/-- A packet's reply (R371). -/
def State.packetReply (s : State) (status ctx : Nat) (seq : Word) (frame : Nat) (noirq : Bool) : Reply :=
  { status := status, typ := 0, ctx := ctx, seq := seq, frame := frame, time := s.nowWord, cycles := 0, noirq := noirq,
    frameEnd := false }

/-- Answer a packet. -/
def State.answer (s : State) (ring status ctx : Nat) (seq : Word) (frame : Nat) (noirq : Bool) : State :=
  State.writeWaiting ring 64 (s.queueReply ring (s.packetReply status ctx seq frame noirq))

/-! ### Diagnostic intervals -/

/-- Does a unit's test run beside its other work, so that it starts with the interval (R349). -/
def testsInIdle : UnitId → Bool
  | .rid _ => true
  | .skp _ => true
  | _ => false

/-- Is slot 7 of a Skep instance free for its tally test (R290). -/
def State.slotSeven (s : State) : UnitId → Bool
  | .skp n => (s.skeps[n].slots[7]).isNone
  | _ => true

/-- A diagnostic interval begins (R348 to R350). A test under way started in the interval that ends, and the new interval's waits
for its end. -/
def State.beginInterval (s : State) : State :=
  let s := allUnits.foldl (fun s u => s.modUnit u fun x =>
    let on := s.enabled u && !x.regs.quarantine
    let old := x.tallyOld || testsInIdle u && x.tallyRunning
    { x with
        tallyRunning := on && testsInIdle u && s.slotSeven u && !old
        tallyOld := old
        regs := { x.regs with
          unverified := x.regs.unverified || x.regs.tallyPending
          tallyPending := if on then true else x.regs.tallyPending } }) s
  { s with disp := { s.disp with interval := s.disp.interval + 1 } }

/-! ### Origin and sources -/

/-- Camera streams of the device with their descriptors, by instance and slot. -/
def State.camStreams (s : State) : List (CamSlot × Line) :=
  (s.cams.toList.flatMap fun v => v.toList).filterMap fun x => x.desc.map fun d => (x, d)

/-- Lidar streams of the device. -/
def State.lidStreams (s : State) : List (LidarSlot × Line) :=
  s.lidars.toList.filterMap fun x => x.desc.map fun d => (x, d)

/-- The capture time in a source entry's line, in ns of the device time base (R26). -/
def entryNs (l : Line) : Nat := (bytesNat l 12 6 * 1000000000 + bytesNat l 8 4) % 2 ^ 64

/-- The capture time in a record's line; none where Protil cannot read it (R15, R302,
log 81). -/
def State.entryTime (s : State) (k : Nat) : Option Nat := if s.osierSees k then some (entryNs (s.line k)) else none

/-- The sources of ORIGIN_SET: records of frame `f`, or none where its delivery is missing (R332). -/
def State.originRecords (s : State) (x : Ctx) (f : Nat) : List (Option Nat) :=
  let on := fun i => bitAt x.originSet i
  (s.camStreams.filter fun y => on (camSrc y.2)).map (fun y =>
    if f < y.1.n then s.entryTime (camRecordKey y.2 f) else none) ++
  (s.lidStreams.filter fun y => 0x20 ≤ lidSrc y.2 && on (24 + (lidSrc y.2 - 0x20))).map fun y =>
    if f < y.1.s then s.entryTime (lidRecordKey y.2 f) else none

/-- Set the origin of the current frame once it is known (R332). -/
def State.tryOrigin (s : State) (c : Nat) : State :=
  let x := s.ctx c
  match x.run with
  | none => s
  | some f =>
    if f.originKnown then s
    else
      let known := fun ns => s.setCtx c { x with
        origin := BitVec.ofNat 64 ns
        run := some { f with originKnown := true } }
      if bitAt (BitVec.ofNat 8 x.flags) 1 then
        match f.req with
        | some q => known q.accepted
        | none => s
      else
        let rs := s.originRecords x x.frame.toNat
        if rs.isEmpty || rs.any Option.isNone then s
        else
          let ns := rs.filterMap fun o => o
          known (ns.foldl min (ns.headD 0))

/-- A delivery may make the origins of frames known. -/
def State.tryOrigins (s : State) : State :=
  (s.ctxs.map (·.1)).foldl (fun s c => s.tryOrigin c) s

/-- Insert by a key, ascending. -/
def insertBy (e : Nat × List Byte) : List (Nat × List Byte) → List (Nat × List Byte)
  | [] => [e]
  | x :: xs => if e.1 ≤ x.1 then e :: x :: xs else x :: insertBy e xs

/-- The source entries of frame `f` of a context (R26, R256, R267, R281): camera streams, then lidar streams, each by SRC_ID,
then replay samples emitted with index `f`, by descriptor and bucket. A record that Protil cannot read gives no entry (R15,
R302, log 81). Of more than 32 entries, for which R26 has no place and no rule, the first 32 of this order stay (DESIGN CHOICE,
log 115). -/
def State.sources (s : State) (c f : Nat) : List (List Byte) :=
  let cams := s.camStreams.filterMap fun y =>
    if y.1.ctx = c ∧ f < y.1.n ∧ s.osierSees (camRecordKey y.2 f) then some (camSrc y.2, (toBytes (s.line (camRecordKey y.2 f)) 24)) else none
  let lids := s.lidStreams.filterMap fun y =>
    if y.1.ctx = c ∧ f < y.1.s ∧ s.osierSees (lidRecordKey y.2 f) then some (lidSrc y.2, (toBytes (s.line (lidRecordKey y.2 f)) 24)) else none
  let reps := (s.skeps.toList.flatMap (·.descs)).flatMap fun d =>
    if d.ctx = c ∧ !d.closed then
      (List.range (min d.r (repNrec d.desc))).filterMap fun i =>
        let k := hamKey (repRecl d.desc + (d.r - 1 - i) % max 1 (repNrec d.desc))
        let l := s.line k
        if s.osierSees k ∧ bytesNat l 4 4 = f ∧ bytesNat l 3 1 < 8 then some (bytesNat l 3 1, (toBytes l 48).drop 24) else none
    else []
  ((cams.foldl (fun l e => insertBy e l) []) ++ (lids.foldl (fun l e => insertBy e l) []) ++
    (reps.foldl (fun l e => insertBy e l) [])).map (·.2) |>.take 32

/-! ### Frames -/

/-- STEP. -/
def Ctx.step (x : Ctx) : Bool := bitAt (BitVec.ofNat 8 x.flags) 0

/-- SCRIPTED. -/
def Ctx.scripted (x : Ctx) : Bool := bitAt (BitVec.ofNat 8 x.flags) 2

/-- Logical cores of a context, lowest first (R335). -/
def State.logicalCores (s : State) (x : Ctx) : List Nat :=
  (List.finRange 16).filterMap fun n =>
    if x.coreMask.getLsbD n.val && s.enabled (.tc n) && !(s.unit (.tc n)).regs.quarantine then some n.val else none

/-- The fall-back entry that a lost peer of the image imposes (R465): the lowest over the peers that are down. -/
def Ctx.peerEntry (x : Ctx) : Option Nat :=
  match x.img with
  | none => none
  | some g => (g.peers.filter fun p => x.downPeers.contains p.1).foldl
      (fun m p => match m with
        | none => some p.2
        | some k => some (min k p.2)) none

/-- A frame begins (R331, R335, R347, R465). -/
def State.beginFrame (s : State) (c : Nat) (req : Option FrameReq) : State :=
  let x := s.ctx c
  let nq := match x.img with
    | some g => g.queues.length
    | none => 0
  let f : FrameRun :=
    { req := req, begunNs := s.nowNs, heads := List.replicate nq 0, fbHeads := [], originKnown := false, reached := [],
      switched := false, firstPlaced := false, stallLogged := false, missLogged := false, fallback := false,
      unverified := false, rimFlagged := false, configFault := false, aborted := false, logical := s.logicalCores x,
      released := none, outTags := [] }
  let s := (s.setCtx c { x with run := some f, ckptLast := 0, path := 0 }).tryOrigin c
  if x.scripted then
    match req with
    | some q => if q.path = 1 then s.switchFrame c 0 else s
    | none => s
  else
    match x.peerEntry with
    | some k => if x.cls = 0 then s.switchFrame c k else s
    | none => s

/-- Begin the next frame of a context where one may begin (R331, R369). -/
def State.nextFrame (s : State) (c : Nat) : State :=
  let x := s.ctx c
  if x.state != .run || x.run.isSome || x.prelude ≠ 0 || s.hoop.inReset || !s.computeUp then s
  else if x.step then
    match x.reqs with
    | [] => s
    | q :: rest => (s.setCtx c { x with reqs := rest }).beginFrame c (some q)
  else s.beginFrame c none

/-- Has a frame placed everything on its path (R331). -/
def Ctx.allPlaced (x : Ctx) (f : FrameRun) : Bool :=
  match x.img with
  | none => true
  | some g =>
    let qs := if f.fallback then (match g.fallback with | some fb => fb.queues | none => []) else g.queues
    let hs := if f.fallback then f.fbHeads else f.heads
    (List.range qs.length).all fun i => (qs.getD i []).length ≤ hs.getD i 0

/-- Runs a unit a command of a context's frame. -/
def State.frameRunning (s : State) (c : Nat) : Bool :=
  s.units.toList.any fun u => match u.run with
    | some p => p.ctx == c && (match p.origin with
      | .queue .. => true
      | .replay .. => true
      | _ => false)
    | none => false

/-- Waits a replay of a context. -/
def State.replayWaiting (s : State) (c : Nat) : Bool := s.disp.replays.any fun r => r.ctx == c

/-- Has the current frame of a context reached its end (R331, R373): `some aborted`. -/
def State.frameOver (s : State) (c : Nat) : Option Bool :=
  let x := s.ctx c
  match x.run with
  | none => none
  | some f =>
    if s.frameRunning c then none
    else
      let whole := x.allPlaced f && !s.replayWaiting c
      if f.aborted then some true
      else if whole then some false
      else if x.aborting then some true
      else none

/-- The lines that TAG_DIGEST covers, as the frame wrote them (R27): outputs in the declared order, lines ascending; a line that the
frame did not write is not covered. -/
def State.outputNotes (s : State) (x : Ctx) (f : FrameRun) : List OutNote :=
  x.outputs.flatMap fun o => (List.range o.lines).filterMap fun i =>
    match (s.outputTarget x o i).bind outKey with
    | some k => sparseGet none f.outTags k
    | none => none

/-- The note of the last write among some. -/
def lastNote (l : List OutNote) : Option OutNote :=
  l.foldl (fun m n => match m with
    | none => some n
    | some b => if b.halves ≤ n.halves then some n else some b) none

/-- FLAGS of the provenance record (R28). -/
def provFlags (f : FrameRun) (srcs : List (List Byte)) : Nat :=
  let any := fun b => srcs.any fun e => bitAt (e.getD 2 0#8) b
  boolNat f.switched + 2 * boolNat f.unverified + 4 * boolNat f.rimFlagged + 8 * boolNat (any 0) + 16 * boolNat (any 1)

/-- DONE_TIME of a frame (R26): the last output write, or the frame's end where it wrote no output. -/
def State.doneTime (s : State) (x : Ctx) (f : FrameRun) : BitVec 96 :=
  match lastNote (s.outputNotes x f) with
  | some n => n.time
  | none => s.nowWord

/-- The provenance record of a frame (R26). -/
def State.provenance (s : State) (c : Nat) (x : Ctx) (f : FrameRun) : List Byte :=
  let srcs := s.sources c x.frame.toNat
  let tags := (s.outputNotes x f).map (·.tag)
  natToBytes 2 1 ++ natToBytes 2 srcs.length ++ natToBytes 2 c ++ natToBytes 2 (provFlags f srcs) ++
  natToBytes 4 x.frame.toNat ++ natToBytes 4 (if f.switched then x.fbId else x.graphId).toNat ++
  natToBytes 8 x.rkey.toNat ++ natToBytes 8 (crc64 (tags.flatMap fun t => natToBytes 4 t.toNat)) ++
  natToBytes 4 tags.length ++ natToBytes 4 0 ++ natToBytes 12 (s.doneTime x f).toNat ++ List.replicate 12 0#8 ++
  srcs.flatten

/-- Write the provenance record (R24, R26). -/
def State.writeProvenance (s : State) (c : Nat) (x : Ctx) (f : FrameRun) : State :=
  match x.img with
  | none => s
  | some g =>
    match s.translate x.windows.toList (g.pbase + 1024 * (x.frame.toNat % max 1 g.nprec)) true with
    | some (.host a) => s.emit (.hostWrite a (s.provenance c x f))
    | _ => s

/-- CYCLES of a frame reply (R371): ACLK cycles from the release of its first command to the write of its last output line. The
release and the command's end fall within a TCLK tick, which is 5.5 ACLK cycles whatever the rate (R485); where in it is free
(log 67). -/
def State.frameCycles (s : State) (x : Ctx) (f : FrameRun) : Nat :=
  match f.released, lastNote (s.outputNotes x f) with
  | some r, some n => min 0xFFFFFFFF ((n.halves - 11 * r + 11) / 2 - (Config.freeCycle s.freeCtr).toNat % 12)
  | _, _ => 0

/-- The status of a frame reply (R25, R373). -/
def frameStatus (f : FrameRun) (aborted : Bool) : Status :=
  if aborted then .aborted
  else if f.switched then .deadlineFallback
  else if f.unverified then .unverifiedUnit
  else .done

/-- Step 1 of a frame's end (R331): both reconciliation lists. -/
def State.reconcile (s : State) (x : Ctx) : State :=
  match x.img with
  | none => s
  | some g =>
    let l := g.recon ++ (match g.fallback with | some fb => fb.recon | none => [])
    l.foldl (fun s e => s.tieSet e.tie (e.e + e.s * (x.frame + 1#32))) s

/-- What follows a frame's reply (R331 step 3, R348, R368, R373, R441): the outcome is kept, an ABORT is answered, FRAME
increments, a waiting stop or a configuration fault takes effect, an interval may begin, the next frame begins. -/
def State.finishFrame (s : State) (c : Nat) (aborted : Bool) : State :=
  let x := s.ctx c
  match x.run with
  | none => s
  | some f =>
    let st := if aborted then Status.aborted else .doneAbortLate
    let aborts := x.waitPkt.filter fun w => w.isAbort && !w.silent && w.frame == x.frame.toNat
    let stops := x.waitPkt.filter fun w => !w.isAbort
    let told := stops.filter fun w => !w.silent
    let s := aborts.foldl (fun s w =>
      s.queueReply (if w.admin then 0 else c) (s.packetReply st.code c w.seq w.frame w.noirq)) s
    let stopped := f.configFault
    let s := if stopped then
        told.foldl (fun s w => s.queueReply 0 (s.packetReply Status.fenced.code c w.seq 0 w.noirq))
          (x.reqs.foldl (fun s q => s.queueReply c (s.packetReply Status.fenced.code c q.seq 0 q.noirq)) s)
      else told.foldl (fun s w => s.queueReply 0 (s.packetReply Status.done.code c w.seq 0 w.noirq)) s
    let s := s.modCtx c fun y => { y with
      run := none
      waitPkt := []
      path := 0
      frame := y.frame + 1#32
      outcomes := ((x.frame.toNat, !aborted) :: y.outcomes).take 256
      nFallback := if f.switched && !aborted then y.nFallback + 1#32 else y.nFallback
      nUnverified := if f.unverified then y.nUnverified + 1#32 else y.nUnverified
      state := if stopped then .stopped else if stops.isEmpty then y.state else .loaded
      reqs := if stopped || !stops.isEmpty then [] else y.reqs
      nextReq := if stopped || !stops.isEmpty then y.frame + 1#32 else y.nextReq }
    let s := { s with disp := { s.disp with replays := s.disp.replays.filter fun r => r.ctx != c } }
    let s := if c ≠ 0 ∧ c = s.disp.diagCtx then s.beginInterval else s
    (State.writeWaiting 0 64 s).nextFrame c

/-- Write the replies of a ring, finishing frames whose replies are written. -/
def State.flushRing (ring : Nat) : Nat → State → State
  | 0, s => s
  | n + 1, s =>
    match s.ringOf ring with
    | none => s
    | some r =>
      match r.waiting with
      | [] => s
      | rep :: _ =>
        if !s.replyMay r then s
        else
          let s := s.putReply ring r rep
          let s := if rep.frameEnd then s.finishFrame ring (rep.status == Status.aborted.code) else s
          State.flushRing ring n s

/-- Is the reply of the current frame of a context already waiting. -/
def Ctx.replied (x : Ctx) : Bool := match x.ring with
  | some r => r.waiting.any (·.frameEnd)
  | none => false

/-- The end of a frame (R24 to R28, R331, R345, R373): ties, record, reply; what follows the reply waits for it. -/
def State.endFrame (s : State) (c : Nat) (aborted : Bool) : State :=
  let x := s.ctx c
  match x.run with
  | none => s
  | some f =>
    let s := s.reconcile x
    let s := if aborted then s else s.writeProvenance c x f
    let late := f.switched && !aborted && x.cls == 0 && f.originKnown &&
      decide (x.origin.toNat + 1000 * x.deadlineUs.toNat < s.nowNs)
    let s := if late then s.event .deadlineMiss (words [c, x.frame.toNat]) else s
    let cycles := if aborted then 0 else s.frameCycles x f
    let s := { s with freeCtr := s.freeCtr + 1 }
    let rep : Reply :=
      { status := (frameStatus f aborted).code, typ := 1, ctx := c,
        seq := match f.req with
          | some q => q.seq
          | none => 0xFFFFFFFF#32,
        frame := x.frame.toNat, time := s.doneTime x f, cycles := cycles,
        noirq := match f.req with
          | some q => q.noirq
          | none => false,
        frameEnd := true }
    match x.ring with
    | none => s.finishFrame c aborted
    | some _ => if x.hushed then s.finishFrame c aborted else State.flushRing c 64 (s.queueReply c rep)

end Sys2Proof.Machine
end

