-- ==== Sys2Proof/Machine/Ethernet.lean ====
section
/-! DEFINITION. The Ethernet MACs (R262, R268, R475) and lidar intake (R263 to R267). Frame layouts are those of IEEE 802.3,
802.1Q, 1588 and of IP and UDP (PRESUMED, log 23). -/

namespace Sys2Proof.Machine

/-! ### Bytes of a frame -/

/-- A byte of a frame. -/
def byteAt (b : Array Byte) (i : Nat) : Nat := (b.getD i 0#8).toNat

/-- A big-endian number of `n` bytes. -/
def beNat (b : Array Byte) (i n : Nat) : Nat := (List.range n).foldl (fun v k => 256 * v + byteAt b (i + k)) 0

/-- `n` bytes from offset `i`. -/
def slice (b : Array Byte) (i n : Nat) : List Byte := (List.range n).map fun k => b.getD (i + k) 0#8

/-- Ones' complement sum of the 16-bit words of a byte string (RFC 1071). -/
def onesSum : List Byte → Nat
  | [] => 0
  | [a] => a.toNat * 256
  | a :: b :: rest => a.toNat * 256 + b.toNat + onesSum rest

/-- Fold a sum to 16 bits. -/
def fold16 (n : Nat) : Nat := if n = 0 then 0 else (n - 1) % 65535 + 1

/-- Is the frame check sequence right: CRC-32 of the frame in its last four bytes. -/
def fcsOk (b : List Byte) : Bool :=
  b.length ≥ 18 && natOfBytes (b.drop (b.length - 4)) == crc32 (b.take (b.length - 4))

/-- The VLAN ID, if tagged, and the offset of the EtherType. -/
def vlanOf (b : Array Byte) : Option Nat × Nat :=
  if beNat b 12 2 = 0x8100 then (some (beNat b 14 2 % 4096), 16) else (none, 12)

/-- EtherType. -/
def etherType (b : Array Byte) : Nat := beNat b (vlanOf b).2 2

/-! ### Lidar streams -/

/-- Change a lidar slot. -/
def State.modLidar (s : State) (k : Fin 8) (f : LidarSlot → LidarSlot) : State :=
  { s with lidars := s.lidars.set k (f s.lidars[k]) }

/-- Change a MAC. -/
def State.modMac (s : State) (m : Fin 4) (f : MacState → MacState) : State := { s with macs := s.macs.set m (f s.macs[m]) }

/-- An IP packet carrying UDP, as the checks see it. -/
structure Udp where
  sip : List Byte
  sport : Nat
  dport : Nat
  sumOk : Bool
  payload : List Byte
deriving DecidableEq, Repr

/-- IPv6 extension headers. -/
def ipv6Ext (n : Nat) : Bool := [0, 43, 44, 50, 51, 60, 135].contains n

/-- Check 2 of R264 on the IP header at offset `o`; `some none` is a well-formed packet that carries no UDP. -/
def ipCheck (b : Array Byte) (ipv6 : Bool) (o : Nat) : Option (Option Udp) :=
  let udp := fun (u len : Nat) (sip : List Byte) (pseudo : List Byte) (must : Bool) =>
    let ulen := beNat b (u + 4) 2
    let sum := beNat b (u + 6) 2
    let body := slice b u ulen
    some (some { sip := sip, sport := beNat b u 2, dport := beNat b (u + 2) 2,
                 sumOk := (if sum = 0 then !must else fold16 (onesSum (pseudo ++ body)) == 65535) && 8 ≤ ulen && ulen ≤ len,
                 payload := slice b (u + 8) (ulen - 8) })
  if ipv6 then
    let len := beNat b (o + 4) 2
    let nh := byteAt b (o + 6)
    if byteAt b o / 16 ≠ 6 ∨ o + 40 + len + 4 > b.size ∨ ipv6Ext nh then none
    else if nh ≠ 17 then some none
    else udp (o + 40) len (slice b (o + 8) 16)
      (slice b (o + 8) 32 ++ (natToBytes 4 (beNat b (o + 44) 2)).reverse ++ [0#8, 0#8, 0#8, 17#8]) true
  else
    let len := beNat b (o + 2) 2
    if byteAt b o ≠ 0x45 ∨ fold16 (onesSum (slice b o 20)) ≠ 65535 ∨ beNat b (o + 6) 2 % 2 ^ 14 ≠ 0 ∨ len < 20 ∨
       o + len + 4 > b.size then none
    else if byteAt b (o + 9) ≠ 17 then some none
    else udp (o + 20) (len - 20) (slice b (o + 12) 4 ++ List.replicate 12 0#8)
      (slice b (o + 12) 8 ++ [0#8, 17#8] ++ (natToBytes 2 (beNat b (o + 24) 2)).reverse) false

/-- Check 2 of R264 under a stream's rules. -/
def streamCheck (d : Line) (b : Array Byte) : Option (Option Udp) :=
  let v := vlanOf b
  if lidVlan d && v.1 != some (lidVid d) then none
  else if etherType b ≠ (if lidIpv6 d then 0x86DD else 0x0800) then none
  else ipCheck b (lidIpv6 d) (v.2 + 2)

/-- A frame goes to Protil's management queue of 64 frames, or is dropped and counted (R262, log 14). -/
def State.manage (s : State) (m : Fin 4) (b : List Byte) : State :=
  if s.mgmtQ.length ≥ 64 then s.modMac m fun x => { x with mgmtDrop := satInc x.mgmtDrop }
  else { s with mgmtQ := s.mgmtQ ++ [(m.val, b)] }

/-! ### Sweeps (R265 to R267) -/

/-- The 64-byte header of a slot (R266). -/
def slotHeader (len st rx q : Nat) : List Byte :=
  natToBytes 2 len ++ natToBytes 1 st ++ [0#8] ++ natToBytes 8 rx ++ natToBytes 4 q ++ List.replicate 48 0#8

/-- The key of line 0 of slot `j` in the buffer of the sweep that stream `d` delivers next. -/
def lidSlotKey (d : Line) (s j : Nat) : Nat := hamKey (lidBuffer d (s % max 1 (lidNbuf d)) + lidSlotl d * j)

/-- A sweep closes (R267): missing slots, the record, TIE_IN. A discarded one leaves a gap (R266). -/
def State.closeSweep (s : State) (k : Fin 8) : State :=
  let x := s.lidars[k]
  match x.desc, x.sweep with
  | some d, some w =>
    if w.closed then s
    else if w.discard then
      s.modLidar k fun x => { x with sweep := some { w with closed := true }, gapNext := true, overrun := satInc x.overrun }
    else
      let n := lidNpkt d
      let held := fun j => w.slots.any (·.1 == j)
      let missing := (List.range n).filter fun j => !held j
      let st := fun v => (w.slots.filter (·.2 == v)).length
      let s := missing.foldl (fun s j => s.putLine (lidSlotKey d x.s j) 0#2048) s
      let bad := !missing.isEmpty || w.slots.any (·.2 != 1)
      let cnt := fun v => natToBytes 2 (min 65535 v)
      let rec_ := natToBytes 1 (lidSrc d) ++ [2#8] ++ natToBytes 2 (boolNat w.gap + 2 * boolNat bad) ++ natToBytes 4 x.bySeq ++
        natToBytes 12 (timeWord w.firstSec w.firstNs).toNat ++ natToBytes 4 (n * lidSlotl d + 1) ++
        cnt missing.length ++ cnt (st 2) ++ cnt (st 3) ++ cnt w.dup ++ cnt w.late ++ cnt 0
      let s := s.putLine (lidRecordKey d x.s) (lineOfBytes rec_)
      let s := s.modLidar k fun x => { x with
        sweep := some { w with closed := true }
        s := x.s + 1
        sweeps := satInc x.sweeps }
      (s.tieAdd (lidTieIn d) 1#32).tryOrigins
  | _, _ => s

/-- Open a sweep with base `b` (R265, R266). -/
def State.openSweep (s : State) (k : Fin 8) (d : Line) (b : Nat) (gap : Bool) (t : Stamp) : State :=
  s.modLidar k fun x =>
    let discard := decide (x.s ≥ lidNbuf d) && !s.tieReached (lidTieRel d) (x.s - lidNbuf d + 1)
    { x with
      sweep := some { base := b, firstSec := t.sec, firstNs := t.ns, slots := [], dup := 0, late := 0,
                      gap := gap || x.gapNext, discard := discard, closed := false }
      gapNext := if discard then x.gapNext else false }

/-- The state byte of a packet (R264 check 6). Where the lidar descriptor's line fails its tag it is not used (R15), and the packet
time is not within its limit (log 81). -/
def State.packetState (s : State) (d : Line) (payload : List Byte) (rx : Nat) : Nat :=
  let cap := lidSlotl d * 256 - 64
  let lenOk := if lidPaylen d = 0 then decide (payload.length ≤ cap) else
    payload.length == lidPaylen d && decide (payload.length ≤ cap)
  if !lenOk then 3
  else if !lidPtchk d then 1
  else if !s.tagOk (hamKey (lidDesc d)) then 2
  else
    let l := s.line (hamKey (lidDesc d))
    let be := bitAt l 16
    let o := bytesNat l 10 2
    let a := payload.toArray
    let num := fun i n => if be then beNat a i n else natOfBytes (slice a i n)
    let t := if bytesNat l 12 1 = 0 then num o 8 else num o 4 * 1000000000 + num (o + 4) 4
    let diff := if t ≥ rx then t - rx else rx - t
    if diff ≤ 1000 * lidPttolUs d then 1 else 2

/-- Put a packet into slot `j` of the open sweep, unless the slot holds one (R265, R266). -/
def State.storePacket (s : State) (k : Fin 8) (d : Line) (j q : Nat) (payload : List Byte) (rx : Nat) : State :=
  let x := s.lidars[k]
  match x.sweep with
  | none => s
  | some w =>
    if w.slots.any (·.1 == j) then
      s.modLidar k fun x => { x with sweep := some { w with dup := w.dup + 1 }, dup := satInc x.dup }
    else
      let st := s.packetState d payload rx
      let cap := lidSlotl d * 256 - 64
      let lines := linesOfBytes (lidSlotl d) (slotHeader payload.length st rx q ++ payload.take cap)
      let s := if w.discard then s else s.putLines (lidSlotKey d x.s j) lines
      let s := s.modLidar k fun x => { x with sweep := some { w with slots := w.slots ++ [(j, st)] } }
      if w.slots.length + 1 = lidNpkt d then s.closeSweep k else s

/-- A packet of a stream (R265). A payload too short for its sequence number has a free one (log 18). -/
def State.lidarPacket (s : State) (k : Fin 8) (d : Line) (payload : List Byte) (t : Stamp) : State :=
  let sw := if lidSeq32 d then 32 else 16
  let n := sw / 8
  let a := payload.toArray
  let short := decide (payload.length < lidSeqoff d + n)
  let q := if short then (Config.freeLine s.freeCtr).toNat % 2 ^ sw
    else if lidSeqBe d then beNat a (lidSeqoff d) n else natOfBytes (slice a (lidSeqoff d) n)
  let s := if short then { s with freeCtr := s.freeCtr + 1 } else s
  let rx := (t.sec * 1000000000 + t.ns) % 2 ^ 64
  let late := fun (s : State) => s.modLidar k fun x => { x with
    sweep := x.sweep.map fun w => { w with late := w.late + 1 }
    late := satInc x.late }
  match s.lidars[k].sweep with
  | none => (s.openSweep k d q false t).storePacket k d 0 q payload rx
  | some w =>
    let dist := (q + 2 ^ sw - w.base % 2 ^ sw) % 2 ^ sw
    let npkt := max 1 (lidNpkt d)
    if dist < npkt then
      (if w.closed && !(w.slots.any (·.1 == dist)) then late s else s.storePacket k d dist q payload rx)
    else if dist < 2 ^ (sw - 1) then
      let s := s.closeSweep k
      let s := s.modLidar k fun x => { x with bySeq := x.bySeq + dist / npkt }
      let s := s.openSweep k d ((q + 2 ^ sw - dist % npkt) % 2 ^ sw) (decide (dist ≥ 2 * npkt)) t
      s.storePacket k d (dist % npkt) q payload rx
    else late s

/-- An uncorrectable FEC block is seen by a MAC that uses FEC (R262, R268). -/
def State.fecBlock (s : State) (mac : Fin 4) (uncorr : Bool) : State :=
  if uncorr && s.macs[mac].fec != 0 then s.modMac mac fun x => { x with fecUncorr := true } else s

/-- ETHERNET_FRAME_RECEIVE (R262, R264, R268, R475). A frame is judged under the rules of the enabled streams of its MAC that have
its source address. While the compute domain is in reset nothing is staged (R257). -/
def execEthernetFrameReceive (mac : Fin 4) (bytes : List Byte) (phase : Nat) (fecUncorr : Bool) (s : State) : Result :=
  let s := if s.macs[mac].en then s.fecBlock mac fecUncorr else s
  let m := s.macs[mac]
  let b := bytes.toArray
  let t := s.stamp phase
  if !m.en || !m.link then .next s
  else if !fcsOk bytes then .next (s.modMac mac fun x => { x with fcs := satInc x.fcs })
  else if etherType b = 0x88F7 then
    (if s.ptpQ.length ≥ 64 then .next { s with tu := { s.tu with ptpDrop := min 0xFFFF (s.tu.ptpDrop + 1) } }
     else .next { s with ptpQ := s.ptpQ ++ [(mac.val, t, bytes)] })
  else
    let cands := (List.finRange 8).filterMap fun k => match s.lidars[k].desc with
      | some d => if s.lidars[k].enabled && lidMac d == mac.val && slice b 6 6 == lidSmac d then some (k, d) else none
      | none => none
    match cands with
    | [] => .next (s.manage mac bytes)
    | c :: _ =>
      if !s.intakeUp then .next s else
      let checked := cands.filterMap fun c => (streamCheck c.2 b).map fun u => (c, u)
      match checked with
      | [] => .next (s.modLidar c.1 fun x => { x with format := satInc x.format })
      | _ =>
        let hit := checked.find? fun e => match e.2 with
          | some u => u.sip == lidSip e.1.2 && u.sport == lidSport e.1.2 && u.dport == lidDport e.1.2
          | none => false
        match hit with
        | some (c, some u) =>
          if !u.sumOk then .next (s.modLidar c.1 fun x => { x with checksum := satInc x.checksum })
          else .next (s.lidarPacket c.1 c.2 u.payload t)
        | _ => .next (s.manage mac bytes)

/-- TSWEEP_TIMEOUT (R267): TSWEEP_US after a sweep's first packet. -/
def execTsweepTimeout (slot : Fin 8) (s : State) : Result := .next (s.closeSweep slot)

/-! ### Links and transmission -/

/-- ETH_BLOCK_LOCK_LOST (R268). -/
def execEthBlockLockLost (mac : Fin 4) (fecUncorr : Bool) (s : State) : Result :=
  let m := s.macs[mac]
  if m.blockLock then
    .next ((s.fecBlock mac fecUncorr).modMac mac fun x => { x with blockLock := false, link := false, linkLost := true })
  else .next s

/-- ETH_BLOCK_LOCK_ACQUIRED (R268). -/
def execEthBlockLockAcquired (mac : Fin 4) (s : State) : Result :=
  if s.macs[mac].en then .next (s.modMac mac fun x => { x with blockLock := true, link := true }) else .next s

/-- Big-endian bytes of a number. -/
def beBytes (n v : Nat) : List Byte := (natToBytes n v).reverse

/-- Replace bytes from offset `i`. -/
def patch (b : List Byte) (i : Nat) (v : List Byte) : List Byte := b.take i ++ v ++ b.drop (i + v.length)

/-- ETHERNET_FRAME_TRANSMIT (R475): a one-step Sync takes its departure time, with the fraction added to correctionField;
every other PTP event message leaves its stamp in the MAC's 16-entry FIFO. The MAC appends the frame check sequence. -/
def execEthernetFrameTransmit (mac : Fin 4) (bytes : List Byte) (phase : Nat) (s : State) : Result :=
  let b := bytes.toArray
  let m := s.macs[mac]
  if !m.en || !m.link then .next s
  else
    let o := (vlanOf b).2 + 2
    let t := s.stamp phase
    let ptp := etherType b = 0x88F7
    let typ := byteAt b o % 16
    let send := fun (s : State) (f : List Byte) => s.emit (.eth mac.val (f ++ natToBytes 4 (crc32 f)))
    if ptp ∧ typ = 0 ∧ byteAt b (o + 6) / 2 % 2 = 0 then
      let corr := (beNat b (o + 8) 8 + t.frac / 65536) % 2 ^ 64
      .next (send s (patch (patch bytes (o + 8) (beBytes 8 corr)) (o + 34) (beBytes 6 t.sec ++ beBytes 4 t.ns)))
    else if ptp ∧ typ ≤ 3 then
      let e := (typ, byteAt b (o + 4), beNat b (o + 30) 2, t)
      .next (send (s.modMac mac fun x =>
        { x with txFifo := (if x.txFifo.length ≥ 16 then x.txFifo.drop 1 else x.txFifo) ++ [e] }) bytes)
    else .next (send s bytes)

end Sys2Proof.Machine
end

