-- ==== Sys2Proof/Machine/Twining.lean ====
section
/-! DEFINITION. Twining's SAMPLE (R206 to R216): bilinear samples of up to four pyramid levels, weighted and summed. -/

namespace Sys2Proof.Machine

/-- Fields of a SAMPLE header (R210). -/
structure SampleHdr where
  vfmt : Nat
  nlev : Nat
  ofmt : Nat
  nsq : Nat
  levt : Nat
  samp : Nat
  nq : Nat
  out : Nat
deriving DecidableEq, Repr

/-- The fields of a header (R210). -/
def sampleHdr (h : Header) : SampleHdr :=
  { vfmt := bytesNat h 13 1, nlev := bytesNat h 14 1, ofmt := bytesNat h 15 1, nsq := bytesNat h 16 2,
    levt := bytesNat h 20 4, samp := bytesNat h 24 4, nq := bytesNat h 28 4, out := bytesNat h 32 4 }

/-- A pyramid level (R210). -/
structure Level where
  src : Nat
  w : Nat
  h : Nat
  ls : Word
deriving DecidableEq, Repr

/-- The levels of a level table line (R210). -/
def levelsOf (n : Nat) (l : Line) : List Level :=
  (List.range n).map fun i => { src := bytesNat l (32 * i) 4, w := bytesNat l (32 * i + 4) 2,
                                h := bytesNat l (32 * i + 6) 2, ls := l.extractLsb' (8 * (32 * i + 8)) 32 }

/-- Value record size VR (R210). -/
def SampleHdr.vr (h : SampleHdr) : Nat := if h.vfmt = 0 then 64 else 128

/-- Output record size OB (R214). -/
def SampleHdr.ob (h : SampleHdr) : Nat := if h.ofmt = 0 then 256 else 128

/-- Bytes of the levels. -/
def levelBytes (h : SampleHdr) (ls : List Level) : Nat := ls.foldl (fun n l => n + l.w * l.h * h.vr) 0

/-- Occupancy of a SAMPLE (R216). -/
def sampleOcc (h : SampleHdr) (ls : List Level) : Nat :=
  32 + ceilDiv (levelBytes h ls) 64 + h.nq * max h.nsq (h.ob / 64) + 24

/-- Is a level table entry well formed: sizes in range, scale positive and normal, reserved bytes 0 (R210, R215). -/
def levelOk (l : Line) (i : Nat) (v : Level) : Bool :=
  1 ≤ v.w && v.w ≤ 4096 && 1 ≤ v.h && v.h ≤ 4096 && posNormal v.ls && bytesNat l (32 * i + 12) 20 == 0

/-- Do the levels, the sample records and the output records lie in the hamper (R210, R211, R214). -/
def samplePlaces (h : SampleHdr) (ls : List Level) : Bool :=
  ls.all (fun l => hamFits l.src (ceilDiv (l.w * l.h * h.vr) 256)) && hamFits h.samp (ceilDiv (16 * h.nq * h.nsq) 256) &&
  hamFits h.out (ceilDiv (h.nq * h.ob) 256)

/-- Is sample record `n` undefined, on a line that exists and can be read: HALF beyond 3, or a reserved byte that is not 0 (R211,
R215). -/
def State.sampleBad (s : State) (h : SampleHdr) (n : Nat) : Bool :=
  let k := h.samp + n / 16
  let l := s.line (hamKey k)
  decide (k < hamperLines) && s.tagOk (hamKey k) &&
    (decide (bytesNat l (16 * (n % 16) + 13) 1 > 3) || bytesNat l (16 * (n % 16) + 14) 2 != 0)

/-- The checks of R215, in the order of R206: undefined fields of the header, the table and the records first, then the limits;
the table's are made where its tag is good, and a line beyond the hamper comes last (log 73). -/
def sampleCheck (s : State) (hd : Header) : Option Status :=
  let h := sampleHdr hd
  let l := s.line (hamKey h.levt)
  let ls := levelsOf h.nlev l
  if bytesNat hd 12 1 ≠ 1 ∨ h.vfmt > 2 ∨ h.nlev = 0 ∨ h.nlev > 4 ∨ h.ofmt > 2 ∨ h.nsq = 0 ∨ h.nsq > 256 ∨
     h.nq = 0 ∨ h.nq > 1048576 ∨ !hamFits h.levt 1 then some .rejectFormat
  else if !s.tagOk (hamKey h.levt) then none
  else if (List.range h.nlev).any (fun i => !levelOk l i (ls.getD i ⟨0, 0, 0, 0#32⟩)) ∨
      (List.range (h.nq * h.nsq)).any (s.sampleBad h) then some .rejectFormat
  else if levelBytes h ls > 4194304 ∨ sampleOcc h ls > 8000000 then some .rejectLimit
  else if !samplePlaces h ls then some .rejectFormat
  else none

/-- Accumulators of a query and the samples excluded so far. -/
structure QueryAcc where
  acc : List Word
  excluded : Nat

/-- The value of channel `ch` at byte `o` of a level's bytes. -/
def levelValue (vfmt : Nat) (bs : Array Byte) (o ch : Nat) : Fp :=
  let b := fun i => (bs.getD i 0#8).toNat
  if vfmt = 0 then Fp.ofInt (signedOf 8 (b (o + ch)))
  else fpDecode (if vfmt = 1 then .fp16 else .bf16) (b (o + 2 * ch) + 256 * b (o + 2 * ch + 1))

/-- The corners of a sample that take part (R212): byte offset of the record and corner weight. -/
def sampleCorners (vr w h : Nat) (x y : Word) : List (Nat × Nat) :=
  let part := fun (v : Word) =>
    let i := fpFloor (f32 v)
    let q := fpFloor (f32 (f32Add (f32Mul (f32Sub v (toF32 (Fp.ofInt i))) 0x43800000#32) 0x3F000000#32))
    if q = 256 then (i + 1, (0 : Int)) else (i, q)
  let px := part x
  let py := part y
  let corner := fun (i j cw : Int) =>
    if 0 ≤ i ∧ i < w ∧ 0 ≤ j ∧ j < h ∧ cw ≠ 0 then some ((j.toNat * w + i.toNat) * vr, cw.toNat) else none
  [corner px.1 py.1 ((256 - py.2) * (256 - px.2)), corner (px.1 + 1) py.1 ((256 - py.2) * px.2),
   corner px.1 (py.1 + 1) (py.2 * (256 - px.2)), corner (px.1 + 1) (py.1 + 1) (py.2 * px.2)].filterMap fun c => c

/-- One sample of a query (R212, R213): `rec` is its 16-byte record. -/
def sampleStep (h : SampleHdr) (levels : List (Level × Array Byte)) (record : BitVec 128) (q : QueryAcc) : QueryAcc :=
  let half := bytesNat record 13 1
  match levels[bytesNat record 12 1]? with
  | none => { q with excluded := q.excluded + 1 }
  | some lv =>
    if half = 3 then q
    else
      let x := record.extractLsb' 0 32
      let y := record.extractLsb' 32 32
      let lim := Fp.fin false 1 20
      if !fpLt (f32 x).abs lim || !fpLt (f32 y).abs lim then { q with excluded := q.excluded + 1 }
      else
        let cs := sampleCorners h.vr lv.1.w lv.1.h x y
        let w := f32Mul (record.extractLsb' 64 32) lv.1.ls
        { q with acc := (List.range 64).map fun ch =>
            let a := q.acc.getD ch 0#32
            if half = 1 ∧ ch ≥ 32 ∨ half = 2 ∧ ch < 32 then a
            else
              let sum := cs.foldl (fun t c => fpAdd t (fpMul (Fp.ofInt c.2) (levelValue h.vfmt lv.2 c.1 ch)))
                (.fin false 0 0)
              f32Fma (toF32 sum) w a }

/-- An output record (R214). -/
def sampleOut (h : SampleHdr) (acc : List Word) : List Byte :=
  if h.ofmt = 0 then acc.flatMap fun w => natToBytes 4 w.toNat
  else acc.flatMap fun w => natToBytes 2 (fpEncode (if h.ofmt = 1 then .fp16 else .bf16) (f32 w))

/-- A query's record and the samples excluded so far. -/
def sampleQuery (h : SampleHdr) (levels : List (Level × Array Byte)) (samples : Array Byte) (q : Nat) :
    List Byte × Nat :=
  let r := (List.range h.nsq).foldl (fun acc n =>
    let o := 16 * (q * h.nsq + n)
    sampleStep h levels (BitVec.ofNat 128 (natOfBytes ((List.range 16).map fun i => samples.getD (o + i) 0#8))) acc)
    ({ acc := List.replicate 64 0#32, excluded := 0 } : QueryAcc)
  (sampleOut h r.acc, r.excluded)

/-- The queries `0` to `n - 1` of a SAMPLE: the output lines with their records, and the samples excluded (R214, R233). The port
writes whole lines (R208), so half a line waits for the next record or the last; bytes behind the last record are 0 (DESIGN
CHOICE, log 117). -/
def sampleRun (h : SampleHdr) (levels : List (Level × Array Byte)) (samples : Array Byte) (n : Nat) :
    List (Nat × Line) × Nat :=
  let r := (List.range n).map fun q => sampleQuery h levels samples q
  let bytes := r.flatMap fun x => x.1
  let full := if n = h.nq then ceilDiv bytes.length 256 else bytes.length / 256
  (hamLines h.out (linesOfBytes full bytes), r.foldl (fun n x => n + x.2) 0)

/-- The work of a SAMPLE (R210 to R216). A line of records with a bad tag stops the command: the queries whose records lie
before it may have ended, and how many have by the cycle of detection is free (R208, R216, log 18). -/
def sampleWork (e : Fin 4) (ups : List Upset) (s : State) (hd : Header) : State :=
  let u := UnitId.twn e
  let h := sampleHdr hd
  let ls := levelsOf h.nlev (s.line (hamKey h.levt))
  let span := 2 * sampleOcc h ls + extraOf ups
  let old := (s.unit u).regs.stat
  if !s.tagOk (hamKey h.levt) then s.engTagFault u old span (hamKey h.levt) ups
  else match sampleCheck s hd with
  | some st => s.rejectFin u st
  | none =>
      let lineKeys := ls.flatMap fun l => hamKeys l.src (ceilDiv (l.w * l.h * h.vr) 256)
      let sampKeys := hamKeys h.samp (ceilDiv (16 * h.nq * h.nsq) 256)
      match s.firstBadOf lineKeys with
      | some k => s.engTagFault u old span k ups
      | none =>
        let levels := ls.map fun l => (l, (s.bytesAt (hamKey l.src) 0 (l.w * l.h * h.vr)).toArray)
        let samples := (s.bytesAt (hamKey h.samp) 0 (16 * h.nq * h.nsq)).toArray
        match s.firstBadOf sampKeys with
        | some k =>
          let ended := (16 * (k - hamKey h.samp)) / h.nsq
          let some_ := (Config.freeCycle s.freeCtr).toNat % (ended + 1)
          let r := sampleRun h levels samples some_
          let s := ({ s with freeCtr := s.freeCtr + 1 }).putNoted u r.1
          (s.modRegs u fun x => { x with stat := statAdd x.stat r.2 }).engTagFault u old span k ups
        | none =>
          let r := sampleRun h levels samples h.nq
          (s.putNoted u r.1).engDone u r.2 span ups

/-- SAMPLE (R206 to R216). -/
def execSample (e : Fin 4) (ups : List Upset) (s : State) : Result := s.asRead (.twn e) ups fun s =>
  match s.working (.twn e) with
  | some c => .next (sampleWork e ups s c.hdr)
  | none => .next s

end Sys2Proof.Machine
end

