-- ==== Sys2Proof/Machine/Coil.lean ====
section
/-! DEFINITION. Coil's VOXEL (R217 to R224) and SCATTER (R225): lidar points grouped by voxel, and pillar features placed
in a dense grid. -/

namespace Sys2Proof.Machine

/-! ### The lidar descriptor and the sweep record -/

/-- A 32-bit word of a line at byte `o`. -/
def wordAt (l : Line) (o : Nat) : Word := l.extractLsb' (8 * o) 32

/-- Bytes of a coordinate by CTYPE (R218). -/
def ctypeBytes (t : Nat) : Nat := if t = 0 ∨ t = 2 then 2 else 4

/-- Bytes of the time offset by OTYPE (R218). -/
def otypeBytes (t : Nat) : Nat := if t = 0 then 0 else if t = 1 then 2 else 4

/-- Is the lidar descriptor well formed for slots of `slotl` lines (R218, R223). AZN in Cartesian mode, the offsets of fields that
the mode or OTYPE leaves unused, and bytes 7, 22 and 23, which the table does not list, are not checked (DESIGN CHOICE,
log 117). -/
def lidarDescOk (d : Line) (slotl : Nat) : Bool :=
  let mode := bytesNat d 1 1
  let ct := bytesNat d 3 1
  let ppp := bytesNat d 4 2
  let prs := bytesNat d 6 1
  let ot := bytesNat d 13 1
  let fits := fun off width => decide (bytesNat d off 1 + width ≤ prs)
  bytesNat d 0 1 == 1 && mode ≤ 1 && bytesNat d 2 1 < 4 && ct ≤ 4 && 1 ≤ ppp && ppp ≤ 512 && 4 ≤ prs && prs ≤ 64 &&
  bytesNat d 12 1 ≤ 1 && ot ≤ 2 && 1 ≤ bytesNat d 14 2 && bytesNat d 40 216 == 0 &&
  (mode == 0 || 1 ≤ bytesNat d 28 4) &&
  fits 16 (ctypeBytes ct) && (if mode = 0 then fits 17 (ctypeBytes ct) && fits 18 (ctypeBytes ct) else fits 17 2) &&
  fits 19 1 && fits 20 1 && (ot == 0 || fits 21 (otypeBytes ot)) &&
  decide (prs * ppp + bytesNat d 8 2 + 64 ≤ slotl * 256)

/-- NX, NY and NZ of a sweep record (R219). -/
def sweepNx (w : Line) : Nat := bytesNat w 4 2
@[inherit_doc sweepNx] def sweepNy (w : Line) : Nat := bytesNat w 6 2
@[inherit_doc sweepNx] def sweepNz (w : Line) : Nat := bytesNat w 8 2
/-- PMAX and VMAX of a sweep record (R219). -/
def sweepPmax (w : Line) : Nat := bytesNat w 10 1
@[inherit_doc sweepPmax] def sweepVmax (w : Line) : Nat := bytesNat w 12 4

/-- Is the sweep record well formed (R219, R223). -/
def sweepOk (w : Line) : Bool :=
  bytesNat w 0 1 == 1 && bytesNat w 1 1 ≤ 1 && bytesNat w 2 2 == 0 && bytesNat w 11 1 == 0 && bytesNat w 124 132 == 0 &&
  1 ≤ sweepNx w && 1 ≤ sweepNy w && 1 ≤ sweepNz w && 1 ≤ sweepPmax w && sweepPmax w ≤ 64 && 1 ≤ sweepVmax w &&
  sweepVmax w ≤ sweepNx w * sweepNy w * sweepNz w

/-! ### VOXEL -/

/-- Lines of a VOXEL header (R222). -/
def voxDesc (h : Header) : Nat := bytesNat h 20 4
@[inherit_doc voxDesc] def voxSlot0 (h : Header) : Nat := bytesNat h 24 4
@[inherit_doc voxDesc] def voxSweep (h : Header) : Nat := bytesNat h 28 4
@[inherit_doc voxDesc] def voxOutp (h : Header) : Nat := bytesNat h 32 4
@[inherit_doc voxDesc] def voxOutc (h : Header) : Nat := bytesNat h 36 4
@[inherit_doc voxDesc] def voxOuts (h : Header) : Nat := bytesNat h 88 4
@[inherit_doc voxDesc] def voxSlotl (h : Header) : Nat := bytesNat h 13 1
@[inherit_doc voxDesc] def voxNpkt (h : Header) : Nat := bytesNat h 14 2

/-- Do the lines that a VOXEL names lie in the hamper (R218, R222). -/
def voxelPlaces (h : Header) (d w : Line) : Bool :=
  hamFits (voxSlot0 h) (voxNpkt h * voxSlotl h) && hamFits (voxOutp h) (ceilDiv (16 * (sweepVmax w * sweepPmax w)) 256) &&
  hamFits (voxOutc h) (ceilDiv (4 * sweepVmax w) 256) && hamFits (voxOuts h) 1 &&
  (bytesNat d 1 1 == 0 ||
    hamFits (bytesNat d 32 4) (ceilDiv (8 * bytesNat d 28 4) 256) && hamFits (bytesNat d 36 4) 12)

/-- The checks of R223; those on the descriptor and the sweep record are made where their tags are good, and a line beyond the
hamper comes last (log 73). -/
def voxelCheck (s : State) (h : Header) : Option Status :=
  let d := s.line (hamKey (voxDesc h))
  let w := s.line (hamKey (voxSweep h))
  if voxSlotl h = 0 ∨ voxSlotl h > 8 ∨ !hamFits (voxDesc h) 1 ∨ !hamFits (voxSweep h) 1 then some .rejectFormat
  else if !s.tagOk (hamKey (voxDesc h)) || !s.tagOk (hamKey (voxSweep h)) then none
  else if !lidarDescOk d (voxSlotl h) || !sweepOk w then some .rejectFormat
  else if voxNpkt h = 0 ∨ voxNpkt h * bytesNat d 4 2 > 4194304 ∨
      sweepNx w * sweepNy w * sweepNz w > 1048576 ∨ sweepVmax w * sweepPmax w > 524288 ∨ bytesNat d 28 4 > 65536 then
    some .rejectLimit
  else if !voxelPlaces h d w then some .rejectFormat
  else none

/-- Occupancy of a VOXEL (R224). -/
def voxelOcc (h : Header) (d w : Line) : Nat :=
  64 + ceilDiv (sweepNx w * sweepNy w * sweepNz w) 16 + (if bytesNat d 1 1 = 1 then ceilDiv (bytesNat d 28 4) 8 + 48 else 0) +
  voxNpkt h * (bytesNat d 4 2 + 2) + ceilDiv (sweepVmax w * sweepPmax w) 4 + ceilDiv (sweepVmax w) 16

/-- Why a point is dropped (R220, R221). -/
inductive PointDrop where
  | noReturn | time | badField | outside | voxelFull | pointFull
deriving DecidableEq, Repr

/-- What VOXEL has grouped so far. -/
structure VoxelRun where
  /-- voxel of each cell, in order of allocation -/
  cells : Sparse (Option Nat)
  /-- cell of each voxel -/
  order : List Nat
  /-- points per voxel -/
  counts : Sparse Nat
  /-- stored points by voxel-major slot -/
  points : Sparse (List Byte)
  stored : Nat
  bad : Nat
  drops : List PointDrop

/-- Bytes of a field, in the order of the descriptor's BE flag, as a number. -/
def fieldBytes (be : Bool) (get : Nat → Byte) (o n : Nat) : Nat :=
  let bs := (List.range n).map fun i => get (o + i)
  natOfBytes (if be then bs.reverse else bs)

/-- A coordinate or range field: is it zero, and its FP32 value (R218, R220). A raw FP32 field of −0 is zero, compared by value
(DESIGN CHOICE, log 117). -/
def coordField (t : Nat) (be : Bool) (get : Nat → Byte) (o : Nat) : Bool × Word :=
  let n := ctypeBytes t
  let raw := fieldBytes be get o n
  if t = 4 then ((f32 (BitVec.ofNat 32 raw)).isZero, BitVec.ofNat 32 raw)
  else
    let v : Int := if t = 0 then signedOf 16 raw else if t = 1 then signedOf 32 raw else raw
    (v == 0, toF32 (Fp.ofInt v))

/-- A dot-product step of R220: `e2 z + (e1 y + (e0 x + t))`. -/
def poseAxis (w : Line) (row : Nat) (x y z : Word) : Word :=
  let e := fun i => wordAt w (76 + 12 * row + 4 * i)
  f32Fma (e 2) z (f32Fma (e 1) y (f32Fma (e 0) x (wordAt w (112 + 4 * row))))

/-- The motion terms of R220. -/
def compensate (w : Line) (dt : Word) (q : Word × Word × Word) : Word × Word × Word :=
  let v := fun i => wordAt w (52 + 4 * i)
  let o := fun i => wordAt w (64 + 4 * i)
  let cross := fun (a qb b qa : Word) => f32Fma a qb (f32Neg (f32Mul b qa))
  let cx := cross (o 1) q.2.2 (o 2) q.2.1
  let cy := cross (o 2) q.1 (o 0) q.2.2
  let cz := cross (o 0) q.2.1 (o 1) q.1
  (f32Fma dt (f32Add (v 0) cx) q.1, f32Fma dt (f32Add (v 1) cy) q.2.1, f32Fma dt (f32Add (v 2) cz) q.2.2)

/-- A decoded point: its coordinates, intensity, ring and dt, or the reason it is dropped (R220). `get` gives the bytes of
the slot, `p` the point's byte offset, `az` and `el` the tables' bytes. -/
def decodePoint (d w : Line) (get : Nat → Byte) (p : Nat) (az el : Array Byte) :
    Except PointDrop (Word × Word × Word × Byte × Byte × Word) :=
  let be := bitAt d 16
  let f := fun i => p + bytesNat d (16 + i) 1
  let ct := bytesNat d 3 1
  let tpk := if bitAt d 17 then natOfBytes ((List.range 8).map fun i => get (4 + i))
    else
      let o := 64 + bytesNat d 10 2
      if bytesNat d 12 1 = 0 then fieldBytes be get o 8
      else fieldBytes be get o 4 * 1000000000 + fieldBytes be get (o + 4) 4
  let off := fieldBytes be get (f 5) (otypeBytes (bytesNat d 13 1))
  let tp := tpk + off * bytesNat d 14 2
  let dns := signedOf 64 ((tp + 2 ^ 64 - bytesNat w 40 8) % 2 ^ 64)
  let dtmax : Int := bytesNat w 48 4
  let cscale := wordAt d 24
  let tab := fun (t : Array Byte) o => BitVec.ofNat 32 (natOfBytes ((List.range 4).map fun i => t.getD (o + i) 0#8))
  let ring := get (f 4)
  if dns > dtmax ∨ -dns > dtmax then .error .time
  else
    let c0 := coordField ct be get (f 0)
    let xyz : Except PointDrop (Word × Word × Word) :=
      if bytesNat d 1 1 = 0 then
        let c1 := coordField ct be get (f 1)
        let c2 := coordField ct be get (f 2)
        if c0.1 && c1.1 && c2.1 then .error .noReturn
        else .ok (f32Mul c0.2 cscale, f32Mul c1.2 cscale, f32Mul c2.2 cscale)
      else
        let a := fieldBytes be get (f 1) 2
        if c0.1 then .error .noReturn
        else if a ≥ bytesNat d 28 4 then .error .badField
        else
          let r := f32Mul c0.2 cscale
          let e := 12 * ring.toNat
          let hh := f32Mul r (tab el e)
          .ok (f32Mul hh (tab az (8 * a)), f32Mul hh (tab az (8 * a + 4)), f32Fma r (tab el (e + 4)) (tab el (e + 8)))
    match xyz with
    | .error x => .error x
    | .ok (x, y, z) =>
      let q := (poseAxis w 0 x y z, poseAxis w 1 x y z, poseAxis w 2 x y z)
      let dt := f32Mul (toF32 (Fp.ofInt dns)) 0x3089705F#32
      let q := if bitAt w 8 then compensate w dt q else q
      .ok (q.1, q.2.1, q.2.2, get (f 3), ring, dt)

/-- The cell of a point (R221). -/
def pointCell (w : Line) (x y z : Word) : Option Nat :=
  let ix := fun (q : Word) i n =>
    let v := f32 (f32Mul (f32Sub q (wordAt w (16 + 4 * i))) (wordAt w (28 + 4 * i)))
    let k := fpFloor v
    if (f32 q).isFinite && v.isFinite && decide (0 ≤ k) && decide (k < (n : Int)) then some k.toNat else none
  match ix x 0 (sweepNx w), ix y 1 (sweepNy w), ix z 2 (sweepNz w) with
  | some i, some j, some k => some ((k * sweepNy w + j) * sweepNx w + i)
  | _, _, _ => none

/-- Put a decoded point into its voxel (R221, R222). -/
def VoxelRun.add (r : VoxelRun) (w : Line) (x y z : Word) (inten ring : Byte) (dt : Word) : VoxelRun :=
  match pointCell w x y z with
  | none => { r with drops := .outside :: r.drops }
  | some cell =>
    let vox := sparseGet none r.cells cell
    let nv := r.order.length
    if vox.isNone && nv ≥ sweepVmax w then { r with drops := .voxelFull :: r.drops }
    else
      let v := vox.getD nv
      let r := if vox.isSome then r else { r with
        cells := sparsePut none r.cells cell (some nv)
        order := r.order ++ [cell] }
      let n := sparseGet 0 r.counts v
      if n ≥ sweepPmax w then { r with drops := .pointFull :: r.drops }
      else
        let b := natToBytes 4 x.toNat ++ natToBytes 4 y.toNat ++ natToBytes 4 z.toNat ++ [inten, ring] ++
          natToBytes 2 (fpEncode .fp16 (f32 dt))
        { r with
          counts := sparsePut 0 r.counts v (n + 1)
          points := sparsePut [] r.points (v * sweepPmax w + n) b
          stored := r.stored + 1 }

/-- One slot (R217). -/
def voxelSlot (d w : Line) (get : Nat → Byte) (az el : Array Byte) (r : VoxelRun) : VoxelRun :=
  let ppp := bytesNat d 4 2
  let prs := bytesNat d 6 1
  let first := bytesNat d 8 2
  if (get 2).toNat ≠ 1 ∨ (get 0).toNat + 256 * (get 1).toNat < first + ppp * prs then { r with bad := r.bad + 1 }
  else (List.range ppp).foldl (fun r i =>
    match decodePoint d w get (64 + first + i * prs) az el with
    | .error x => { r with drops := x :: r.drops }
    | .ok (x, y, z, inten, ring, dt) => r.add w x y z inten ring dt) r

/-- The three outputs of VOXEL (R222), as key and line. -/
def voxelOutputs (h : Header) (w : Line) (r : VoxelRun) : List (Nat × Line) :=
  let n := sweepVmax w * sweepPmax w
  let zero := List.replicate 16 0#8
  let pts := (List.range n).flatMap fun i =>
    match sparseGet [] r.points i with
    | [] => zero
    | b => b
  let coords := (List.range (sweepVmax w)).flatMap fun i => natToBytes 4 (r.order.getD i 0xFFFFFFFF)
  let cnt := fun k => (r.drops.filter (· == k)).length
  let summary := lineOfBytes ([r.order.length, r.stored, r.bad, cnt .noReturn, cnt .time, cnt .badField, cnt .outside,
    cnt .voxelFull, cnt .pointFull].flatMap (natToBytes 4))
  hamLines (voxOutp h) (linesOfBytes (ceilDiv (16 * n) 256) pts) ++
    hamLines (voxOutc h) (linesOfBytes (ceilDiv (4 * sweepVmax w) 256) coords) ++ hamLines (voxOuts h) [summary]

/-- VOXEL over slots `0` to `n - 1` (R217 to R222). A packet time beyond its slot is a free byte string (log 19). -/
def State.voxelRun (s : State) (h : Header) (d w : Line) (n : Nat) : VoxelRun :=
  let sph := bytesNat d 1 1 == 1
  let az := if sph then (s.bytesAt (hamKey (bytesNat d 32 4)) 0 (256 * ceilDiv (8 * bytesNat d 28 4) 256)).toArray else #[]
  let el := if sph then (s.bytesAt (hamKey (bytesNat d 36 4)) 0 3072).toArray else #[]
  (List.range n).foldl (fun r k =>
    let slot := (s.bytesAt (hamKey (voxSlot0 h + k * voxSlotl h)) 0 (256 * voxSlotl h)).toArray
    let get := fun i => if i < slot.size then slot.getD i 0#8
      else (Config.freeLine (s.freeCtr + 257 * k + (i - slot.size) / 256)).extractLsb' (8 * ((i - slot.size) % 256)) 8
    voxelSlot d w get az el r)
    ({ cells := [], order := [], counts := [], points := [], stored := 0, bad := 0, drops := [] } : VoxelRun)

/-- The work of a VOXEL (R217 to R224): the outputs are written after the last slot, so a tag fault of a slot leaves none, and has
counted the drops of slots before it. -/
def voxelWork (e : Fin 2) (ups : List Upset) (s : State) (h : Header) : State :=
  let u := UnitId.coil e
  let dk := hamKey (voxDesc h)
  let wk := hamKey (voxSweep h)
  let d := s.line dk
  let w := s.line wk
  let span := 2 * voxelOcc h d w + extraOf ups
  let old := (s.unit u).regs.stat
  match s.firstBadOf [dk, wk] with
  | some k => s.engTagFault u old span k ups
  | none =>
    match voxelCheck s h with
    | some st => s.rejectFin u st
    | none =>
        let sph := bytesNat d 1 1 == 1
        let azLines := ceilDiv (8 * bytesNat d 28 4) 256
        let tabKeys := if sph then hamKeys (bytesNat d 32 4) azLines ++ hamKeys (bytesNat d 36 4) 12 else []
        match s.firstBadOf tabKeys with
        | some k => s.engTagFault u old span k ups
        | none =>
          let run := s.voxelRun h d w
          let t := { s with freeCtr := s.freeCtr + 257 * voxNpkt h }
          match s.firstBadOf (hamKeys (voxSlot0 h) (voxNpkt h * voxSlotl h)) with
          | some k => (t.statSome u (run ((k - hamKey (voxSlot0 h)) / voxSlotl h)).drops.length).engTagFault u old span k ups
          | none =>
            let r := run (voxNpkt h)
            (t.putNoted u (voxelOutputs h w r)).engDone u r.drops.length span ups

/-- VOXEL (R217 to R224). -/
def execVoxel (e : Fin 2) (ups : List Upset) (s : State) : Result := s.asRead (.coil e) ups fun s =>
  match s.working (.coil e) with
  | some c => if bytesNat c.hdr 12 1 = 1 then .next (voxelWork e ups s c.hdr) else .next s
  | none => .next s

/-! ### SCATTER -/

/-- Feature record size (R225). -/
def scatterFr (h : Header) : Nat := if bytesNat h 13 1 = 0 then 64 else if bytesNat h 13 1 = 1 then 128 else 256

/-- NV (R225). -/
def scatterNv (h : Header) : Nat := bytesNat h 36 4

/-- Do the lines that a SCATTER names lie in the hamper (R225). -/
def scatterPlaces (h : Header) (w : Line) : Bool :=
  hamFits (bytesNat h 24 4) (ceilDiv (4 * scatterNv h) 256) && hamFits (bytesNat h 28 4) (ceilDiv (scatterNv h * scatterFr h) 256) &&
  hamFits (bytesNat h 32 4) (ceilDiv (sweepNx w * sweepNy w * scatterFr h) 256) && hamFits (bytesNat h 88 4) 1

/-- The checks of R225, a line beyond the hamper last (log 73). -/
def scatterCheck (s : State) (h : Header) : Option Status :=
  let wk := hamKey (bytesNat h 20 4)
  let w := s.line wk
  if bytesNat h 13 1 > 2 || !hamFits (bytesNat h 20 4) 1 then some .rejectFormat
  else if !s.tagOk wk then none
  else if !sweepOk w || sweepNz w != 1 then some .rejectFormat
  else if scatterNv h * scatterFr h > 8388608 ∨ sweepNx w * sweepNy w > 1048576 ∨ scatterNv h = 0 ∨
      scatterNv h > sweepVmax w then some .rejectLimit
  else if !scatterPlaces h w then some .rejectFormat
  else none

/-- Occupancy of a SCATTER (R225). -/
def scatterOcc (h : Header) (w : Line) : Nat :=
  let cells := sweepNx w * sweepNy w
  64 + ceilDiv cells 16 + ceilDiv (scatterNv h) 16 + ceilDiv (scatterNv h * scatterFr h) 64 + cells * scatterFr h / 64

/-- The work of a SCATTER (R225). -/
def scatterWork (e : Fin 2) (ups : List Upset) (s : State) (h : Header) : State :=
  let u := UnitId.coil e
  let wk := hamKey (bytesNat h 20 4)
  let w := s.line wk
  let span := 2 * scatterOcc h w + extraOf ups
  let old := (s.unit u).regs.stat
  if !s.tagOk wk then s.engTagFault u old span wk ups
  else match scatterCheck s h with
  | some st => s.rejectFin u st
  | none =>
      let fr := scatterFr h
      let nv := scatterNv h
      let coord := bytesNat h 24 4
      let feat := bytesNat h 28 4
      match s.firstBadOf (hamKeys coord (ceilDiv (4 * nv) 256) ++ hamKeys feat (ceilDiv (nv * fr) 256)) with
      | some k => s.engTagFault u old span k ups
      | none =>
        let cells := sweepNx w * sweepNy w
        let cs := (s.bytesAt (hamKey coord) 0 (4 * nv)).toArray
        let cell := fun i => natOfBytes ((List.range 4).map fun j => cs.getD (4 * i + j) 0#8)
        let placed := (List.range nv).filter fun i => cell i < cells
        let map := placed.foldl (fun m i => sparsePut none m (cell i) (some i)) ([] : Sparse (Option Nat))
        let grid := (List.range cells).flatMap fun c =>
          match sparseGet none map c with
          | some i => s.bytesAt (hamKey feat) (i * fr) fr
          | none => List.replicate fr 0#8
        let summary := lineOfBytes ([placed.length, nv - placed.length].flatMap (natToBytes 4))
        let outs := hamLines (bytesNat h 32 4) (linesOfBytes (ceilDiv (cells * fr) 256) grid) ++ hamLines (bytesNat h 88 4) [summary]
        (s.putNoted u outs).engDone u 0 span ups

/-- SCATTER (R225). -/
def execScatter (e : Fin 2) (ups : List Upset) (s : State) : Result := s.asRead (.coil e) ups fun s =>
  match s.working (.coil e) with
  | some c => if bytesNat c.hdr 12 1 = 2 then .next (scatterWork e ups s c.hdr) else .next s
  | none => .next s

end Sys2Proof.Machine
end

