-- ==== Sys2Proof/Machine/Plait.lean ====
section
/-! DEFINITION. Plait's commands over a KV context: APPEND, FEED and STAGE (R176 to R191, R198, R201 to R204). -/

namespace Sys2Proof.Machine

/-- Fields of a Plait header (R201). -/
structure PlaitHdr where
  op : Nat
  mv : Nat
  layer : Nat
  head0 : Nat
  nhead : Nat
  arg : Nat
  kvd : Nat
  p0 : Nat
  p1 : Nat
  p2 : Nat
  p3 : Word
  p4 : Nat
  p5 : Nat
deriving DecidableEq, Repr

/-- The fields of a header (R201). Of the four bytes of KVD the line is [18:0]; the bits above are ignored (DESIGN CHOICE,
log 116). -/
def plaitHdr (h : Header) : PlaitHdr :=
  { op := bytesNat h 12 1, mv := bytesNat h 13 1, layer := bytesNat h 14 1, head0 := bytesNat h 15 1,
    nhead := bytesNat h 16 1, arg := bytesNat h 17 1, kvd := bytesNat h 20 4 % 2 ^ 19, p0 := bytesNat h 24 4,
    p1 := bytesNat h 28 4, p2 := bytesNat h 32 4, p3 := h.extractLsb' 288 32, p4 := bytesNat h 88 4,
    p5 := bytesNat h 92 4 }

/-- A KV descriptor (R176). -/
structure KvDesc where
  int4 : Bool
  circular : Bool
  d : Nat
  hkv : Nat
  layers : Nat
  len : Nat
  nb : Nat
  base : Nat
  s2t : Nat
deriving DecidableEq, Repr

/-- Read a descriptor line; none is REJECT_FORMAT (R176, R184): a field outside its range, or a BASE or S2T off the line
boundary, too (DESIGN CHOICE, log 72). -/
def kvDesc (l : Line) : Option KvDesc :=
  let kfmt := bytesNat l 1 1
  let mode := bytesNat l 2 1
  let dm := bytesNat l 3 1
  let hkv := bytesNat l 4 1
  let layers := bytesNat l 5 1
  if bytesNat l 0 1 ≠ 1 ∨ kfmt > 1 ∨ mode > 1 ∨ dm = 0 ∨ dm > 8 ∨ hkv = 0 ∨ hkv > 64 ∨ layers = 0 ∨ layers > 64 ∨
     bytesNat l 16 4 = 0 ∨ bytesNat l 16 4 > 16384 ∨
     bytesNat l 6 2 ≠ 0 ∨ bytesNat l 20 4 ≠ 0 ∨ bytesNat l 40 216 ≠ 0 ∨ bytesNat l 24 8 % 256 ≠ 0 ∨
     bytesNat l 32 8 % 256 ≠ 0 then none
  else some { int4 := kfmt == 1, circular := mode == 1, d := 32 * dm, hkv := hkv, layers := layers,
              len := bytesNat l 8 8, nb := bytesNat l 16 4, base := bytesNat l 24 8, s2t := bytesNat l 32 8 }

/-- Record size RS in lines (R178). -/
def KvDesc.rs (k : KvDesc) : Nat := if k.int4 then 3 + k.d / 4 else 1 + k.d / 2

/-- Lines of one half's elements. -/
def KvDesc.half (k : KvDesc) : Nat := if k.int4 then k.d / 8 else k.d / 4

/-- The store key of the first line of a block record (R178). -/
def KvDesc.recKey (k : KvDesc) (layer head b : Nat) : Nat :=
  k.base / 256 + k.rs * ((layer * k.hkv + head) * k.nb + (if k.circular then b % k.nb else b))

/-- Is block `b` held (R186, R189). -/
def KvDesc.held (k : KvDesc) (b : Nat) : Bool :=
  if k.circular then
    let last := (k.len - 1) / 64
    k.len > 0 && b ≤ last && last + 1 ≤ b + k.nb
  else b < k.nb

/-- The second-level scale of a layer, head and half (R177), and the key of its line. -/
def State.kvScale (s : State) (k : KvDesc) (layer head half : Nat) : Nat × Word :=
  let a := k.s2t + 4 * ((layer * k.hkv + head) * 2 + half)
  (a / 256, BitVec.ofNat 32 (bytesNat (s.line (a / 256)) (a % 256) 4))

/-- One half of a block record: codes per slot, elements (as stored codes), escapes (element, value). -/
structure KvHalf where
  codes : List Nat
  elems : List Nat
  escs : List (Nat × Nat)
deriving DecidableEq, Repr

/-- A block record (R178 to R180). -/
structure KvRec where
  valid : Nat
  flags : Nat
  block : Nat
  k : KvHalf
  v : KvHalf
deriving DecidableEq, Repr

/-- An empty half. -/
def KvHalf.empty (d : Nat) : KvHalf :=
  { codes := List.replicate 64 0, elems := List.replicate (64 * d) 0, escs := [] }

/-- The entries of an escape record (R180). -/
def kvEscs (l : Line) : List (Nat × Nat) :=
  (List.range (min 16 (bytesNat l 0 1))).map fun i =>
    let e := bytesNat l (16 + 4 * i) 4
    (e % 2 ^ 14, e / 2 ^ 16)

/-- Read a record from its lines. -/
def kvRead (k : KvDesc) (ls : List Line) : KvRec :=
  let a := ls.toArray
  let h := a.getD 0 0#2048
  let bits := if k.int4 then 4 else 8
  let half := fun (i : Nat) =>
    let start := 256 * (1 + i * k.half)
    let elems := (List.range (64 * k.d)).map fun e =>
      if k.int4 then linesNat a (start + e / 2) 1 / 2 ^ (4 * (e % 2)) % 16 else linesNat a (start + e) 1
    { codes := (List.range 64).map fun t => bytesNat h (16 + 64 * i + t) 1
      elems := elems
      escs := if k.int4 then kvEscs (a.getD (1 + 2 * k.half + i) 0#2048) else [] : KvHalf }
  let _ := bits
  { valid := bytesNat h 2 1, flags := bytesNat h 3 1, block := bytesNat h 4 4, k := half 0, v := half 1 }

/-- The element lines of a half. -/
def kvElemLines (k : KvDesc) (x : KvHalf) : List Line :=
  let bits := if k.int4 then 4 else 8
  linesOfBytes k.half (packRow bits (256 * k.half) x.elems)

/-- An escape record line (R180). -/
def kvEscLine (kind : Nat) (x : KvHalf) : Line :=
  lineOfBytes ([BitVec.ofNat 8 x.escs.length, BitVec.ofNat 8 kind] ++ List.replicate 14 0#8 ++
    x.escs.flatMap fun e => natToBytes 4 (e.2 % 2 ^ 16 * 2 ^ 16 + e.1))

/-- The lines of a record, in the order of R178. -/
def kvLines (k : KvDesc) (r : KvRec) : List Line :=
  let head := lineOfBytes ([1#8, BitVec.ofNat 8 (boolNat k.int4), BitVec.ofNat 8 r.valid, BitVec.ofNat 8 r.flags] ++
    natToBytes 4 r.block ++ List.replicate 8 0#8 ++ r.k.codes.map (BitVec.ofNat 8) ++ r.v.codes.map (BitVec.ofNat 8))
  [head] ++ kvElemLines k r.k ++ kvElemLines k r.v ++
    (if k.int4 then [kvEscLine 0 r.k, kvEscLine 1 r.v] else [])

/-- What quantising a vector gave (R181, R183). -/
structure Quant where
  code : Nat
  elems : List Nat
  esc : Option (Nat × Nat)
  sat : Bool
  nonfinite : Bool
deriving DecidableEq, Repr

/-- Larger of two non-negative values. -/
def fpMaxPos (a b : Fp) : Fp := if fpLt a b then b else a

/-- Quantise one token-head vector of one half (R181 to R183). -/
def kvQuant (int4 keyHalf : Bool) (room : Bool) (s2 : Fp) (x : List Fp) : Quant :=
  if x.any fun v => !v.isFinite then
    { code := 0, elems := x.map fun _ => 0, esc := none, sat := false, nonfinite := true }
  else
    let q : Int := if int4 then 7 else 127
    let mags := x.map Fp.abs
    let m1 := mags.foldl fpMaxPos (.fin false 0 0)
    let j1 := (List.range x.length).find? fun j => fpEq (mags.getD j .nan) m1
    let m2 := ((List.range x.length).filter fun j => some j != j1).foldl
      (fun m j => fpMaxPos m (mags.getD j (.fin false 0 0))) (.fin false 0 0)
    let code0 := ceilE4m3 m1 (fpMul (Fp.ofInt q) s2)
    let cand := max (ceilE4m3 m2 (fpMul (Fp.ofInt 7) s2)) (ceilE4m3 m1 (fpMul (Fp.ofInt 32767) s2))
    let useEsc := int4 && room && decide (cand < code0)
    let code := if useEsc then cand else code0
    let esc := if useEsc then j1 else none
    let den := fpMul (fpDecode .e4m3 code) s2
    let near := fun v => if code = 0 then (0 : Int) else ratioNearest v den
    let lo : Int := -q
    let elems := (List.range x.length).map fun j =>
      if esc = some j then 8 else wrapNat (if int4 then 4 else 8) (clampInt lo q (near (x.getD j .nan)))
    let exceeds := fun (lim v : Int) => decide (v < -lim ∨ v > lim)
    let sat := (List.range x.length).any fun j =>
      let v := near (x.getD j .nan)
      if esc = some j then keyHalf && exceeds 32767 v else exceeds q v
    let value := fun j =>
      let v := x.getD j .nan
      if keyHalf then wrapNat 16 (clampInt (-32767) 32767 (near v)) else fpEncode .fp16 (fpDiv v den)
    { code := code, elems := elems, esc := esc.map fun j => (j, value j), sat := sat, nonfinite := false }

/-- Put a quantised vector into a slot of a half. -/
def KvHalf.put (x : KvHalf) (d t : Nat) (q : Quant) : KvHalf :=
  { codes := x.codes.set t q.code
    elems := x.elems.take (t * d) ++ q.elems ++ x.elems.drop ((t + 1) * d)
    escs := x.escs.filter (fun e => !(t * d ≤ e.1 && e.1 < (t + 1) * d)) ++
      (match q.esc with
       | some e => [(t * d + e.1, e.2)]
       | none => []) }

/-- Sticky bits of PLT_STATUS (R204). -/
def pltTag : Word := 0x10#32
@[inherit_doc pltTag] def pltWindow : Word := 0x20#32
@[inherit_doc pltTag] def pltBlock : Word := 0x40#32

/-- PLT_FAULT_ADDR for a store key (R204): a hamper line, or a line through the mover. -/
def pltAddr (k : Nat) : Word :=
  if 0x100000000 ≤ k ∧ k < 0x100080000 then BitVec.ofNat 32 (k % 2 ^ 20) else BitVec.ofNat 32 (2 ^ 30 + k % 2 ^ 30)

/-- A tag fault of Plait at a line (R203). -/
def State.pltTagFault (s : State) (u : UnitId) (span k : Nat) : State :=
  s.faultFin u span .tagFault pltTag (some (pltAddr k))

/-- Does reading a line fault: it is unassigned, or its tag does not match (R18, R203). -/
def State.badLine (s : State) (k : Nat) : Bool := !s.lineAssigned k || !s.tagOk k

/-- Plait's command ends at a line that it cannot read or write (R203): WINDOW_FAULT where the line is unassigned, else
TAG_FAULT. -/
def State.pltLineFault (s : State) (u : UnitId) (span k : Nat) : State :=
  if s.lineAssigned k then s.pltTagFault u span k else s.faultFin u span .windowFault pltWindow (some (pltAddr k))

/-- A count of a Plait command: twice the occupancy, and since the command waits on mover transfers no less than it declares. A FEED
of a hamper buffer waits too: it reads its S2 line through the mover (R176, R202). -/
def pltUsed (decl occ : Nat) (ups : List Upset) : Nat := max decl (2 * occ) + extraOf ups

/-- The count of a command over the KV descriptor that its header names, `occ` its occupancy (R202); a descriptor that is not well
formed gives none. -/
def State.pltSpan (s : State) (decl : Nat) (h : PlaitHdr) (ups : List Upset) (occ : KvDesc → Nat) : Nat :=
  pltUsed decl ((kvDesc (s.line (hamKey h.kvd))).elim 0 occ) ups

/-- Do LAYER, HEAD0 and NHEAD fit the descriptor (R184, R189). -/
def headsOk (h : PlaitHdr) (k : KvDesc) : Bool :=
  h.layer < k.layers && h.head0 + h.nhead ≤ k.hkv && 1 ≤ h.nhead

/-- One token of one head of an APPEND, into block records kept per head. -/
def appendToken (k : KvDesc) (h : PlaitHdr) (pos t e : Nat) (ks vs : Array Byte) (sk sv : Word) (r : KvRec) :
    KvRec × Nat × Nat :=
  let vec := fun (a : Array Byte) => (List.range k.d).map fun j => srcValue h.arg a ((t * h.nhead + e) * k.d + j)
  let slot := pos % 64
  let qk := kvQuant k.int4 true (r.k.escs.length < 16) (f32 sk) (vec ks)
  let qv := kvQuant k.int4 false (r.v.escs.length < 16) (f32 sv) (vec vs)
  let flag := fun (a b : Bool) => boolNat (a || b)
  ({ r with
      valid := slot + 1
      flags := (r.flags ||| flag qk.nonfinite qv.nonfinite) ||| (2 * flag qk.sat qv.sat)
      k := r.k.put k.d slot qk
      v := r.v.put k.d slot qv },
   boolNat qk.sat + boolNat qv.sat, boolNat qk.nonfinite + boolNat qv.nonfinite)

/-- The tokens of one block for one head: the record after them, and the counts of R204. -/
def appendBlock (k : KvDesc) (h : PlaitHdr) (b e tokens : Nat) (ks vs : Array Byte) (sk sv : Word) (r : KvRec) :
    KvRec × Nat × Nat :=
  (List.range tokens).foldl (fun acc t =>
    let pos := k.len + t
    if pos / 64 = b then
      let x := appendToken k h pos t e ks vs sk sv acc.1
      (x.1, acc.2.1 + x.2.1, acc.2.2 + x.2.2)
    else acc) (r, 0, 0)

/-- A half as far as its first `n` token slots: what a faulted APPEND left beyond LEN is gone (R178, R185). -/
def KvHalf.keep (x : KvHalf) (d n : Nat) : KvHalf :=
  { codes := x.codes.take n ++ List.replicate (64 - n) 0
    elems := x.elems.take (n * d) ++ List.replicate ((64 - n) * d) 0
    escs := x.escs.filter fun e => e.1 < n * d }

/-- A block record before an APPEND: the tokens below LEN as stored if it holds any, else empty. The header's FLAGS stay, also
where tokens beyond LEN that a faulted APPEND left had set them (R179, R183, R185; DESIGN CHOICE, log 116). -/
def State.kvBefore (s : State) (k : KvDesc) (layer head b : Nat) : KvRec :=
  if 64 * b < k.len then
    let r := kvRead k (s.lines (k.recKey layer head b) k.rs)
    let n := min 64 (k.len - 64 * b)
    { r with valid := n, block := b % 2 ^ 32, k := r.k.keep k.d n, v := r.v.keep k.d n }
  else { valid := 0, flags := 0, block := b % 2 ^ 32, k := KvHalf.empty k.d, v := KvHalf.empty k.d }

/-- The lines of a record in the order APPEND writes them (R185): elements, escape records, header. -/
def appendOrder (key : Nat) (ls : List Line) : List (Nat × Line) :=
  match ls with
  | [] => []
  | h :: rest => (List.range rest.length).map (fun i => (key + 1 + i, rest.getD i 0#2048)) ++ [(key, h)]

/-- Add to the counters of PLT_QSTAT, each stopping at its maximum (R204). -/
def qstatAdd (w : Word) (sat nonfinite : Nat) : Word :=
  BitVec.ofNat 32 (min 0xFFFF (fieldNat w 16 16 + sat) * 2 ^ 16 + min 0xFFFF (fieldNat w 0 16 + nonfinite))

/-- The scales that an APPEND needs, with the keys of their lines (R177, R184): those that the KV context holds. -/
def State.appendScales (s : State) (h : PlaitHdr) (k : KvDesc) : List (Nat × Word) :=
  (List.range h.nhead).flatMap fun e =>
    if h.layer < k.layers ∧ h.head0 + e < k.hkv then
      [s.kvScale k h.layer (h.head0 + e) 0, s.kvScale k h.layer (h.head0 + e) 1]
    else []

/-- Hamper lines of one source of an APPEND (R180). -/
def appendSrcLines (h : PlaitHdr) (k : KvDesc) : Nat := ceilDiv (h.p2 * h.nhead * k.d * (if h.arg = 2 then 4 else 2)) 256

/-- The checks of an APPEND over its descriptor (R184), REJECT_FORMAT first (R206), a source beyond the hamper last
(log 73). A scale is judged where its line can be read; one that cannot ends the command at work (R203). -/
def appendCheck (s : State) (h : PlaitHdr) (k : KvDesc) : Option Status :=
  if (s.appendScales h k).any fun x => !s.badLine x.1 && !posNormal x.2 then some .rejectFormat
  else if h.p2 = 0 ∨ h.p2 > 4096 ∨ !headsOk h k ∨ k.len + h.p2 > 2 ^ 38 ∨ (!k.circular ∧ k.len + h.p2 > 64 * k.nb) then
    some .rejectLimit
  else if !hamFits h.p0 (appendSrcLines h k) ∨ !hamFits h.p1 (appendSrcLines h k) then some .rejectFormat
  else none

/-- The blocks of a FEED or a STAGE lie in their ranges (R201). -/
def blocksOk (h : PlaitHdr) : Bool := 1 ≤ h.p1 && h.p1 ≤ 16384 && 1 ≤ h.p4 && h.p4 ≤ 8

/-- The number of block `n` of a FEED or a STAGE (R187). -/
def PlaitHdr.blk (h : PlaitHdr) (n : Nat) : Nat := h.p0 + n * h.p4

/-- The checks of a STAGE over its descriptor (R198, R201): no block that has been overwritten or lies beyond NB. -/
def stageCheck (h : PlaitHdr) (k : KvDesc) : Option Status :=
  if !headsOk h k ∨ !blocksOk h ∨
      (List.range h.p1).any (fun n => !(k.held (h.blk n) || k.circular && (k.len + 63) / 64 ≤ h.blk n)) then
    some .rejectLimit
  else if !hamFits h.p2 (h.p1 * h.nhead * k.rs) then some .rejectFormat
  else none

/-- The work of an APPEND (R181 to R186). -/
def appendWork (p : Fin 2) (ups : List Upset) (s : State) (decl : Nat) (h : PlaitHdr) : State :=
  let u := UnitId.plt p
  let es := if h.arg = 2 then 4 else 2
  let span := s.pltSpan decl h ups fun k => 48 + h.p2 * h.nhead * ceilDiv (2 * k.d * es) 64
  if !s.tagOk (hamKey h.kvd) then s.pltTagFault u span (hamKey h.kvd)
  else match kvDesc (s.line (hamKey h.kvd)) with
  | none => s.rejectFin u .rejectFormat
  | some k =>
    let t := h.p2
    match appendCheck s h k with
    | some st => s.rejectFin u st
    | none =>
    match (s.appendScales h k).find? fun x => s.badLine x.1 with
    | some x => s.pltLineFault u span x.1
    | none =>
      let n := t * h.nhead * k.d * es
      let srcLines := appendSrcLines h k
      let b0 := k.len / 64
      let blocks := (List.range ((k.len + t - 1) / 64 - b0 + 1)).map (b0 + ·)
      let recs := blocks.flatMap fun b => (List.range h.nhead).map fun e => (b, e)
      let partials := if k.len % 64 = 0 then [] else
        (List.range h.nhead).flatMap fun e =>
          (List.range k.rs).map fun i => k.recKey h.layer (h.head0 + e) b0 + i
      match (partials ++ hamKeys h.p0 srcLines ++ hamKeys h.p1 srcLines).find? s.badLine with
      | some key => s.pltLineFault u span key
      | none =>
        let ks := (s.bytesAt (hamKey h.p0) 0 n).toArray
        let vs := (s.bytesAt (hamKey h.p1) 0 n).toArray
        let r := recs.foldl (fun (acc : List (Nat × Line) × Nat × Nat) x =>
          let head := h.head0 + x.2
          let y := appendBlock k h x.1 x.2 t ks vs (s.kvScale k h.layer head 0).2 (s.kvScale k h.layer head 1).2
            (s.kvBefore k h.layer head x.1)
          (acc.1 ++ appendOrder (k.recKey h.layer head x.1) (kvLines k y.1), acc.2.1 + y.2.1, acc.2.2 + y.2.2))
          ([], 0, 0)
        let stat := (s.unit u).regs.stat
        let s := s.modRegs u fun x => { x with stat := qstatAdd x.stat r.2.1 r.2.2 }
        match r.1.findIdx? fun w => !s.lineAssigned w.1 with
        | some i =>
          (((s.putNoted u (r.1.take i)).pltLineFault u span ((r.1.getD i (0, 0#2048)).1)).statFrom u stat).cutStat u
        | none => (s.putNoted u r.1).finish u { doneEnd span with statOld := some stat }

/-- APPEND (R181 to R186). -/
def execAppend (p : Fin 2) (ups : List Upset) (s : State) : Result := s.asRead (.plt p) ups fun s =>
  match s.working (.plt p) with
  | some c => if bytesNat c.hdr 12 1 = 1 ∧ s.namedMover c.hdr then
      .next (appendWork p ups s (hdrDecl c.hdr) (plaitHdr c.hdr)) else .next s
  | none => .next s

/-- The last act of an APPEND that ends without fault (R185): LEN grows by its tokens. -/
def State.appendLen (s : State) (u : UnitId) (p : Placed) : State :=
  match u with
  | .plt _ =>
    let h := plaitHdr p.hdr
    let l := s.line (hamKey h.kvd)
    if h.op = 1 then s.putLine (hamKey h.kvd) (setField l 64 64 (bytesNat l 8 8 + h.p2)) else s
  | _ => s

/-! ### FEED (R187 to R191) -/

/-- One token slot of a tile: its record and slot, none when absent (R188). -/
abbrev TokenSlot := Option (KvRec × Nat)

/-- The code of an element of a token slot; absent slots give 0. -/
def slotElem (k : KvDesc) (half : KvRec → KvHalf) (x : TokenSlot) (j : Nat) : Nat :=
  match x with
  | some (r, t) => (half r).elems.getD (t * k.d + j) 0
  | none => 0

/-- A side-list record of R41 from its entries (key, value), which ascend. -/
def sideRecord (kind : Nat) (es : List (Nat × Nat)) : Line :=
  lineOfBytes ([BitVec.ofNat 8 es.length, BitVec.ofNat 8 kind] ++ List.replicate 14 0#8 ++
    es.flatMap fun e => natToBytes 4 (e.2 * 2 ^ 16 + e.1 % 2 * 2 ^ 12 + e.1 / 2))

/-- Sort entries by key. -/
def insertKey (e : Nat × Nat) : List (Nat × Nat) → List (Nat × Nat)
  | [] => [e]
  | x :: xs => if e.1 ≤ x.1 then e :: x :: xs else x :: insertKey e xs

/-- The escapes of a tile's tokens in one half: token, element, value. -/
def tileEscs (k : KvDesc) (half : KvRec → KvHalf) (toks : List TokenSlot) : List (Nat × Nat × Nat) :=
  (List.range toks.length).flatMap fun t =>
    match toks.getD t none with
    | some (r, slot) => (half r).escs.filterMap fun e =>
        if slot * k.d ≤ e.1 ∧ e.1 < (slot + 1) * k.d then some (t, e.1 - slot * k.d, e.2) else none
    | none => []

/-- The lines of part `p` of a feed set (R190). -/
def feedPart (k : KvDesc) (s2k qf : Word) (toks : List TokenSlot) (p : Nat) : List Line :=
  let dp := min 128 (k.d - 128 * p)
  let g := if k.int4 then 8 else 4
  let a := toks.toArray
  let tok := fun t => a.getD t none
  let kcode := fun t => match tok t with
    | some (r, slot) => r.k.codes.getD slot 0
    | none => 0
  let s2 := f32Mul s2k qf
  let scale := linesOfBytes (if k.int4 then 6 else 4)
    (((List.range 128).flatMap fun c => List.replicate g (BitVec.ofNat 8 (kcode c))) ++
      (List.range 128).flatMap fun _ => natToBytes 4 s2.toNat)
  let ke := fun i t => slotElem k (·.k) (tok t) (128 * p + i)
  let ve := fun t c => if c < dp then slotElem k (·.v) (tok t) (128 * p + c) else 0
  let keyTile :=
    if k.int4 then linesOfBytes (dp / 4) ((List.range (dp / 2)).flatMap fun r =>
      (List.range 128).map fun c => BitVec.ofNat 8 (ke (2 * r) c + 16 * ke (2 * r + 1) c))
    else linesOfBytes (dp / 2) ((List.range dp).flatMap fun r => (List.range 128).map fun c => BitVec.ofNat 8 (ke r c))
  let valTile :=
    if k.int4 then linesOfBytes 32 ((List.range 64).flatMap fun r =>
      (List.range 128).map fun c => BitVec.ofNat 8 (ve (2 * r) c + 16 * ve (2 * r + 1) c))
    else linesOfBytes 64 ((List.range 128).flatMap fun r => (List.range 128).map fun c => BitVec.ofNat 8 (ve r c))
  let keySide := (List.range (ceilDiv dp 64)).map fun b =>
    sideRecord 0 ((tileEscs k (·.k) toks).foldl (fun es e =>
      let i := e.2.1 - 128 * p
      if 128 * p ≤ e.2.1 ∧ i < dp ∧ i / 64 = b then insertKey (2 * (i / 2 % 32 * 128 + e.1) + i % 2, e.2.2) es else es) [])
  let valSide := (List.range 2).map fun b =>
    sideRecord 1 ((tileEscs k (·.v) toks).foldl (fun es e =>
      let c := e.2.1 - 128 * p
      if 128 * p ≤ e.2.1 ∧ c < dp ∧ e.1 / 64 = b then insertKey (2 * (e.1 / 2 % 32 * 128 + c) + e.1 % 2, e.2.2) es else es) [])
  scale ++ keyTile ++ (if k.int4 then keySide else []) ++ valTile ++ (if k.int4 then valSide else [])

/-- The feed set of one tile (R190); `pos` gives the position of a token slot relative to `64 * BLK0`. -/
def feedSet (k : KvDesc) (s2k qf : Word) (toks : List TokenSlot) (pos : Nat → Int) : List Line :=
  let vcode := (List.range 128).flatMap fun t => natToBytes 4 (match toks.getD t none with
    | some (r, slot) => (toF32 (fpDecode .e4m3 (r.v.codes.getD slot 0))).toNat
    | none => 0)
  let poss := (List.range 128).flatMap fun t => natToBytes 4 (match toks.getD t none with
    | some _ => (toF32 (Fp.ofInt (pos t))).toNat
    | none => 0x7F800000)
  ((List.range (ceilDiv k.d 128)).flatMap fun p => feedPart k s2k qf toks p) ++ linesOfBytes 2 vcode ++
    linesOfBytes 2 poss

/-- Lines of a feed set (R190). -/
def feedLines (k : KvDesc) : Nat :=
  ((List.range (ceilDiv k.d 128)).foldl (fun n p =>
    let dp := min 128 (k.d - 128 * p)
    n + (if k.int4 then 6 + dp / 4 + ceilDiv dp 64 + 32 + 2 else 4 + dp / 2 + 64)) 0) + 4

/-- The checks of a FEED over its descriptor (R189, R190). A listed block at or beyond ceil(LEN / 64) is absent and is not
rejected, also where it lies at or beyond NB in linear mode (DESIGN CHOICE, log 116). -/
def feedCheck (h : PlaitHdr) (k : KvDesc) : Option Status :=
  if !posNormal h.p3 then some .rejectFormat
  else if !headsOk h k ∨ h.nhead ≠ 1 ∨ !blocksOk h ∨
      (List.range h.p1).any (fun n => h.blk n < (k.len + 63) / 64 && !k.held (h.blk n)) then some .rejectLimit
  else if !hamFits h.p2 (ceilDiv h.p1 2 * feedLines k) ∨ (h.arg = 1 ∧ !hamFits h.p5 (h.p1 * k.hkv * k.rs)) then
    some .rejectFormat
  else none

/-- The key of record `n` (block `b`) that a FEED reads: DRAM, or the record buffer, which holds the records of all heads of
the KV context, block-major, so that the FEED selects its head in it (R201, log 78). -/
def feedKey (k : KvDesc) (h : PlaitHdr) (n b : Nat) : Nat :=
  if h.arg = 1 then hamKey (h.p5 + (n * k.hkv + h.head0) * k.rs) else k.recKey h.layer h.head0 b

/-- Where the reading of a record ends a FEED (R189, R203): a line it cannot read, the header first; or a header of another
block. -/
def State.feedFault (s : State) (k : KvDesc) (h : PlaitHdr) (n : Nat) : Option (Option Nat) :=
  let key := feedKey k h n (h.blk n)
  if s.badLine key then some (some key)
  else if bytesNat (s.line key) 4 4 ≠ h.blk n % 2 ^ 32 then some none
  else match ((List.range k.rs).map fun i => key + i).find? s.badLine with
    | some x => some (some x)
    | none => none

/-- The staging lines of tile `tile` (R187, R188, R190). -/
def State.feedTile (s : State) (k : KvDesc) (h : PlaitHdr) (s2 : Word) (tile : Nat) : List Line :=
  let total := (k.len + 63) / 64
  let rec_ := fun (i : Nat) =>
    if 2 * tile + i < h.p1 ∧ h.blk (2 * tile + i) < total then
      some (kvRead k (s.lines (feedKey k h (2 * tile + i) (h.blk (2 * tile + i))) k.rs))
    else none
  let two := #[rec_ 0, rec_ 1]
  let bn := fun (t : Nat) => 2 * tile + t / 64
  let toks : List TokenSlot := (List.range 128).map fun t =>
    if bn t < h.p1 ∧ 64 * h.blk (bn t) + t % 64 < k.len then (two.getD (t / 64) none).map fun r => (r, t % 64) else none
  feedSet k s2 h.p3 toks fun t => ((64 * h.blk (bn t) + t % 64 : Nat) : Int) - ((64 * h.p0 : Nat) : Int)

/-- The work of a FEED (R187 to R191): tile after tile; the tiles before a record that it cannot use are written. -/
def feedWork (p : Fin 2) (ups : List Upset) (s : State) (decl : Nat) (h : PlaitHdr) : State :=
  let u := UnitId.plt p
  let span := s.pltSpan decl h ups fun k => 32 + ceilDiv h.p1 2 * feedLines k
  if !s.tagOk (hamKey h.kvd) then s.pltTagFault u span (hamKey h.kvd)
  else match kvDesc (s.line (hamKey h.kvd)) with
  | none => s.rejectFin u .rejectFormat
  | some k =>
    let total := (k.len + 63) / 64
    match feedCheck h k with
    | some st => s.rejectFin u st
    | none =>
      let s2 := s.kvScale k h.layer h.head0 0
      let tiles := ceilDiv h.p1 2
      let stage := fun (n : Nat) => s.putNoted u (hamLines h.p2 ((List.range n).flatMap fun tile => s.feedTile k h s2.2 tile))
      if s.badLine s2.1 then s.pltLineFault u span s2.1
      else match (List.range h.p1).find? fun n => h.blk n < total && (s.feedFault k h n).isSome with
        | some n => match s.feedFault k h n with
          | some (some key) => (stage (n / 2)).pltLineFault u span key
          | _ => (stage (n / 2)).faultFin u span .rejectLimit pltBlock none
        | none => (stage tiles).finish u (doneEnd span)

/-- FEED (R187 to R191). -/
def execFeed (p : Fin 2) (ups : List Upset) (s : State) : Result := s.asRead (.plt p) ups fun s =>
  match s.working (.plt p) with
  | some c => if bytesNat c.hdr 12 1 = 2 ∧ s.namedMover c.hdr then
      .next (feedWork p ups s (hdrDecl c.hdr) (plaitHdr c.hdr)) else .next s
  | none => .next s

/-- The work of a STAGE (R198, R201): the records of a shard, block-major, into a hamper buffer. -/
def stageWork (p : Fin 2) (ups : List Upset) (s : State) (decl : Nat) (h : PlaitHdr) : State :=
  let u := UnitId.plt p
  let span := pltUsed decl 16 ups
  if !s.tagOk (hamKey h.kvd) then s.pltTagFault u span (hamKey h.kvd)
  else match kvDesc (s.line (hamKey h.kvd)) with
  | none => s.rejectFin u .rejectFormat
  | some k =>
    let nblk := h.p1
    let blk := h.blk
    match stageCheck h k with
    | some st => s.rejectFin u st
    | none =>
      let moves := (List.range nblk).flatMap fun n => (List.range h.nhead).flatMap fun e =>
        (List.range k.rs).map fun i =>
          (k.recKey h.layer (h.head0 + e) (blk n) + i, hamKey (h.p2 + (n * h.nhead + e) * k.rs + i))
      let go := fun (n : Nat) => s.putNoted u ((moves.take n).map fun m => (m.2, s.line m.1))
      match moves.findIdx? fun m => s.badLine m.1 with
      | some i => (go i).pltLineFault u span ((moves.getD i (0, 0)).1)
      | none => (go moves.length).finish u (doneEnd span)

/-- STAGE (R198). -/
def execStage (p : Fin 2) (ups : List Upset) (s : State) : Result := s.asRead (.plt p) ups fun s =>
  match s.working (.plt p) with
  | some c => if bytesNat c.hdr 12 1 = 3 ∧ s.namedMover c.hdr then
      .next (stageWork p ups s (hdrDecl c.hdr) (plaitHdr c.hdr)) else .next s
  | none => .next s

end Sys2Proof.Machine
end

