-- ==== Sys2Proof/Machine/Movers.lean ====
section
/-! DEFINITION. The splint movers' COPY (R311 to R321, R323, R452, R527) with its grants and the host reads it makes. -/

namespace Sys2Proof.Machine

/-- Fields of a COPY header (R316). -/
structure CopyHdr where
  rows : Nat
  src : Nat
  dst : Nat
  nl : Nat
  sstr : Int
  dstr : Int
deriving DecidableEq, Repr

/-- The fields of a header. -/
def copyHdr (h : Header) : CopyHdr :=
  { rows := bytesNat h 14 2, src := bytesNat h 20 8, dst := bytesNat h 28 8, nl := bytesNat h 36 4,
    sstr := fieldInt h 704 64, dstr := fieldInt h 768 64 }

/-- Lines of the command. -/
def CopyHdr.total (c : CopyHdr) : Nat := c.rows * c.nl

/-- The context address of line `k` on a side (R316); an address below 0 or from 2^44 is no context address. -/
def lineCa (base : Nat) (stride : Int) (nl k : Nat) : Option Nat :=
  let a : Int := base + stride * (k / max 1 nl : Nat) + 256 * (k % max 1 nl : Nat)
  if 0 ≤ a ∧ a < 2 ^ 44 then some a.toNat else none

/-- The source and destination context addresses of line `k`. -/
def CopyHdr.srcCa (c : CopyHdr) (k : Nat) : Option Nat := lineCa c.src c.sstr c.nl k
@[inherit_doc CopyHdr.srcCa] def CopyHdr.dstCa (c : CopyHdr) (k : Nat) : Option Nat := lineCa c.dst c.dstr c.nl k

/-- Is TARGET of a context address host memory, so that a command is bounded (R316). -/
def caIsHost (wins : List DWord) (ca : Nat) : Bool := winTarget (wins.getD (caWindow ca) 0#64) == 1

/-- Is a COPY bounded: a side with TARGET 1 (R316), or DRAM in open-page mode (R309), on any of its lines. -/
def State.copyBounded (s : State) (wins : List DWord) (c : CopyHdr) : Bool :=
  let dram := fun t => match t with
    | some (Target.device l) => decide (l < 0x10000000)
    | _ => false
  (List.range c.total).any fun k =>
    (c.srcCa k).any (caIsHost wins) || (c.dstCa k).any (caIsHost wins) ||
    (!s.dram.det && (dram (s.translateOpt wins (c.srcCa k) false) || dram (s.translateOpt wins (c.dstCa k) true)))

/-- Do source and destination overlap (R527 check 3). -/
def State.copyOverlap (s : State) (wins : List DWord) (c : CopyHdr) : Bool :=
  let srcs := (List.range c.total).filterMap fun k => s.translateAny wins (c.srcCa k)
  (List.range c.total).any fun k => match s.translateAny wins (c.dstCa k) with
    | some t => srcs.contains t
    | none => false

/-- The checks of R527. -/
def copyCheck (s : State) (wins : List DWord) (h : Header) : Option Status :=
  let c := copyHdr h
  if bytesNat h 13 1 ≠ 0 ∨ bytesNat h 16 3 ≠ 0 ∨ bytesNat h 104 24 ≠ 0 ∨ !caOk c.src ∨ !caOk c.dst ∨
     c.sstr % 256 ≠ 0 ∨ c.dstr % 256 ≠ 0 then some .rejectFormat
  else if c.rows = 0 ∨ c.nl = 0 ∨ c.nl > 524288 then some .rejectLimit
  else if s.copyOverlap wins c then some .rejectFormat
  else none

/-! ### Faults (R323) -/

/-- Sticky bits of MV_STATUS (R323). -/
def mvTag : Word := 0x10#32
@[inherit_doc mvTag] def mvWindow : Word := 0x20#32
@[inherit_doc mvTag] def mvBuffer : Word := 0x40#32
@[inherit_doc mvTag] def mvCycle : Word := 0x80#32
@[inherit_doc mvTag] def mvHostErr : Word := 0x100#32

/-- MV_FAULT_ADDR and MV_FAULT_AHI of a translated line (R323). -/
def mvAddr (t : Target) : Word × Word :=
  match t with
  | .device l =>
    if l < 0x10000000 then (BitVec.ofNat 32 (2 ^ 30 + l % 2 ^ 30), 0#32)
    else (BitVec.ofNat 32 ((l - 0x100000000) % 2 ^ 30), 0#32)
  | .peer _ l => (BitVec.ofNat 32 (2 ^ 31 + (l - 0x100000000) % 2 ^ 30), 0#32)
  | .host a => (BitVec.ofNat 32 (3 * 2 ^ 30 + a / 256 % 2 ^ 30), BitVec.ofNat 32 (a / 2 ^ 38 % 2 ^ 10))

/-- MV_FAULT_ADDR and MV_FAULT_AHI of a context address (R323). -/
def mvCtxAddr (ca : Nat) : Word × Word :=
  (BitVec.ofNat 32 (ca / 256 % 2 ^ 30), BitVec.ofNat 32 (2 ^ 31 + ca / 2 ^ 38 % 2 ^ 6))

/-- A mover's command ends on a fault at line `k` (R320): the cycle of detection is free (log 18). -/
def State.mvFault (s : State) (u : UnitId) (decl : Nat) (bound : Option Nat) (st : Status) (sticky : Word) (k : Nat)
    (addr : Word × Word) : State :=
  let det := (Config.freeCycle s.freeCtr).toNat % max 1 decl
  ({ s with freeCtr := s.freeCtr + 1 }).finish u
    { status := st, used := det + 1, det := det, sticky := sticky, faultAddr := some addr.1, stat := BitVec.ofNat 32 k,
      ahi := addr.2, bound := bound }

/-! ### Lines -/

/-- The core and the creel line of a target, if it lies in a creel. -/
def creelOf (t : Target) : Option (Fin 16 × Nat) :=
  match t with
  | .device key =>
    if h : 0x110000000 ≤ key ∧ key < 0x110100000 then
      some (⟨(key - 0x110000000) / 0x10000, by omega⟩, (key - 0x110000000) % 0x10000)
    else none
  | _ => none

/-- Is a line in the creel of a core that is fenced (R452). -/
def State.fencedCreel (s : State) (t : Target) : Bool :=
  match t with
  | .device l =>
    if h : 0x110000000 ≤ l ∧ l < 0x110100000 then
      (s.unit (.tc ⟨(l - 0x110000000) / 0x10000, by omega⟩)).fence != .open_
    else false
  | _ => false

/-- Does a disturbance of the line buffer strike line `k` (R318). -/
def bufferUpset (ups : List Upset) (k : Nat) : Bool := ups.any fun u => match u with
  | .buffer j => j == k
  | _ => false

/-- Change the copy in progress of a mover. -/
def State.setCopy (s : State) (m : Fin 8) (c : CopyRun) : State := { s with copies := s.copies.set m c }

/-! ### Grants (R307, R317) -/

/-- The tag group of a line in DRAM (R304). -/
def dramGroup (t : Option Target) : Option Nat :=
  match t with
  | some (.device l) => if l < 0x10000000 then some (l / 64) else none
  | _ => none

/-- The tag line of a tag group (R304). -/
def State.tagLine (s : State) (g : Nat) : Nat := s.dram.dataLines + g

/-- When an access of the tag line of group `g`, possible from FCLK `t` on, completes (R306). -/
def State.tagAccess (s : State) (m : Fin 8) (write : Bool) (g t : Nat) (taken : List (Nat × Nat) := []) : Option Nat :=
  match nextAccess s m write (s.tagLine g) t taken with
  | some x => some x.2
  | none => none

/-- The tag group of the destination of line `k`. -/
def State.dstGroup (s : State) (wins : List DWord) (c : CopyHdr) (k : Nat) : Option Nat :=
  if k < c.total then dramGroup (s.translateOpt wins (c.dstCa k) true) else none

/-- Is the tag group whose first line is line `k` written whole, in ascending order, so that its tag line need not be read
(R318). -/
def State.groupWhole (s : State) (wins : List DWord) (c : CopyHdr) (k g : Nat) : Bool :=
  (List.range 64).all fun i => decide (k + i < c.total) &&
    s.translateOpt wins (c.dstCa (k + i)) true == some (.device (64 * g + i))

/-- Does a command touch DRAM, so that it starts at the mover's DRAM phase (R307). -/
def State.copyInDram (s : State) (wins : List DWord) (c : CopyHdr) : Bool :=
  (List.range c.total).any fun k =>
    (dramGroup (s.translateAny wins (c.srcCa k))).isSome || (dramGroup (s.translateAny wins (c.dstCa k))).isSome

/-- The clock of a COPY at its start (R297, R307): a command that touches no DRAM starts at the mover's round phase
(log 76). -/
def State.copyClock (s : State) (m : Fin 8) (wins : List DWord) (c : CopyHdr) : CopyClock :=
  let t := s.disp.tables
  let b := if s.copyInDram wins c then t.dramPhases.getD m.val 0 else 4 * phaseOf t (.mv m)
  { base := b, read := b, wrote := b, frees := [], group := none, taken := [] }

/-- When line `k` of a COPY is read from device line `src` and written to device line `dst` (R317, R318): the FCLK cycle after the
start in which its write begins, and the clock after it; none where a grant never comes. A tag line is read before the
first line of a group that is read or is written in part, and written after the last one (log 76). No two accesses take one
DRAM slot of a channel, nor one period of a creel's port (R305, R317): reads of later lines go around the tag-line read and the
write of an earlier one. -/
def State.copyTimes (s : State) (m : Fin 8) (wins : List DWord) (c : CopyHdr) (k src dst : Nat) (x : CopyClock) :
    Option (Nat × CopyClock) :=
  let gs := dramGroup (some (.device src))
  let gd := s.dstGroup wins c k
  let first := k = 0 || s.dstGroup wins c (k - 1) != gd
  let r0 := max x.read (if x.frees.length < 16 then x.base else x.frees.getLastD x.base)
  let r1 := match gs with
    | some g => if x.group = some g then some r0 else s.tagAccess m false g r0 x.taken
    | none => some r0
  match r1.bind fun r => nextAccess s m false src r x.taken with
  | none => none
  | some rd =>
    let w0 := max (rd.2 + 8) x.wrote
    let w1 := match gd with
      | some g => if first && !s.groupWhole wins c k g then s.tagAccess m false g w0 else some w0
      | none => some w0
    let tag : List (Nat × Nat) := match gd, w1 with
      | some g, some w => if w = w0 then [] else [(w - dramSlotLen s.dram.rate, grantOf (s.tagLine g))]
      | _, _ => []
    match w1.bind fun w => nextAccess s m true dst w with
    | none => none
    | some wr =>
      let w2 : Option Nat := match gd with
        | some g => if s.dstGroup wins c (k + 1) != gd then s.tagAccess m true g wr.2 else some wr.2
        | none => some wr.2
      w2.map fun w => (wr.1 - x.base,
        { x with read := rd.2, wrote := w, frees := (wr.2 :: x.frees).take 16, group := gs.orElse fun _ => x.group,
                 taken := (x.taken ++ tag ++ (if dst < 0x110000000 then [] else [(wr.1, grantOf dst)])).filter (rd.2 ≤ ·.1) })

/-- The count of a COPY without fault (R316, R317): 4 FCLK cycles after the last write, in ACLK cycles; a bounded one takes a
free count up to its bound (log 18, log 20). Disturbances add. -/
def State.mvDone (s : State) (m : Fin 8) (decl : Nat) (clk : Option CopyClock) (ups : List Upset) : State :=
  let s := s.setCopy m CopyRun.init
  match clk with
  | none =>
    let most := if (s.unit (.mv m)).run.any (·.slowed) then 2 * decl else decl
    ({ s with freeCtr := s.freeCtr + 1 }).finish (.mv m)
      { doneEnd ((Config.freeCycle s.freeCtr).toNat % max 1 most + 1 + extraOf ups) with bound := some decl }
  | some x => s.finish (.mv m) (doneEnd (2 * (x.wrote - x.base + 4) + extraOf ups))

/-- Is line `k` the last that the command writes in its tag group, so that the tag line is written back after it (R318): then the
ACLK cycle of that write, where the clock `clk` after the line fixes it. -/
def State.tagBack (s : State) (wins : List DWord) (c : CopyHdr) (k : Nat) (clk : Option CopyClock) : Option (Option Nat) :=
  let g := s.dstGroup wins c k
  if g.isSome && s.dstGroup wins c (k + 1) != g then
    some (clk.map fun y => 2 * (y.wrote - dramSlotLen s.dram.rate - y.base))
  else none

/-- Write line `k`, read as `l` with tag `tag`, after the recheck of the line buffer (R318): into a store of the device at
once, noted with the cycle in which its write begins and the tag line's write; to host memory by a post that leaves at the
latest with the command's end (R321). Host memory stores no tag. -/
def State.copyPut (s : State) (m : Fin 8) (ups : List Upset) (p : Placed) (bound : Option Nat) (k : Nat) (dst : Target)
    (l : Line) (tag : Option Word) (cycle : Option Nat) (tagLine : Option (Option Nat)) : Except State State :=
  if bufferUpset ups k then .error (s.mvFault (.mv m) (hdrDecl p.hdr) bound .internal mvBuffer k (mvAddr dst))
  else .ok (match dst with
    | .device key => (s.noteWrite (.mv m) k cycle key tagLine).putLineTag key l tag
    | .host a => s.modUnit (.mv m) fun x => { x with posts := x.posts ++ [⟨k, cycle, a, l, tag.getD (lineTag l)⟩] }
    | .peer _ _ => s)

/-- Lines of a COPY from line `k` on, until its end, a fault, a host read, or a grant that never comes (R314, R317, R318, R320,
R452). Fuel is the number of lines left; `clk` is none for a bounded command. A line on a peer chip is no line a COPY can
reach (log 21). -/
def copyLines (m : Fin 8) (ups : List Upset) (p : Placed) (c : CopyHdr) : Nat → Option CopyClock → State → State
  | 0, clk, s => s.mvDone m (hdrDecl p.hdr) clk ups
  | n + 1, clk, s =>
    let k := c.total - (n + 1)
    let u := UnitId.mv m
    let decl := hdrDecl p.hdr
    let bound := if clk.isNone then some decl else none
    let stop := fun (s : State) => s.setCopy m CopyRun.init
    match s.translateOpt p.windows (c.srcCa k) false, s.translateOpt p.windows (c.dstCa k) true with
    | some src, some dst =>
      if p.clash.any (·.1 == k) then
        (stop s).mvFault u decl bound .creelConflict 0#32 k ((p.clash.map (·.2)).getD 0#32, 0#32)
      else if s.fencedCreel src then (stop s).mvFault u decl bound .fenced 0#32 k (mvAddr src)
      else if s.fencedCreel dst then (stop s).mvFault u decl bound .fenced 0#32 k (mvAddr dst)
      else
        match src, dst with
        | _, .peer .. => (stop s).mvFault u decl bound .windowFault mvWindow k (mvCtxAddr ((c.dstCa k).getD 0))
        | .peer .., _ => (stop s).mvFault u decl bound .windowFault mvWindow k (mvCtxAddr ((c.srcCa k).getD 0))
        | .host a, _ => (s.setCopy m { CopyRun.init with k := k, waiting := true }).emit (.hostRead a)
        | .device key, _ =>
          if !s.tagOk key then (stop s).mvFault u decl bound .tagFault mvTag k (mvAddr src)
          else
            let times : Option (Option Nat × Option CopyClock) := match clk, dst with
              | some x, .device d => match s.copyTimes m p.windows c k key d x with
                | some y => some (some (2 * y.1), some y.2)
                | none => none
              | _, _ => some (none, clk)
            match times with
            | none => s.setCopy m { CopyRun.init with k := k, stalled := true }
            | some y =>
              match s.copyPut m ups p bound k dst (s.line key) (s.badTag key) y.1 (s.tagBack p.windows c k y.2) with
              | .error s => stop s
              | .ok s => copyLines m ups p c n y.2 s
    | none, _ => (stop s).mvFault u decl bound .windowFault mvWindow k (mvCtxAddr ((c.srcCa k).getD 0))
    | _, none => (stop s).mvFault u decl bound .windowFault mvWindow k (mvCtxAddr ((c.dstCa k).getD 0))

/-! ### Two units at one creel or one tag line (R83, R299, R319) -/

/-- The targets of line `k` of a mover's command that it reads or writes itself: both sides of a COPY, the source of a SEND. -/
def State.moverTargets (s : State) (p : Placed) (k : Nat) : List Target :=
  if bytesNat p.hdr 12 1 = 1 then
    let c := copyHdr p.hdr
    if k < c.total then
      (s.translateOpt p.windows (c.srcCa k) false).toList ++ (s.translateOpt p.windows (c.dstCa k) true).toList
    else []
  else if bytesNat p.hdr 12 1 = 2 ∧ k < bytesNat p.hdr 36 4 then
    (s.translate p.windows (bytesNat p.hdr 20 8 + 256 * k) false).toList
  else []

/-- A mover's access of creel line `line` of core `n` for its line `k` is noted in the command that the core runs, in a slot
period that is not past: the access is at the period's first cycle (R148, R299). -/
def State.visit (s : State) (m : Fin 8) (k period : Nat) (n : Fin 16) (line : Nat) : State :=
  let c := s.core n
  let running := match (s.unit (.tc n)).run with
    | some q => q.stage == .running
    | none => false
  if running && decide (c.run.cycle ≤ 8 * period) then
    s.setCore n { c with run := { c.run with
      visits := c.run.visits ++ [{ cycle := 8 * period, mover := m, k := k, line := line }] } }
  else s

/-- Two movers meet at a creel's port, whatever its core runs (R83, R293): both commands collide at their lines, at the first
creel line that both name; none where they share no creel. -/
def State.meetPair (s : State) (m other : Fin 8) (k j : Nat) : State :=
  match s.working (.mv m), (s.unit (.mv other)).run with
  | some p, some q =>
    if other = m ∨ q.stage ≠ .running then s
    else
      let mine := (s.moverTargets p k).filterMap creelOf
      let theirs := (s.moverTargets q j).filterMap creelOf
      match mine.findSome? fun a => (theirs.find? (·.1 == a.1)).map fun b => (a, b) with
      | some (a, b) =>
        (s.collideMover a.1 { cycle := 0, mover := other, k := j, line := b.2 }).collideMover a.1
          { cycle := 0, mover := m, k := k, line := a.2 }
      | none => s
  | _, _ => s

/-- The creel accesses of a mover's command that meet a core's command or another mover's. -/
def State.visits (s : State) (m : Fin 8) (p : Placed) (ups : List Upset) : State :=
  ups.foldl (fun s u => match u with
    | .meet k period => ((s.moverTargets p k).filterMap creelOf).foldl (fun s x => s.visit m k period x.1 x.2) s
    | .meetMover k other j => s.meetPair m other k j
    | _ => s) s

/-- The tags that a mover's read-modify-write of a shared tag line puts back (R319): those that another mover's running command
had replaced in a group that both write. -/
def State.raceTags (s : State) (m : Fin 8) (ups : List Upset) : State :=
  let mine := (s.unit (.mv m)).undo
  ups.foldl (fun s u => match u with
    | .tagRace l =>
      if l < 0x10000000 && mine.any (fun w => w.key < 0x10000000 && w.key / 64 == l / 64) then
        let others := (List.finRange 8).filter (· ≠ m) |>.flatMap fun j => (s.unit (.mv j)).undo
        match others.find? (·.key == l) with
        | some w =>
          let t := w.tag.getD (lineTag w.old)
          s.putLineTag l (s.line l) (if t = lineTag (s.line l) then none else some t)
        | none => s
      else s
    | _ => s) s

/-- COPY (R316 to R320). -/
def execCopy (m : Fin 8) (ups : List Upset) (s : State) : Result := s.asRead (.mv m) ups fun s =>
  match s.working (.mv m) with
  | none => .next s
  | some p =>
    if bytesNat p.hdr 12 1 ≠ 1 ∨ s.copies[m].waiting ∨ s.copies[m].stalled then .next s
    else
      let c := copyHdr p.hdr
      match copyCheck s p.windows p.hdr with
      | some st => .next (s.rejectFin (.mv m) st)
      | none =>
        let clk := if s.copyBounded p.windows c then none else some (s.copyClock m p.windows c)
        let s := s.visits m p ups
        let p := (s.working (.mv m)).getD p
        .next ((copyLines m ups p c c.total clk s).raceTags m ups)

/-- A host read of a COPY ends with an error status or a timeout (R320). -/
def State.copyHostError (s : State) (m : Fin 8) : State :=
  match s.working (.mv m) with
  | none => s.setCopy m CopyRun.init
  | some p =>
    let r := s.copies[m]
    if !r.waiting then s
    else
      let c := copyHdr p.hdr
      let addr := match s.translateOpt p.windows (c.srcCa r.k) false with
        | some t => mvAddr t
        | none => (0#32, 0#32)
      (s.setCopy m CopyRun.init).mvFault (.mv m) (hdrDecl p.hdr) (some (hdrDecl p.hdr)) .windowFault
        (mvHostErr ||| mvWindow) r.k addr

/-- HOST_READ_COMPLETION (R318, R320): the line takes a new tag and is written; the copy goes on. -/
def execHostReadCompletion (m : Fin 8) (line : Line) (err : Bool) (ups : List Upset) (s : State) : Result :=
  if err then .next (s.copyHostError m)
  else s.asRead (.mv m) ups fun s => match s.working (.mv m) with
  | none => .next (s.setCopy m CopyRun.init)
  | some p =>
    let r := s.copies[m]
    if !r.waiting then .next s
    else
      let c := copyHdr p.hdr
      let s := s.setCopy m CopyRun.init
      let bound := some (hdrDecl p.hdr)
      match s.translateOpt p.windows (c.dstCa r.k) true with
      | some dst =>
        if s.fencedCreel dst then .next (s.mvFault (.mv m) (hdrDecl p.hdr) bound .fenced 0#32 r.k (mvAddr dst))
        else
          match s.copyPut m ups p bound r.k dst line none none (s.tagBack p.windows c r.k none) with
          | .error s => .next s
          | .ok s => .next (copyLines m ups p c (c.total - (r.k + 1)) none s)
      | none => .next s

/-- COMPLETION_TIMEOUT (R320, R355). -/
def execCompletionTimeout (m : Fin 8) (s : State) : Result := .next (s.copyHostError m)

end Sys2Proof.Machine
end

