-- ==== Sys2Proof/Machine/Transfers.lean ====
section
/-! DEFINITION. Tensor transfers over links (R396 to R404, R443, R464): the movers' SEND, RECV and TIEMSG, Plait's
ROTATE, and the flits HEAD, DATA, TAIL, READY and REFUSE. -/

namespace Sys2Proof.Machine

/-! ### Halves -/

/-- NL of a command's halves: P2 of a ROTATE. -/
def halfNl (u : UnitId) (h : Header) : Nat :=
  match u with
  | .plt _ => bytesNat h 32 4
  | _ => bytesNat h 36 4

/-- The hamper line that a device address names. -/
def hamOf (k : Nat) : Option Nat := if 0x100000000 ≤ k ∧ k < 0x100080000 then some (k - 0x100000000) else none

/-- The store key of line `k` that a send half reads; none is a window fault. Only this chip's store can be sent. -/
def State.sendKey (s : State) (u : UnitId) (p : Placed) (k : Nat) : Option Nat :=
  match u with
  | .plt _ => some (hamKey (bytesNat p.hdr 24 4 + k))
  | _ => match s.translate p.windows (bytesNat p.hdr 20 8 + 256 * k) false with
    | some (.device l) => some l
    | _ => none

/-- The hamper line of line `k` of a SEND's destination on its peer, and that peer; none is a window fault (R403). -/
def State.sendDst (s : State) (p : Placed) (k : Nat) : Option (Nat × Nat) :=
  match s.translate p.windows (bytesNat p.hdr 28 8 + 256 * k) true with
  | some (.peer c l) => (hamOf l).map fun h => (c, h)
  | _ => none

/-- DLINE that a send half puts into its HEAD (R391): a ROTATE sends to the line that its own half receives at. -/
def State.sendDline (s : State) (u : UnitId) (p : Placed) : Nat :=
  match u with
  | .plt _ => bytesNat p.hdr 28 4
  | _ => match s.sendDst p 0 with
    | some x => x.2
    | none => 0

/-- The hamper line at which a receive half writes line `k`; none is a window fault (R403). -/
def State.recvLine (s : State) (u : UnitId) (p : Placed) (k : Nat) : Option Nat :=
  match u with
  | .plt _ => some (bytesNat p.hdr 28 4 + k)
  | _ => match s.translate p.windows (bytesNat p.hdr 20 8 + 256 * k) true with
    | some (.device l) => hamOf l
    | _ => none

/-- Fault address of a line of this chip that a half reads or writes: MV_FAULT_ADDR and PLT_FAULT_ADDR have one layout (R204,
R323). -/
def halfAddr (_u : UnitId) (k : Nat) : Word := (mvAddr (.device k)).1

/-- Fault address of a line on the other side of a link, SPACE 2: the device line that it has or takes there (R204, R323). -/
def linkAddr (k : Nat) : Word := (mvAddr (.peer 0 k)).1

/-! ### Header checks (R206, R403, R527) -/

/-- Checks of a SEND before any side effect, but for its windows. -/
def sendCheck (h : Header) : Option Status :=
  if bytesNat h 13 1 > 5 ∨ bytesNat h 14 5 ≠ 0 ∨ bytesNat h 88 16 ≠ 0 ∨ bytesNat h 108 20 ≠ 0 ∨
     !caOk (bytesNat h 20 8) ∨ !caOk (bytesNat h 28 8) then some .rejectFormat
  else if bytesNat h 36 4 = 0 ∨ bytesNat h 36 4 > 524288 then some .rejectLimit else none

/-- Checks of a RECV. -/
def recvCheck (h : Header) : Option Status :=
  if bytesNat h 13 1 > 5 ∨ bytesNat h 14 5 ≠ 0 ∨ bytesNat h 28 8 ≠ 0 ∨ bytesNat h 88 16 ≠ 0 ∨ bytesNat h 108 20 ≠ 0 ∨
     !caOk (bytesNat h 20 8) then some .rejectFormat
  else if bytesNat h 36 4 = 0 ∨ bytesNat h 36 4 > 524288 then some .rejectLimit else none

/-- Checks of a TIEMSG: the destination must be another chip of the context's job (R403). -/
def tiemsgCheck (s : State) (ctx : Nat) (h : Header) : Option Status :=
  let job := match (s.ctx ctx).img with
    | some g => g.job
    | none => []
  if bytesNat h 14 5 ≠ 0 ∨ bytesNat h 24 4 ≠ 0 ∨ bytesNat h 30 6 ≠ 0 ∨
     fieldNat h 305 15 ≠ 0 ∨ bytesNat h 88 40 ≠ 0 then some .rejectFormat
  else if bytesNat h 20 4 = 0 ∨ bytesNat h 20 4 > 0x7FFFFFFF then some .rejectLimit
  else if bytesNat h 13 1 = s.self ∨ !job.contains (bytesNat h 13 1) then some .rejectContext else none

/-- The first line of a SEND whose destination is no hamper line of the chip that LINK joins (R403). -/
def State.sendWindowBad (s : State) (p : Placed) : Option Nat :=
  let peer := (s.peerOf (bytesNat p.hdr 13 1)).map (·.1)
  (List.range (bytesNat p.hdr 36 4)).find? fun k => match s.sendDst p k with
    | some x => some x.1 != peer
    | none => true

/-- The first line of a RECV whose destination is no hamper line of this chip. -/
def State.recvWindowBad (s : State) (u : UnitId) (p : Placed) : Option Nat :=
  (List.range (halfNl u p.hdr)).find? fun k => match s.recvLine u p k with
    | some l => decide (l ≥ 0x80000)
    | none => true

/-! ### Sending (R396 to R398) -/

/-- DIGEST of a transfer (R396). -/
def xferDigest (bytes : List Byte) (chip : Nat) (xid : Word) : Nat :=
  crc64 (bytes ++ [BitVec.ofNat 8 chip] ++ natToBytes 4 xid.toNat)

/-- DATA flit `i` of a transfer. -/
def dataFlit (self peer : Nat) (bytes : List Byte) (tags : List Word) (i : Nat) : Flit :=
  mkFlit tData self peer (tags.getD i 0#32) ((bytes.drop (240 * i)).take 240)

/-- The fault, if any, at line `k` of a send half: status and the two fault address words (R323). -/
def State.sendFault (s : State) (u : UnitId) (p : Placed) (k : Nat) : Option (Status × Word × Word) :=
  let ca := mvCtxAddr (bytesNat p.hdr 20 8 + 256 * k)
  match s.sendKey u p k with
  | none => some (.windowFault, ca)
  | some key =>
    let at_ := (halfAddr u key, 0#32)
    let dest := match u, s.sendDst p k with
      | .mv _, some x => mvAddr (.peer x.1 (0x100000000 + x.2))
      | .plt _, _ => (linkAddr (hamKey (s.sendDline u p + k)), 0#32)
      | _, _ => at_
    if !s.lineAssigned key then some (.windowFault, match u with
      | .mv _ => ca
      | _ => at_)
    else if s.fencedCreel (.device key) then some (.fenced, at_)
    else if p.clash.any (·.1 == k) then some (.creelConflict, (p.clash.map (·.2)).getD 0#32, 0#32)
    else if !s.tagOk key then some (.tagFault, at_)
    else if bufferUpset p.ups k then some (.internal, dest) else none

/-- Stream the lines of a send half after its READY (R396, R398). A fault in the first 16 lines stops it before HEAD; a
later one stops it after the flits whose lines were read. Lines may be read before or after another unit's write (R300). -/
def State.stream (s : State) (l : Fin 6) (u : UnitId) (p : Placed) : State :=
  let nl := halfNl u p.hdr
  let xid := halfXid u p.hdr
  let peer := match s.peerOf l.val with
    | some x => x.1
    | none => s.self
  let seen := s.seenAs (s.periodReads (some u) p.ups)
  let bad := (List.range nl).find? fun k => (seen.sendFault u p k).isSome
  let n := bad.getD nl
  let keys := (List.range n).filterMap fun k => s.sendKey u p k
  let bytes := keys.flatMap fun k => toBytes (seen.line k) 256
  let tags := keys.map seen.tag
  let head := mkFlit tHead s.self peer 0#32 (natToBytes 4 xid.toNat ++ natToBytes 4 nl ++ natToBytes 4 (s.sendDline u p))
  let datas := fun d => (List.range d).map (dataFlit s.self peer bytes tags)
  match bad with
  | none =>
    let tail := mkFlit tTail s.self peer 0#32 (natToBytes 4 xid.toNat ++ natToBytes 8 (xferDigest bytes s.self xid))
    let half := match u with
      | .plt _ => s.sentHalf u p
      | _ => none
    ((s.modRun u fun q => { q with
      sendBegun := true
      slowed := (match u with
        | .mv _ => s.slowed
        | _ => q.slowed) }).modLink l fun x => { x with txHalf := half }).sendTransfer l u
      (head :: datas (dataFlits nl) ++ [tail])
  | some k =>
    let f := (seen.sendFault u p k).getD (.internal, 0#32, 0#32)
    let s := if n < min 16 nl then s
      else (s.sendTransfer l u (head :: datas (256 * n / 240))).modLink l fun x => { x with txOwner := none }
    (s.clearHalf u).halfFault u f.1 (some f.2) k

/-- Does a disturbance put a mover's creel access beside another unit's. -/
def Upset.meets : Upset → Bool
  | .meet _ _ => true
  | .meetMover _ _ _ => true
  | _ => false

/-- Does a SEND wait until its creel accesses have been worked in the cores' commands: whether they collide is known then
(log 104). -/
def State.meeting (s : State) (u : UnitId) (p : Placed) : Bool :=
  match u with
  | .mv m => p.ups.any Upset.meets && (List.finRange 16).any fun n => (s.core n).run.visits.any (·.mover == m)
  | _ => false

/-- The creel accesses of a unit's SEND are worked as far as the cores' commands have come. -/
def State.meetSend (s : State) (u : UnitId) : State :=
  match u, s.working u with
  | .mv m, some p => if p.begun && (sendLink u p.hdr).isSome && p.ups.any Upset.meets then s.meetCores m else s
  | _, _ => s

/-- Go on with the halves of a unit: post the receive half (R398 step 1), begin the send half (steps 2 and 3). A half on
a link that is not ACTIVE, or with a peer declared lost, ends PEER_LOST (R400). -/
def State.tryHalf (s : State) (u : UnitId) : State :=
  let s := s.meetSend u
  match s.working u with
  | none => s
  | some p =>
    let held := match u with
      | .plt _ => !s.namedMover p.hdr
      | _ => false
    if !p.begun || held then s
    else
      let ls := ([sendLink u p.hdr, recvLink u p.hdr].filterMap fun o => o).filterMap fun l =>
        if h : l < 6 then some (⟨l, h⟩ : Fin 6) else none
      let dead := ls.any fun l => openHalf u p l.val && (!(s.link l).active ||
        (match s.peerOf l.val with
         | some x => s.fabric.lost.getLsbD x.1 || s.fabric.down.getLsbD x.1
         | none => true))
      if dead then s.halfLost u
      else
        let xid := halfXid u p.hdr
        let nl := halfNl u p.hdr
        let retry := match p.origin with
          | .replay .. => (match s.replayOf p with
              | some r => r.status == .linkDigest
              | none => false)
          | _ => false
        let s := match recvLink u p.hdr with
          | none => s
          | some a =>
            if h : a < 6 then
              let l : Fin 6 := ⟨a, h⟩
              if p.posted ∨ (s.link l).posted.length ≥ 4 then s
              else
                let s := s.modLink l fun x => { x with
                  posted := x.posted ++ [{ xid := xid, nl := nl, dline := (s.recvLine u p 0).getD 0, unit := u }] }
                let peer := match s.peerOf l.val with
                  | some x => x.1
                  | none => s.self
                (s.modRun u fun q => { q with posted := true }).sendFlit l
                  (mkFlit tReady s.self peer 0#32 (natToBytes 4 xid.toNat ++ natToBytes 4 nl ++ [BitVec.ofNat 8 (boolNat retry)]))
            else s
        match sendLink u p.hdr with
        | none => s
        | some a =>
          if h : a < 6 then
            let l : Fin 6 := ⟨a, h⟩
            let x := s.link l
            if p.sendBegun ∨ s.meeting u p ∨ x.txOwner.isSome ∨ !x.xq.isEmpty then s
            else
              match x.readies.find? fun r => r.1 == xid with
              | none => s
              | some r =>
                let s := s.modLink l fun y => { y with readies := y.readies.erase r }
                if r.2.1 ≠ nl then (s.clearHalf u).rejectFin u .rejectFormat else s.stream l u p
          else s

/-- Go on with every half (after an event on a link). -/
def State.tryHalves (s : State) : State := allUnits.foldl (fun s u => s.tryHalf u) s

/-- A half's row: it begins, with its disturbances; the creel accesses of a SEND are noted (R83). -/
def State.beginHalf (s : State) (u : UnitId) (ups : List Upset) : State :=
  let s := s.modRun u fun q => { q with begun := true, ups := ups }
  let s := match u, s.working u with
    | .mv m, some p => s.visits m p ups
    | _, _ => s
  s.tryHalf u

/-- The end of a half on a window check (R403). -/
def State.windowFin (s : State) (u : UnitId) (ca k : Nat) : State :=
  let a := mvCtxAddr ca
  s.finish u { faultEnd .windowFault 0 mvWindow (some a.1) with stat := BitVec.ofNat 32 k, ahi := a.2 }

/-- SEND (R396 to R403). -/
def execSend (m : Fin 8) (ups : List Upset) (s : State) : Result :=
  match s.working (.mv m) with
  | none => .next s
  | some p =>
    if bytesNat p.hdr 12 1 ≠ 2 ∨ p.begun then .next s
    else match sendCheck p.hdr with
    | some st => .next (s.rejectFin (.mv m) st)
    | none => match s.sendWindowBad p with
      | some k => .next (s.windowFin (.mv m) (bytesNat p.hdr 28 8 + 256 * k) k)
      | none => .next (s.beginHalf (.mv m) ups)

/-- RECV (R398 to R403). -/
def execRecv (m : Fin 8) (ups : List Upset) (s : State) : Result :=
  match s.working (.mv m) with
  | none => .next s
  | some p =>
    if bytesNat p.hdr 12 1 ≠ 3 ∨ p.begun then .next s
    else match recvCheck p.hdr with
    | some st => .next (s.rejectFin (.mv m) st)
    | none => match s.recvWindowBad (.mv m) p with
      | some k => .next (s.windowFin (.mv m) (bytesNat p.hdr 20 8 + 256 * k) k)
      | none => .next (s.beginHalf (.mv m) ups)

/-- TIEMSG (R403): one TIE flit, then DONE. -/
def execTiemsg (m : Fin 8) (s : State) : Result :=
  match s.working (.mv m) with
  | none => .next s
  | some p =>
    if bytesNat p.hdr 12 1 ≠ 4 then .next s
    else match tiemsgCheck s p.ctx p.hdr with
    | some st => .next (s.rejectFin (.mv m) st)
    | none =>
      let f := mkFlit tTie s.self (bytesNat p.hdr 13 1) 0#32 (natToBytes 2 (bytesNat p.hdr 28 2) ++ natToBytes 2 0 ++
        natToBytes 4 (fieldNat p.hdr 288 17) ++ natToBytes 4 (bytesNat p.hdr 20 4))
      .next ((s.sendRouted f).finish (.mv m) (doneEnd 32))

/-- ROTATE (R199, R201, R404): both halves. A line outside the hamper is a window fault of its mover (R203). -/
def execRotate (p : Fin 2) (ups : List Upset) (s : State) : Result :=
  match s.working (.plt p) with
  | none => .next s
  | some c =>
    let nl := bytesNat c.hdr 32 4
    if bytesNat c.hdr 12 1 ≠ 4 ∨ c.begun then .next s
    else if bytesNat c.hdr 17 1 > 5 then .next (s.rejectFin (.plt p) .rejectFormat)
    else if nl = 0 ∨ nl > 524288 then .next (s.rejectFin (.plt p) .rejectLimit)
    else match s.recvWindowBad (.plt p) c with
    | some k => .next (s.finish (.plt p) (faultEnd .windowFault 0 0x20#32
        (some (halfAddr (.plt p) (hamKey (bytesNat c.hdr 28 4 + k))))))
    | none => .next (s.beginHalf (.plt p) ups)

/-! ### Receiving -/

/-- What a link row does after the link layer has accepted the flit; the waiting halves then go on. -/
def linkRow (l : Fin 6) (f : Flit) (typ : Byte) (act : State → State) (s : State) : Result :=
  if f.typ ≠ typ then .next s
  else
    let x := linkRx l f s
    .next (if x.2 then act x.1 else x.1).tryHalves

/-- A LINK_REFUSED event (R399, R405). -/
def State.refusedEvent (s : State) (l : Fin 6) : State := s.event (.linkRefused l.val) []

/-- A receive half ends LINK_DIGEST (R399, R443): counted, and the third on one link within 3,600 s makes Protil turn the
link off; where this chip is the manager it sends PEER_LOST for the peer (R464). -/
def State.digestFault (s : State) (l : Fin 6) (u : UnitId) : State :=
  let now := s.evr.hours.toNat
  let ts := ((s.link l).digestTimes.filter fun t => now - t ≤ 3600)
  let third := decide (ts.length ≥ 2)
  let s := s.modLink l fun x => { x with digest := satInc x.digest, digestTimes := (now :: ts).take 2 }
  let s := (s.clearRecv u).halfFault u .linkDigest none 0
  if !third then s
  else
    let manages := s.isManager
    let s := (s.linkLeave l 0).modLink l fun x => { x with en := false }
    match s.peerOf l.val with
    | some p => if manages then s.declareLost p.1 else s
    | none => s

/-- HEAD (R391, R399): a transfer begins. One that is still open has lost its TAIL. -/
def headAct (l : Fin 6) (f : Flit) (s : State) : State :=
  let xid := f.payload.extractLsb' 0 32
  let nl := fieldNat f.payload 32 32
  let dline := fieldNat f.payload 64 32
  let s := match (s.link l).rx with
    | some r => (match r.post with
      | some p => s.digestFault l p.unit
      | none => s)
    | none => s
  if !(s.link l).active then s
  else
    let r : RxTransfer := { post := none, i := 0, bytes := [], tags := [], lines := 0 }
    match (s.link l).posted.find? fun p => p.xid == xid && p.nl == nl && p.dline == dline with
    | some p =>
      (s.modLink l fun x => { x with posted := x.posted.erase p, rx := some { r with post := some p } }).modRun p.unit
        fun q => { q with slowed := s.slowed }
    | none =>
      let peer := match s.peerOf l.val with
        | some x => x.1
        | none => s.self
      ((s.modLink l fun x => { x with rx := some r, refused := satInc x.refused }).refusedEvent l).sendFlit l
        (mkFlit tRefuse s.self peer 0#32 (natToBytes 4 xid.toNat ++ [1#8]))

/-- HEAD. -/
def execHead (l : Fin 6) (f : Flit) (s : State) : Result := linkRow l f tHead (headAct l f) s

/-- Write the lines of a transfer whose bytes are all in (R398 step 4). A bad tag is a fault on reading the link, whose line is
recorded as on the other side (R204, R323). HEAD names no source, so its address there is given by the line it is meant for
(DESIGN CHOICE, log 105). Fuel bounds the lines. -/
def recvLines (l : Fin 6) (p : Posted) : Nat → State → State
  | 0, s => s
  | n + 1, s =>
    match (s.link l).rx with
    | none => s
    | some r =>
      let j := r.lines
      if r.post ≠ some p ∨ j ≥ p.nl ∨ 256 * (j + 1) > 240 * r.i then s
      else
        let b := (r.bytes.drop (256 * j)).take 256
        let line := lineOfBytes b
        let key := hamKey (p.dline + j)
        let ups := match (s.unit p.unit).run with
          | some q => q.ups
          | none => []
        let fault := fun st addr => (s.clearHalf p.unit).halfFault p.unit st (some (addr, 0#32)) j
        if lineTag line ≠ r.tags.getD j 0#32 then fault .tagFault (linkAddr key)
        else if bufferUpset ups j then fault .internal (halfAddr p.unit key)
        else
          recvLines l p n ((s.putNoted p.unit [(key, line)]).modLink l fun x => { x with rx := some { r with lines := j + 1 } })

/-- DATA (R396, R398, R399). -/
def dataAct (l : Fin 6) (f : Flit) (s : State) : State :=
  match (s.link l).rx with
  | none => s
  | some r =>
    match r.post with
    | none => s
    | some p =>
      let s := s.modLink l fun x => { x with rx := some { r with
        i := r.i + 1
        bytes := r.bytes ++ toBytes f.payload 240
        tags := r.tags ++ [f.tagw] } }
      recvLines l p 2 s

/-- DATA. -/
def execData (l : Fin 6) (f : Flit) (s : State) : Result := linkRow l f tData (dataAct l f) s

/-- TAIL (R396, R398, R399): the transfer ends; structure and digest are judged. A TAIL whose half a fence ended is counted
(R451). -/
def tailAct (l : Fin 6) (f : Flit) (s : State) : State :=
  match (s.link l).rx with
  | none => s.modLink l fun x => { x with refused := satInc x.refused }
  | some r =>
    let s := s.modLink l fun x => { x with rx := none }
    match r.post with
    | none => s
    | some p =>
      let ok := f.payload.extractLsb' 0 32 = p.xid ∧ r.i = dataFlits p.nl ∧
        fieldNat f.payload 32 64 = xferDigest (r.bytes.take (256 * p.nl)) f.src.toNat p.xid
      if ok then (s.modRun p.unit fun q => { q with recvDone := true }).halvesDone p.unit
      else s.digestFault l p.unit

/-- TAIL. -/
def execTail (l : Fin 6) (f : Flit) (s : State) : Result := linkRow l f tTail (tailAct l f) s

/-- READY (R398, R401): a RETRY that names a send half which has ended DONE makes the dispatcher replay that command. -/
def readyAct (l : Fin 6) (f : Flit) (s : State) : State :=
  let xid := f.payload.extractLsb' 0 32
  let nl := fieldNat f.payload 32 32
  let retry := bitAt f.payload 64
  let s := s.modLink l fun x => { x with readies := x.readies ++ [(xid, nl, retry)] }
  match (s.link l).sent.find? fun h => h.xid == xid with
  | some h =>
    if retry then
      let s := s.modLink l fun x => { x with sent := x.sent.erase h }
      { s with disp := { s.disp with replays := s.disp.replays ++
          [{ ctx := h.ctx, frame := h.frame, fallback := h.fallback, q := h.q, pos := h.pos, struck := h.unit,
             status := .done, steps := [h.cmd], placed := false, counts := false,
             det := 0, loc := [], waitFence := none, sent := false }] } }
    else s
  | none => s

/-- READY. -/
def execReady (l : Fin 6) (f : Flit) (s : State) : Result := linkRow l f tReady (readyAct l f) s

/-- REFUSE (R399): logged; the send half still ends DONE. -/
def execRefuse (l : Fin 6) (f : Flit) (s : State) : Result := linkRow l f tRefuse (fun s => s.refusedEvent l) s

/-- TRANSFER_GAP_TIMEOUT (R400): 10 µs between two flits of a transfer that has started. -/
def execTransferGapTimeout (l : Fin 6) (sending : Bool) (s : State) : Result :=
  let x := s.link l
  if sending then
    match x.txOwner with
    | some u => .next (s.halfLost u).tryHalves
    | none => .next (s.modLink l fun y => { y with xq := [], xsent := 0, gap := false, txHalf := none })
  else match x.rx with
  | none => .next s
  | some r =>
    let s := s.modLink l fun y => { y with rx := none }
    match r.post with
    | some p => .next (s.halfLost p.unit).tryHalves
    | none => .next s

end Sys2Proof.Machine
end

