-- ==== Sys2Proof/Machine/Waling.lean ====
section
/-! DEFINITION. Waling's TOPK, NMS2D and NMSBEV (R226 to R232): selection under a total order, and greedy suppression. -/

namespace Sys2Proof.Machine

/-- Fields of a Waling header (R226). -/
structure WalHdr where
  op : Nat
  sfmt : Nat
  agnostic : Bool
  k : Nat
  inLine : Nat
  n : Nat
  out : Nat
  thresh : Nat
  iout : Word
  maxout : Nat
deriving DecidableEq, Repr

/-- The fields of a header (R226, R230: MAXOUT is K for TOPK). -/
def walHdr (h : Header) : WalHdr :=
  let op := bytesNat h 12 1
  let k := bytesNat h 16 2
  { op := op, sfmt := bytesNat h 13 1, agnostic := bitAt h 112, k := k, inLine := bytesNat h 20 4, n := bytesNat h 24 4,
    out := bytesNat h 28 4, thresh := bytesNat h 32 4, iout := h.extractLsb' 288 32,
    maxout := if op = 1 then k else bytesNat h 88 2 }

/-- The checks of R232, a line beyond the hamper last (log 73). -/
def walCheck (h : Header) : Option Status :=
  let w := walHdr h
  if w.op = 0 ∨ w.op > 3 ∨ w.sfmt > 4 ∨ fieldNat h 113 7 ≠ 0 then some .rejectFormat
  else if w.k = 0 ∨ w.k > 4096 ∨ w.n = 0 ∨ w.n > 65536 ∨ w.maxout = 0 ∨ w.maxout > w.k then some .rejectLimit
  else if !hamFits w.inLine (ceilDiv (32 * w.n) 256) ∨ !hamFits w.out (ceilDiv (32 * (w.maxout + 1)) 256) then
    some .rejectFormat
  else none

/-- Occupancy (R232). -/
def walOcc (h : WalHdr) : Nat :=
  if h.op = 1 then 40 + h.n + ceilDiv (h.k + 1) 2
  else 40 + h.n + ceilDiv (h.k * (h.k - 1) / 2) (if h.op = 2 then 64 else 8) + h.k + ceilDiv (h.maxout + 1) 2

/-- A score by SFMT (R226). -/
def walScore (sfmt v : Nat) : Fp :=
  if sfmt = 0 then fpDecode .fp32 v
  else if sfmt = 1 then fpDecode .fp16 (v % 2 ^ 16)
  else if sfmt = 2 then fpDecode .bf16 (v % 2 ^ 16)
  else if sfmt = 3 then Fp.ofInt (signedOf 16 v)
  else Fp.ofInt (signedOf 8 v)

/-- A candidate: its index, score, class, record and boxes (R226). -/
structure Cand where
  index : Nat
  score : Fp
  cls : Nat
  rcd : BitVec 256
deriving DecidableEq, Repr

/-- Box field `i`. -/
def Cand.b (c : Cand) (i : Nat) : Word := c.rcd.extractLsb' (64 + 32 * i) 32

/-- Candidate `i` of the input bytes. -/
def candOf (sfmt : Nat) (bs : Array Byte) (i : Nat) : Cand :=
  let r : BitVec 256 := BitVec.ofNat 256 (natOfBytes ((List.range 32).map fun j => bs.getD (32 * i + j) 0#8))
  { index := i, score := walScore sfmt (bytesNat r 0 4), cls := bytesNat r 4 1, rcd := r }

/-- Is a candidate valid (R227). -/
def candValid (h : WalHdr) (c : Cand) : Bool :=
  fpLe (walScore h.sfmt h.thresh) c.score &&
  (h.op == 1 || (List.range (if h.op = 2 then 4 else 6)).all fun i => (f32 (c.b i)).isFinite)

/-- Insert a candidate into a selection of at most `k`, by descending score and then ascending index (R227). Candidates
come in ascending index. -/
def insertCand (c : Cand) : List Cand → List Cand
  | [] => [c]
  | x :: xs => if fpLt x.score c.score then c :: x :: xs else x :: insertCand c xs

/-- The selection (R227). -/
def walSelect (k : Nat) (cs : List Cand) : List Cand := cs.foldl (fun l c => (insertCand c l).take k) []

/-- Is `I > 0`, `U > 0` and `I > IOUT * U` (R228). -/
def coverTest (iout i aa ab : Word) : Bool :=
  let u := f32Sub (f32Add aa ab) i
  fpLt (.fin false 0 0) (f32 i) && fpLt (.fin false 0 0) (f32 u) && fpLt (f32 (f32Mul iout u)) (f32 i)

/-- Is `b` covered by `a` under NMS2D (R228). -/
def covered2d (iout : Word) (a b : Cand) : Bool :=
  let iw := f32Sub (f32Min (a.b 2) (b.b 2)) (f32Max (a.b 0) (b.b 0))
  let ih := f32Sub (f32Min (a.b 3) (b.b 3)) (f32Max (a.b 1) (b.b 1))
  let i := if fpLe (f32 iw) (.fin false 0 0) || fpLe (f32 ih) (.fin false 0 0) then 0#32 else f32Mul iw ih
  let area := fun (c : Cand) => f32Mul (f32Sub (c.b 2) (c.b 0)) (f32Sub (c.b 3) (c.b 1))
  coverTest iout i (area a) (area b)

/-- The corners of a rotated box, counter-clockwise (R229). -/
def boxCorners (c : Cand) : List (Word × Word) :=
  let ax := f32Mul (c.b 2) (c.b 4)
  let ay := f32Mul (c.b 2) (c.b 5)
  let bx := f32Neg (f32Mul (c.b 3) (c.b 5))
  let by' := f32Mul (c.b 3) (c.b 4)
  [(f32Add (f32Add (c.b 0) ax) bx, f32Add (f32Add (c.b 1) ay) by'),
   (f32Add (f32Sub (c.b 0) ax) bx, f32Add (f32Sub (c.b 1) ay) by'),
   (f32Sub (f32Sub (c.b 0) ax) bx, f32Sub (f32Sub (c.b 1) ay) by'),
   (f32Sub (f32Add (c.b 0) ax) bx, f32Sub (f32Add (c.b 1) ay) by')]

/-- Clip a polygon by the half-plane left of an edge (R229). -/
def clipEdge (x0 y0 dx dy : Word) (ps : List (Word × Word)) : List (Word × Word) :=
  let n := ps.length
  let z : Word × Word := (0#32, 0#32)
  let side := fun (p : Word × Word) => f32Fma dx (f32Sub p.2 y0) (f32Neg (f32Mul dy (f32Sub p.1 x0)))
  let inside := fun w => fpLe (.fin false 0 0) (f32 w)
  (List.range n).flatMap fun i =>
    let p := ps.getD i z
    let q := ps.getD ((i + 1) % n) z
    let si := side p
    let sk := side q
    (if inside si then [p] else []) ++
    (if inside si != inside sk then
      let t := f32Div si (f32Sub si sk)
      [(f32Fma t (f32Sub q.1 p.1) p.1, f32Fma t (f32Sub q.2 p.2) p.2)]
    else [])

/-- The intersection of two rotated boxes (R229). -/
def interRot (a b : Cand) : Word :=
  let e := boxCorners b
  let z : Word × Word := (0#32, 0#32)
  let ps := (List.range 4).foldl (fun (ps : List (Word × Word)) i =>
    let p := e.getD i z
    let q := e.getD ((i + 1) % 4) z
    if ps.isEmpty then [] else clipEdge p.1 p.2 (f32Sub q.1 p.1) (f32Sub q.2 p.2) ps) (boxCorners a)
  let n := ps.length
  if n = 0 then 0#32
  else
    let s := (List.range n).foldl (fun s i =>
      let p := ps.getD i z
      let q := ps.getD ((i + 1) % n) z
      f32Add (f32Fma p.1 q.2 (f32Neg (f32Mul q.1 p.2))) s) 0#32
    f32Mul 0x3F000000#32 (f32Abs s)

/-- Is `b` covered by `a` under NMSBEV (R229). -/
def coveredBev (iout : Word) (a b : Cand) : Bool :=
  let area := fun (c : Cand) => f32Mul (f32Mul 0x40800000#32 (c.b 2)) (c.b 3)
  coverTest iout (interRot a b) (area a) (area b)

/-- The kept candidates, in selection order (R230). -/
def walKeep (h : WalHdr) (sel : List Cand) : List Cand :=
  let covers := if h.op = 2 then covered2d h.iout else coveredBev h.iout
  if h.op = 1 then sel
  else sel.foldl (fun kept j =>
    if kept.length < h.maxout && !kept.any (fun i => (h.agnostic || i.cls == j.cls) && covers i j) then kept ++ [j]
    else kept) []

/-- An output record (R231). -/
def walRecord (c : Cand) : List Byte :=
  toBytes (setField (setField c.rcd 40 1 1) 48 16 c.index) 32

/-- The output bytes: records and the summary (R231). -/
def walOutput (h : WalHdr) (sel kept : List Cand) (valid : Nat) : List Byte :=
  kept.flatMap walRecord ++ List.replicate (32 * (h.maxout - kept.length)) 0#8 ++
  [valid, sel.length, kept.length, h.n - valid].flatMap (natToBytes 4) ++ List.replicate 16 0#8

/-- The candidates `0` to `n - 1` that are valid (R227). -/
def State.walValid (s : State) (h : WalHdr) (n : Nat) : List Cand :=
  let bs := (s.bytesAt (hamKey h.inLine) 0 (32 * n)).toArray
  ((List.range n).map (candOf h.sfmt bs)).filter (candValid h)

/-- The work of a Waling command (R226 to R232): the output follows the last candidate, so a tag fault leaves none, and has counted
invalid candidates before its line. -/
def walWork (e : Fin 2) (ups : List Upset) (s : State) (hd : Header) : State :=
  let u := UnitId.wal e
  let h := walHdr hd
  let span := 2 * walOcc h + extraOf ups
  match walCheck hd with
  | some st => s.rejectFin u st
  | none =>
      match s.firstBadOf (hamKeys h.inLine (ceilDiv (32 * h.n) 256)) with
      | some k =>
        let before := 8 * (k - hamKey h.inLine)
        (s.statSome u (before - (s.walValid h before).length)).engTagFault u (s.unit u).regs.stat span k ups
      | none =>
        let valid := s.walValid h h.n
        let sel := walSelect h.k valid
        let out := walOutput h sel (walKeep h sel) valid.length
        (s.putNoted u (hamLines h.out (linesOfBytes (ceilDiv out.length 256) out))).engDone u (h.n - valid.length) span ups

/-- TOPK (R226, R227, R230 to R232). -/
def execTopk (e : Fin 2) (ups : List Upset) (s : State) : Result := s.asRead (.wal e) ups fun s =>
  match s.working (.wal e) with
  | some c => if bytesNat c.hdr 12 1 = 1 then .next (walWork e ups s c.hdr) else .next s
  | none => .next s

/-- NMS2D (R226 to R228, R230 to R232). -/
def execNms2d (e : Fin 2) (ups : List Upset) (s : State) : Result := s.asRead (.wal e) ups fun s =>
  match s.working (.wal e) with
  | some c => if bytesNat c.hdr 12 1 = 2 then .next (walWork e ups s c.hdr) else .next s
  | none => .next s

/-- NMSBEV (R226, R227, R229 to R232). -/
def execNmsbev (e : Fin 2) (ups : List Upset) (s : State) : Result := s.asRead (.wal e) ups fun s =>
  match s.working (.wal e) with
  | some c => if bytesNat c.hdr 12 1 = 3 then .next (walWork e ups s c.hdr) else .next s
  | none => .next s

end Sys2Proof.Machine
end

