-- ==== Sys2Proof/Machine/Headers.lean ====
section
/-! DEFINITION. The header checks that the dispatcher makes at placement (R107, R201, R206, R316, R403, R527). -/

namespace Sys2Proof.Machine

/-- Are the reserved bits of FLAGS, INDEX and the wait entries 0 (R102, R103). -/
def commonReserved (h : Header) : Bool :=
  fieldNat h 17 15 == 0 && fieldNat h 52 12 == 0 && (List.range 4).all fun i => fieldNat (hdrWait h i) 17 14 == 0

/-- Checks 1 to 4 of R107. -/
def tcHeaderCheck (s : State) (h : Header) : Option Status :=
  let aff := hdrAffinity h
  let base := bytesNat h 20 2
  let n := bytesNat h 22 2
  if bytesNat h 0 1 ≠ 1 ∨ hdrClass h ≠ 0 ∨ !commonReserved h ∨ bytesNat h 92 36 ≠ 0 ∨ (aff > 15 ∧ aff ≠ 0xFF) then
    some .rejectFormat
  else if hdrDecl h = 0 ∨ hdrDecl h > 4000000 ∨ n = 0 then some .rejectLimit
  else if base + n > s.creelLines then some .rejectSpace
  else if (hdrLive h).any (fun r => r.1 < base || r.1 + r.2 > base + n) then some .rejectFormat
  else none

/-- Are the reserved bytes of an engine's or a mover's own fields 0 (R201, R206, R226, R316, R403). -/
def ownReserved (h : Header) : Bool :=
  match hdrClass h with
  | 5 => bytesNat h 18 1 == 0 && bytesNat h 96 32 == 0
  | 6 => fieldNat h 113 7 == 0 && bytesNat h 92 36 == 0
  | 7 =>
    (match bytesNat h 12 1 with
     | 1 => bytesNat h 13 1 == 0 && bytesNat h 16 3 == 0 && bytesNat h 104 24 == 0
     | 2 => bytesNat h 14 5 == 0 && bytesNat h 88 16 == 0 && bytesNat h 108 20 == 0
     | 3 => bytesNat h 14 5 == 0 && bytesNat h 28 8 == 0 && bytesNat h 88 16 == 0 && bytesNat h 108 20 == 0
     | 4 => bytesNat h 14 5 == 0 && bytesNat h 24 4 == 0 && bytesNat h 30 6 == 0 && fieldNat h 305 15 == 0 &&
        bytesNat h 88 40 == 0
     | _ => true)
  | _ => bytesNat h 92 36 == 0

/-- The checks of a Plait command (R184, R189, R201), REJECT_FORMAT before REJECT_LIMIT (R206). Where the descriptor's line fails
its tag the command runs, and ends TAG_FAULT (R203). -/
def plaitCheck (s : State) (h : Header) : Option Status :=
  let p := plaitHdr h
  if p.op = 0 ∨ p.op > 4 ∨ p.mv > 7 ∨ (p.op = 1 ∧ p.arg > 2) ∨ (p.op = 2 ∧ p.arg > 1) ∨ (p.op = 4 ∧ p.arg > 5) then
    some .rejectFormat
  else if p.op = 4 then (if p.p2 = 0 ∨ p.p2 > 524288 then some .rejectLimit else none)
  else if !s.tagOk (hamKey p.kvd) then none
  else match kvDesc (s.line (hamKey p.kvd)) with
    | none => some .rejectFormat
    | some k => if p.op = 1 then appendCheck s p k else if p.op = 2 then feedCheck p k else stageCheck p k

/-- The checks that an engine's or a mover's own definition adds. -/
def ownCheck (s : State) (ctx : Nat) (wins : List DWord) (h : Header) : Option Status :=
  let op := bytesNat h 12 1
  match hdrClass h with
  | 3 => if op = 1 then voxelCheck s h else if op = 2 then scatterCheck s h else some .rejectFormat
  | 4 => sampleCheck s h
  | 5 => plaitCheck s h
  | 6 => walCheck h
  | _ =>
    if op = 1 then copyCheck s wins h
    else if op = 2 then sendCheck h
    else if op = 3 then recvCheck h
    else if op = 4 then tiemsgCheck s ctx h
    else some .rejectFormat

/-- The checks of R206 on an engine's or a mover's header. -/
def engineHeaderCheck (s : State) (u : UnitId) (ctx : Nat) (wins : List DWord) (h : Header) : Option Status :=
  if bytesNat h 0 1 ≠ 1 ∨ unitClass u ≠ some (hdrClass h) ∨ !commonReserved h ∨ !ownReserved h then some .rejectFormat
  else if hdrDecl h = 0 ∨ hdrDecl h > 16000000 then some .rejectLimit
  else ownCheck s ctx wins h

/-- The header check of a command placed on a unit. -/
def headerCheck (s : State) (u : UnitId) (p : Placed) : Option Status :=
  match u with
  | .tc _ => tcHeaderCheck s p.hdr
  | _ => engineHeaderCheck s u p.ctx (s.ctx p.ctx).windows.toList p.hdr

/-- The bytes of a program. -/
def progBytes (p : List TcWord) : List Byte := p.flatMap fun w => toBytes w 16

end Sys2Proof.Machine
end

