-- ==== Sys2Proof/Machine/Pixels.lean ====
section
/-! DEFINITION. Riddle's pixel chain (R239 to R249): from the bytes of a frame's rows to the lines of an output buffer. The
packing of RAW and YUV pixels is that of MIPI CSI-2 (PRESUMED, log 22). -/

namespace Sys2Proof.Machine

/-- A 12-bit colour and whether it is an outside pixel (R242). -/
structure Pix where
  c : List Int
  outside : Bool
deriving DecidableEq, Repr

/-! ### Unpacking (R235, R239) -/

/-- Codes of `n` 10-bit samples packed four to five bytes. -/
def unpack10 (bs : Array Byte) (n : Nat) : Array Nat :=
  Array.ofFn fun (i : Fin n) =>
    let g := 5 * (i.val / 4)
    (bs.getD (g + i.val % 4) 0#8).toNat * 4 + (bs.getD (g + 4) 0#8).toNat / 4 ^ (i.val % 4) % 4

/-- Codes of `n` 12-bit samples packed two to three bytes. -/
def unpack12 (bs : Array Byte) (n : Nat) : Array Nat :=
  Array.ofFn fun (i : Fin n) =>
    let g := 3 * (i.val / 2)
    (bs.getD (g + i.val % 2) 0#8).toNat * 16 + (bs.getD (g + 2) 0#8).toNat / 16 ^ (i.val % 2) % 16

/-- The samples of one row as 12-bit codes: `w` for RAW, `2 w` in the order U Y V Y for YUV422. -/
def rowCodes (d : Line) (bs : List Byte) : Array Nat :=
  let a := bs.toArray
  let w := camW d
  if camDt d = 0x2B then (unpack10 a w).map (· * 4)
  else if camDt d = 0x2C then unpack12 a w
  else if camDt d = 0x1E then a.map fun b => b.toNat * 16
  else (unpack10 a (2 * w)).map (· * 4)

/-! ### RAW stages -/

/-- Black level and white balance (R240). -/
def whiteBalance (d : Line) (v x y : Nat) : Nat :=
  let p := 2 * (y % 2) + x % 2
  min ((max (v - bytesNat d (24 + 2 * p) 2) 0 * bytesNat d (32 + 2 * p) 2 + 2048) / 4096) 4095

/-- Colour of the CFA at a pixel: 0 red, 1 green, 2 blue (R237). -/
def cfaColour (d : Line) (x y : Nat) : Nat :=
  let p := 2 * (y % 2) + x % 2
  (match camCfa d with
   | 0 => [0, 1, 1, 2]
   | 1 => [1, 0, 2, 1]
   | 2 => [1, 2, 0, 1]
   | _ => [2, 1, 1, 0]).getD p 1

/-- A neighbour's coordinate: −1 reads 1, `n` reads `n − 2` (R241). -/
def mirror (n : Nat) (v : Int) : Nat := if v < 0 then 1 else if v ≥ n then n - 2 else v.toNat

/-- Demosaic at a pixel, over white-balanced values (R241). -/
def demosaic (d : Line) (at_ : Nat → Nat → Nat) (x y : Nat) : List Int :=
  let w := camW d
  let h := camH d
  let v := fun (dx dy : Int) => at_ (mirror w (x + dx)) (mirror h (y + dy))
  let own := v 0 0
  let c := cfaColour d x y
  if c = 1 then
    let row := (v (-1) 0 + v 1 0 + 1) / 2
    let col := (v 0 (-1) + v 0 1 + 1) / 2
    let rc := cfaColour d (mirror w (x + 1)) y
    if rc = 0 then [row, own, col] else [col, own, row]
  else
    let g := (v 0 (-1) + v 0 1 + v 1 0 + v (-1) 0 + 2) / 4
    let o := (v (-1) (-1) + v 1 (-1) + v (-1) 1 + v 1 1 + 2) / 4
    if c = 0 then [own, g, o] else [o, g, own]

/-- The W × H image of 3 values per pixel, row-major (R239 stages 1 to 3). -/
def camSource (d : Line) (rows : List (List Byte)) : Array (List Int) :=
  let w := camW d
  let h := camH d
  let codes := (rows.map (rowCodes d)).toArray
  let code := fun x y => (codes.getD y #[]).getD x 0
  if camDt d = 0x2B ∨ camDt d = 0x2C then
    let wb := Array.ofFn fun (i : Fin (w * h)) => whiteBalance d (code (i.val % w) (i.val / w)) (i.val % w) (i.val / w)
    Array.ofFn fun (i : Fin (w * h)) => demosaic d (fun x y => wb.getD (y * w + x) 0) (i.val % w) (i.val / w)
  else
    Array.ofFn fun (i : Fin (w * h)) =>
      let x := i.val % w
      let y := i.val / w
      let p := 4 * (x / 2)
      [(code (2 * x + 1) y : Int), (code p y : Int), (code (p + 2) y : Int)]

/-! ### Undistortion (R242) -/

/-- A node coordinate of the remap table: 0 SX, 1 SY. -/
def remapNode (gx : Nat) (remap : Array Word) (i j k : Nat) : Int := (remap.getD (2 * (j * gx + i) + k) 0#32).toInt

/-- Interpolated source coordinate of an output pixel. -/
def remapAt (d : Line) (remap : Array Word) (x y k : Nat) : Int :=
  let g := camGlog d
  let s := 2 ^ g
  let gx := ceilDiv (camOW d) s + 1
  let i := x / s
  let j := y / s
  let fx : Int := (x % s : Nat)
  let fy : Int := (y % s : Nat)
  let n := remapNode gx remap
  let top := n i j k * (s - fx) + n (i + 1) j k * fx
  let bot := n i (j + 1) k * (s - fx) + n (i + 1) (j + 1) k * fx
  asr (top * (s - fy) + bot * fy + 2 ^ (2 * g - 1)) (2 * g)

/-- One output pixel of the undistortion. -/
def undistort (d : Line) (remap : Array Word) (src : Array (List Int)) (x y : Nat) : Pix :=
  let w := camW d
  let h := camH d
  let px := remapAt d remap x y 0
  let py := remapAt d remap x y 1
  if px < 0 ∨ py < 0 ∨ px > 256 * ((w : Int) - 1) ∨ py > 256 * ((h : Int) - 1) then { c := [0, 0, 0], outside := true }
  else
    let ix := (px / 256).toNat
    let iy := (py / 256).toNat
    let qx := px % 256
    let qy := py % 256
    let ix1 := min (ix + 1) (w - 1)
    let iy1 := min (iy + 1) (h - 1)
    let v := fun a b k => (src.getD (b * w + a) []).getD k 0
    { c := (List.range 3).map fun k =>
        asr ((256 - qy) * (256 - qx) * v ix iy k + (256 - qy) * qx * v ix1 iy k + qy * (256 - qx) * v ix iy1 k +
          qy * qx * v ix1 iy1 k + 32768) 16,
      outside := false }

/-! ### Colour, pyramid, normalisation -/

/-- Colour conversion (R245). -/
def convertColour (d : Line) (c : List Int) : List Int :=
  (List.range 3).map fun k =>
    let sum := (List.range 3).foldl (fun (n : Int) i => n + signedOf 16 (bytesNat d (40 + 2 * (3 * k + i)) 2) * c.getD i 0) 0
    clampInt 0 4095 (asr (sum + signedOf 32 (bytesNat d (60 + 4 * k) 4) + 2048) 12)

/-- Level 0 (R242, R245): an outside pixel passes as code 0. -/
def levelZero (d : Line) (remap : List Word) (rows : List (List Byte)) : Array Pix :=
  let src := camSource d rows
  let ow := camOW d
  let r := remap.toArray
  Array.ofFn fun (i : Fin (ow * camOH d)) =>
    let p : Pix := if camUndist d then undistort d r src (i.val % ow) (i.val / ow)
      else { c := src.getD i.val [], outside := false }
    if p.outside then p else { p with c := convertColour d p.c }

/-- The next level of `w` × `h` pixels from the one above it (R246). -/
def nextLevel (factor15 : Bool) (wp w h : Nat) (up : Array Pix) : Array Pix :=
  let v := fun x y k => ((up.getD (y * wp + x) ⟨[], false⟩).c).getD k 0
  Array.ofFn fun (i : Fin (w * h)) =>
    let x := i.val % w
    let y := i.val / w
    let c := (List.range 3).map fun k =>
      if factor15 then
        let ax := fun n : Nat => if n % 2 = 0 then [(3 * (n / 2), (2 : Int)), (3 * (n / 2) + 1, 1)]
          else [(3 * (n / 2) + 1, 1), (3 * (n / 2) + 2, 2)]
        let sum := (ax y).foldl (fun n b => (ax x).foldl (fun n a => n + a.2 * b.2 * v a.1 b.1 k) n) 0
        (sum + 4) / 9
      else asr (v (2 * x) (2 * y) k + v (2 * x + 1) (2 * y) k + v (2 * x) (2 * y + 1) k + v (2 * x + 1) (2 * y + 1) k + 2) 2
    { c := c, outside := false }

/-- The levels of a frame, from a level down. -/
def levelsFrom (factor15 : Bool) : List (Nat × Nat) → Nat → Array Pix → List (Array Pix)
  | [], _, _ => []
  | (w, h) :: rest, wp, up =>
    let l := nextLevel factor15 wp w h up
    l :: levelsFrom factor15 rest w l

/-- All levels (R246). -/
def camPyramid (d : Line) (remap : List Word) (rows : List (List Byte)) : List (Array Pix) :=
  let l0 := levelZero d remap rows
  l0 :: levelsFrom (camPyrf d == 1) ((camLevels d).drop 1) (camOW d) l0

/-- Normalised element of channel `k` (R247). -/
def normalise (d : Line) (p : Pix) (k : Nat) : Byte :=
  if p.outside then 0#8
  else
    let u := 16 * p.c.getD k 0 - signedOf 32 (bytesNat d (72 + 4 * k) 4)
    let nm := bytesNat d (84 + 4 * k) 4
    if camFp8 d then BitVec.ofNat 8 (fpEncode .e4m3 (fpMul (Fp.ofInt u) (fpDecode .fp32 nm)))
    else
      let ns := bytesNat d (96 + k) 1
      let rnd : Int := if ns = 0 then 0 else 2 ^ (ns - 1)
      BitVec.ofInt 8 (clampInt (-127) 127 (asr (u * signedOf 32 nm + rnd) ns))

/-! ### Tensors (R248, R249) -/

/-- Pad a byte string with zeros to a whole number of lines. -/
def padLine (bs : List Byte) : List Byte := bs ++ List.replicate ((256 - bs.length % 256) % 256) 0#8

/-- The bytes of a `w` × `h` tensor in the stream's form; `f x y k` is an element, 0 outside. -/
def tensorBytes (d : Line) (w h : Nat) (f : Nat → Nat → Nat → Byte) : List Byte :=
  if camRecord d then
    let s := camF d
    (List.range (ceilDiv h s)).flatMap fun y => padLine ((List.range (ceilDiv w s)).flatMap fun x =>
      (List.range 128).map fun e =>
        let q := e / 3
        let px := s * x + q % s
        let py := s * y + q / s
        if e < 3 * s * s ∧ px < w ∧ py < h then f px py (e % 3) else 0#8)
  else
    (List.range 3).flatMap fun k => (List.range h).flatMap fun y =>
      padLine (List.replicate (camPadl d) 0#8 ++ (List.range w).map fun x => f x y k)

/-- Lines of a byte string that fills whole lines. -/
def wholeLines (bs : List Byte) : List Line := linesOfBytes (bs.length / 256) bs

/-- The lines of an output buffer before its frame record (R249): levels, then crops; `regions` are the entries used
(R251), by level and window corner. -/
def camLines (d : Line) (remap : List Word) (rows : List (List Byte)) (regions : Option (List (Nat × Int × Int))) :
    List Line :=
  let sizes := camLevels d
  let bytes := (camPyramid d remap rows).map fun l => Array.ofFn fun (i : Fin (3 * l.size)) =>
    normalise d (l.getD (i.val / 3) ⟨[], true⟩) (i.val % 3)
  let elem := fun l (x y : Int) k =>
    let w := (sizes.getD l (0, 0)).1
    let h := (sizes.getD l (0, 0)).2
    if 0 ≤ x ∧ x < w ∧ 0 ≤ y ∧ y < h then (bytes.getD l #[]).getD (3 * (y.toNat * w + x.toNat) + k) 0#8 else 0#8
  let levels := (List.range sizes.length).flatMap fun l =>
    tensorBytes d (sizes.getD l (0, 0)).1 (sizes.getD l (0, 0)).2 fun x y k => elem l x y k
  let rs := regions.getD []
  let crops := (List.range (camNroi d)).flatMap fun i =>
    tensorBytes d (camCW d) (camCH d) fun x y k => match rs[i]? with
      | some r => elem r.1 (r.2.1 + x) (r.2.2 + y) k
      | none => 0#8
  wholeLines (levels ++ crops)

end Sys2Proof.Machine
end

