-- ==== Sys2Proof/Machine/Riddle.lean ====
section
/-! DEFINITION. Camera intake (R235, R250 to R258, R261): attempts, their checks, group attempts, and delivery. -/

namespace Sys2Proof.Machine

/-- A stream slot. -/
def State.cam (s : State) (i : Fin 2) (k : Fin 12) : CamSlot := s.cams[i][k]

/-- Change a stream slot. -/
def State.modCam (s : State) (i : Fin 2) (k : Fin 12) (f : CamSlot → CamSlot) : State :=
  { s with cams := s.cams.set i (s.cams[i].set k (f (s.cam i k))) }

/-- Every slot. -/
def camSlots : List (Fin 2 × Fin 12) := (List.finRange 2).flatMap fun i => (List.finRange 12).map fun k => (i, k)

/-- Is a stream a member of a group attempt: while it is enabled, and once it is disabled as long as an attempt of it has not
closed (R255, R257). -/
def CamSlot.takesPart (x : CamSlot) : Bool := x.enabled || x.attempt.isSome

/-- The members of the group attempt of a stream: the streams of its context with its GROUP; itself for 0xFF (R255). -/
def State.groupOf (s : State) (i : Fin 2) (k : Fin 12) : List (Fin 2 × Fin 12) :=
  let x := s.cam i k
  match x.desc with
  | none => []
  | some d =>
    if camGroup d = 0xFF then [(i, k)]
    else camSlots.filter fun j =>
      let y := s.cam j.1 j.2
      y.takesPart && y.ctx == x.ctx && (match y.desc with
        | some e => camGroup e == camGroup d
        | none => false)

/-- The streams of a context's sync group (R255). -/
def State.groupMembers (s : State) (c g : Nat) : List (Fin 2 × Fin 12) :=
  camSlots.filter fun j =>
    let y := s.cam j.1 j.2
    y.takesPart && y.ctx == c && (match y.desc with
      | some e => camGroup e == g
      | none => false)

/-! ### Failures -/

/-- The sticky bit of a cause in RID_STATUS (R261). -/
def camSticky (cause : Nat) : Word :=
  if 1 ≤ cause ∧ cause ≤ 6 then 0x20#32 else if cause = 8 then 0x40#32 else if cause = 0x0B then 0x80#32 else 0#32

/-- An attempt of a stream is skipped for a cause, which the next delivery tells (R254, R256). -/
def CamSlot.skip (x : CamSlot) (cause : Nat) : CamSlot := { x with skipped := min 255 (x.skipped + 1), lastSkip := cause }

/-- The attempt that waits behind the current one becomes the current one; where it has failed already, it is skipped. -/
def CamSlot.promote (x : CamSlot) : CamSlot :=
  let y := { x with attempt := x.next.head?, next := x.next.tail }
  match x.next with
  | a :: _ => match a.failed with
    | some c => y.skip c
    | none => y
  | [] => y

/-- The attempt of a stream in its `d`-th group attempt that has not closed. -/
def CamSlot.at_ (x : CamSlot) (d : Nat) : Option Attempt := if d = 0 then x.attempt else x.next[d - 1]?

/-- Replace that attempt. -/
def CamSlot.setAt (x : CamSlot) (d : Nat) (a : Attempt) : CamSlot :=
  if d = 0 then { x with attempt := some a } else { x with next := x.next.set (d - 1) a }

/-- Add an attempt behind those of a stream. -/
def CamSlot.push (x : CamSlot) (a : Attempt) : CamSlot :=
  if x.attempt.isNone then { x with attempt := some a } else { x with next := x.next ++ [a] }

/-- Note a failed attempt: counters, last cause, sticky bits (R261); an internal failure is a transient of the instance
(R443). A failed attempt that is `queued` behind another counts as skipped once it is the current one. -/
def State.camFailed (s : State) (i : Fin 2) (k : Fin 12) (cause : Nat) (queued : Bool) : State :=
  let s := s.modCam i k fun x =>
    let y := { x with fail := satInc x.fail, lastCause := cause }
    if queued then y else y.skip cause
  let s := s.modRegs (.rid i) fun r => { r with sticky := r.sticky ||| camSticky cause }
  if cause = 0x0B then s.transient (.rid i) .internal (s.fsrStream (unitCode (.rid i)) (some (s.cam i k).ctx)) else s

/-- Has an attempt ended. -/
def Attempt.ended (a : Attempt) : Bool := a.passed || a.failed.isSome

/-- The attempt of a member in group attempt `d` fails with a cause, unless it has failed already; its peers in the group attempt
then fail with GROUP_PEER (R253, R255). -/
def State.failAt (s : State) (i : Fin 2) (k : Fin 12) (d cause : Nat) : State :=
  let one := fun (s : State) (j : Fin 2 × Fin 12) (c : Nat) =>
    match (s.cam j.1 j.2).at_ d with
    | some a => if a.failed.isSome then s
        else (s.modCam j.1 j.2 fun x => x.setAt d { a with failed := some c, passed := false }).camFailed
          j.1 j.2 c (decide (d ≠ 0))
    | none => s
  let s := one s (i, k) cause
  ((s.groupOf i k).filter (· != (i, k))).foldl (fun s j => one s j 0x0A) s

/-! ### Delivery (R22, R254, R256) -/

/-- The frame record of a delivery (R26, R256). -/
def camRecord' (d : Line) (x : CamSlot) (a : Attempt) : Line :=
  let gap := a.gap || decide (x.skipped > 0)
  lineOfBytes (natToBytes 1 (camSrc d) ++ [1#8] ++ natToBytes 2 (boolNat gap) ++ natToBytes 4 a.srcFrame ++
    natToBytes 12 (timeWord a.capSec a.capNs).toNat ++ natToBytes 4 (camBufl d) ++ natToBytes 4 x.n ++ natToBytes 2 a.corr ++
    natToBytes 1 x.lastSkip ++ natToBytes 1 (min 255 x.skipped))

/-- Deliver one member: the buffer, its record, TIE_IN. -/
def State.deliverCam (s : State) (i : Fin 2) (k : Fin 12) : State :=
  let x := s.cam i k
  match x.desc, x.attempt with
  | some d, some a =>
    let buf := camBuffer d (x.n % max 1 (camNbuf d))
    let s := s.putLines (hamKey buf) (camLines d x.remap a.rows a.regions)
    let s := s.putLine (camRecordKey d x.n) (camRecord' d x a)
    let s := s.modCam i k fun x => ({ x with
      n := x.n + 1
      skipped := 0
      lastSkip := 0
      good := satInc x.good
      msRead := if camPort d = 0xFF then x.msRead ++ [x.n % max 1 (camNbuf d)] else x.msRead } : CamSlot).promote
    s.tieAdd (camTieIn d) 1#32
  | _, _ => s

/-- Insert a member by SRC_ID. -/
def insertSrc (s : State) (j : Fin 2 × Fin 12) : List (Fin 2 × Fin 12) → List (Fin 2 × Fin 12)
  | [] => [j]
  | m :: ms =>
    let src := fun (m : Fin 2 × Fin 12) => match (s.cam m.1 m.2).desc with
      | some d => camSrc d
      | none => 0
    if src j ≤ src m then j :: m :: ms else m :: insertSrc s j ms

/-- Close the group attempt of a stream once every member has ended (R255): delivered when all passed, else skipped. -/
def State.closeOnce (s : State) (i : Fin 2) (k : Fin 12) : State :=
  let ms := s.groupOf i k
  let at_ := fun (j : Fin 2 × Fin 12) => (s.cam j.1 j.2).attempt
  if ms.isEmpty || !(ms.all fun j => (at_ j).any Attempt.ended) then s
  else if ms.all fun j => (at_ j).any (·.passed) then
    ((ms.foldl (fun l j => insertSrc s j l) []).foldl (fun s j => s.deliverCam j.1 j.2) s).tryOrigins
  else ms.foldl (fun s j => s.modCam j.1 j.2 CamSlot.promote) s

/-- Close a group attempt and then those after it whose members have all ended too; fuel is the number of these. -/
def State.closeNext (s : State) (i : Fin 2) (k : Fin 12) : Nat → State
  | 0 => s
  | n + 1 => (s.closeOnce i k).closeNext i k n

/-- Close the group attempts of a stream whose members have all ended, in order (R255). -/
def State.closeGroup (s : State) (i : Fin 2) (k : Fin 12) : State :=
  s.closeNext i k (1 + ((s.groupOf i k).map fun j => (s.cam j.1 j.2).next.length).foldl max 0)

/-! ### Opening -/

/-- The region list of delivered frame `n` (R250, R251): the entries when it is used. -/
def State.regionList (s : State) (d : Line) (n : Nat) : State × Option (List (Nat × Int × Int)) × Bool :=
  let k := hamKey (camRoil d + 3 * (n % 2))
  let l0 := s.line k
  if !s.tieReached (camTieRoi d) n then (s, none, false)
  else if (s.firstBad k 3).isSome then (s, none, true)
  else
    let count := bytesNat l0 1 1
    if bytesNat l0 0 1 ≠ 1 ∨ bytesNat l0 4 4 ≠ n % 2 ^ 32 ∨ count > camNroi d then (s, none, false)
    else
      let es := (List.range count).map fun i =>
        let l := s.line (k + 1 + i / 32)
        let o := 8 * (i % 32)
        (bytesNat l o 1, signedOf 16 (bytesNat l (o + 2) 2), signedOf 16 (bytesNat l (o + 4) 2))
      (s, some es, false)

/-- Is the buffer that delivered index `n` will take not released yet (R252). -/
def State.camFull (s : State) (d : Line) (n : Nat) : Bool :=
  decide (n ≥ camNbuf d) && !s.tieReached (camTieRel d) (n - camNbuf d + 1)

/-- An attempt opens (R251 to R254, R261): `start` is the frame start in ns, `given` the SRC_FRAME of a memory source. -/
def State.openCam (s : State) (i : Fin 2) (k : Fin 12) (fn sec ns start : Nat) (given : Option Nat) (corr : Nat) : State :=
  let x := s.cam i k
  match x.desc with
  | none => s
  | some d =>
    let depth := x.attempt.toList.length + x.next.length
    let n := x.n + ((x.attempt.toList ++ x.next).filter fun a => a.failed.isNone).length
    let prev := x.prevFn.getD 0
    let step := (((fn : Int) - prev) % (max 1 (camFnumMax d) : Nat)).toNat
    let src := match given with
      | some v => v
      | none => (x.srcFrame + (if camFnum d then step else 1)) % 2 ^ 32
    let repeat_ := camFnum d && (fn == 0 || x.prevFn == some fn)
    let jump := camFnum d && (match x.prevFn with
      | some p => fn != (if p = camFnumMax d then 1 else p + 1)
      | none => false)
    let late := decide (camPmaxUs d ≠ 0) && (match x.prevStart with
      | some p =>
        let dt : Int := (start : Int) - p
        decide (dt < ((1000 * camPminUs d : Nat) : Int)) || decide (((1000 * camPmaxUs d : Nat) : Int) < dt)
      | none => false)
    let cause := if (s.unit (.rid i)).regs.quarantine then some 0x0C
      else if repeat_ then some 7 else if s.camFull d n then some 8 else none
    let regions := if cause.isSome then (s, none, false) else s.regionList d n
    let unused := cause.isNone && regions.2.1.isNone
    let a : Attempt :=
      { fn := fn, capSec := sec, capNs := ns, rows := [], corr := corr, regions := regions.2.1, gap := jump || late,
        srcFrame := src, passed := false, failed := none }
    let s := s.modCam i k fun x => CamSlot.push { x with
      prevFn := some fn
      prevStart := some start
      srcFrame := src
      corr := min 0xFFFF (x.corr + corr)
      roi := if unused then satInc x.roi else x.roi } a
    let s := if regions.2.2 then s.modRegs (.rid i) fun r => { r with sticky := r.sticky ||| 0x10#32 } else s
    let dead := ((s.groupOf i k).filter (· != (i, k))).any fun j =>
      ((s.cam j.1 j.2).at_ depth).any fun b => b.failed.isSome
    match cause with
    | some c => (s.failAt i k depth c).closeGroup i k
    | none => if dead then (s.failAt i k depth 0x0A).closeGroup i k else s

/-- The slot of an enabled stream of a port and virtual channel. -/
def State.camBy (s : State) (port : Fin 8) (vc : Fin 16) : Option (Fin 2 × Fin 12) :=
  camSlots.find? fun j =>
    let x := s.cam j.1 j.2
    x.enabled && decide (j.1.val = port.val / 4) && (match x.desc with
      | some d => camPort d == port.val && camVc d == vc.val
      | none => false)

/-- The attempts of a stream in the group attempts that have not closed, in order. -/
def CamSlot.attempts (x : CamSlot) : List Attempt := x.attempt.toList ++ x.next

/-- Change the attempt that a stream's packets belong to: the one that has not ended. -/
def CamSlot.modOpen (x : CamSlot) (f : Attempt → Attempt) : CamSlot :=
  let g := fun (a : Attempt) => if a.ended then a else f a
  { x with attempt := x.attempt.map g, next := x.next.map g }

/-- The attempt that a stream's packets belong to, while it is open. -/
def CamSlot.open_ (x : CamSlot) : Option Attempt := x.attempts.find? fun a => !a.ended

/-- The open attempt of a stream fails. -/
def State.failOpen (s : State) (i : Fin 2) (k : Fin 12) (cause : Nat) : State :=
  match (s.cam i k).attempts.findIdx? fun a => !a.ended with
  | some d => (s.failAt i k d cause).closeGroup i k
  | none => s

/-- CSI2_FRAME_START (R252, R253, R257): a disabled stream stops here; an open attempt fails LINE_COUNT. While the domain is in
reset nothing opens: intake resumes at the first frame start after return to service. -/
def execCsi2FrameStart (port : Fin 8) (vc : Fin 16) (fn : BitVec 16) (corrected : Bool) (s : State) : Result :=
  match s.camBy port vc with
  | none => .next s
  | some j =>
    if !s.intakeUp then .next s else
    let x := s.cam j.1 j.2
    let s := if x.open_.isSome then s.failOpen j.1 j.2 5 else s
    if x.disabling then
      .next ((s.modCam j.1 j.2 fun x => { x with enabled := false, disabling := false }).closeGroup j.1 j.2)
    else .next (s.openCam j.1 j.2 fn.toNat s.tu.sec.toNat s.tu.ns s.nowNs none (boolNat corrected))

/-- CSI2_LONG_PACKET (R235, R253): one line of pixels, or data of another type, which is discarded. -/
def execCsi2LongPacket (port : Fin 8) (vc : Fin 16) (dt : BitVec 6) (payload : List Byte)
    (crcOk headerOk corrected : Bool) (ups : List Upset) (s : State) : Result :=
  match s.camBy port vc with
  | none => .next s
  | some j =>
    let x := s.cam j.1 j.2
    match x.desc, x.open_ with
    | some d, some _ =>
      let image := dt.toNat = 0x2B ∨ dt.toNat = 0x2C ∨ dt.toNat = 0x1E ∨ dt.toNat = 0x1F
      let s := if corrected && headerOk then s.modCam j.1 j.2 fun x =>
          { x.modOpen (fun a => { a with corr := min 0xFFFF (a.corr + 1) }) with corr := min 0xFFFF (x.corr + 1) }
        else s
      let fullQ := ups.any fun u => u == .overrun
      if !headerOk then .next (s.failOpen j.1 j.2 1)
      else if ¬image then .next s
      else if dt.toNat ≠ camDt d then .next (s.failOpen j.1 j.2 3)
      else if payload.length ≠ camLineBytes d then .next (s.failOpen j.1 j.2 4)
      else if !crcOk then .next (s.failOpen j.1 j.2 2)
      else if storeUpset ups then .next (s.failOpen j.1 j.2 0x0B)
      else if fullQ then .next (s.failOpen j.1 j.2 8)
      else .next (s.modCam j.1 j.2 fun x => x.modOpen fun a => { a with rows := a.rows ++ [payload] })
    | _, _ => .next s

/-- CSI2_FRAME_END (R253, R255). -/
def execCsi2FrameEnd (port : Fin 8) (vc : Fin 16) (_fn : BitVec 16) (corrected : Bool) (s : State) : Result :=
  match s.camBy port vc with
  | none => .next s
  | some j =>
    let x := s.cam j.1 j.2
    match x.desc, x.open_ with
    | some d, some a =>
      let s := if corrected then s.modCam j.1 j.2 fun x =>
          { x.modOpen (fun a => { a with corr := min 0xFFFF (a.corr + 1) }) with corr := min 0xFFFF (x.corr + 1) }
        else s
      if a.rows.length ≠ camH d then .next (s.failOpen j.1 j.2 5)
      else .next ((s.modCam j.1 j.2 fun x => x.modOpen fun a => { a with passed := true }).closeGroup j.1 j.2)
    | _, _ => .next s

/-- FE_TIMEOUT (R253): no frame end within FE_TO_US of the frame start. -/
def execFeTimeout (inst : Fin 2) (slot : Fin 12) (s : State) : Result :=
  if (s.cam inst slot).open_.isSome then .next (s.failOpen inst slot 6) else .next s

/-- An attempt of which nothing is known: of a member without a frame start, or of a buffer whose first line cannot be read. -/
def Attempt.blank : Attempt :=
  { fn := 0, capSec := 0, capNs := 0, rows := [], corr := 0, regions := none, gap := false, srcFrame := 0, passed := false,
    failed := none }

/-- GROUP_MISSING (R253, R255): SYNC_US after the first start of a group attempt, members without an attempt in it fail, and so do
the others. It is the first group attempt not closed in which some members have started and some have not. -/
def execGroupMissing (ctx : Fin 4096) (group : Fin 8) (s : State) : Result :=
  let ms := s.groupMembers ctx.val group.val
  let has := fun (d : Nat) (j : Fin 2 × Fin 12) => ((s.cam j.1 j.2).at_ d).isSome || !(s.cam j.1 j.2).enabled
  let deepest := (ms.map fun j => (s.cam j.1 j.2).attempts.length).foldl max 0
  match (List.range deepest).find? fun d => !(ms.all (has d)) with
  | none => .next s
  | some d =>
    let absent := ms.filter fun j => !has d j
    let s := absent.foldl (fun s j => (s.modCam j.1 j.2 fun x => x.push { Attempt.blank with failed := some 9 }).camFailed
      j.1 j.2 9 (decide (d ≠ 0))) s
    let s := (ms.filter (!absent.contains ·)).foldl (fun s j => s.failAt j.1 j.2 d 0x0A) s
    match ms with
    | j :: _ => .next (s.closeGroup j.1 j.2)
    | [] => .next s

/-- Lines per image row of a memory-source buffer (R258). -/
def msRowLines (d : Line) : Nat := ceilDiv (camLineBytes d) 256

/-- A free cause code (log 18) other than 0x01, 0x02 and 0x06, which do not arise for a memory source (R258). -/
def msCause (c : Nat) : Nat :=
  let c := c % 253
  if c = 0 then 0 else if c ≤ 3 then c + 2 else c + 3

/-- MEMORY_SOURCE_ATTEMPT (R15, R258, R261): the next frame is read from the hamper once TIE_SRC allows. The manual gives no
cause code for a line with a bad tag or a wrong FORMAT: a free one of those that may arise. Line 0 is withheld where its tag is
bad: the attempt then has no frame number and no time, and changes none of the stream. -/
def execMemorySourceAttempt (inst : Fin 2) (slot : Fin 12) (ups : List Upset) (s : State) : Result :=
  let x := s.cam inst slot
  match x.desc with
  | none => .next s
  | some d =>
    if !s.intakeUp ∨ camPort d ≠ 0xFF ∨ !x.enabled ∨ x.attempt.isSome ∨ !s.tieReached (camTieSrc d) (x.n + 1) then .next s
    else if x.disabling then
      .next ((s.modCam inst slot fun x => { x with enabled := false, disabling := false }).closeGroup inst slot)
    else
      let rl := msRowLines d
      let base := hamKey (camMsrc d + x.n % max 1 (camNbuf d) * (1 + camH d * rl))
      let l := s.line base
      let sec := bytesNat l 12 6
      let ns := bytesNat l 8 4
      if !s.tagOk base then
        let cause := if (s.unit (.rid inst)).regs.quarantine then 0x0C
          else if s.camFull d x.n then 8 else msCause (Config.freeCycle s.freeCtr).toNat
        let s := ({ s with freeCtr := s.freeCtr + 1 }).modCam inst slot fun x => x.push Attempt.blank
        let s := s.modRegs (.rid inst) fun r => { r with sticky := r.sticky ||| 0x10#32 }
        .next (s.failOpen inst slot cause)
      else
      let s := s.openCam inst slot (bytesNat l 20 2) sec ns (sec * 1000000000 + ns) (some (bytesNat l 4 4)) 0
      if (s.cam inst slot).open_.isNone then .next s
      else if (s.firstBad base (1 + camH d * rl)).isSome ∨ bytesNat l 0 1 ≠ 1 then
        let cause := msCause (Config.freeCycle s.freeCtr).toNat
        let s := { s with freeCtr := s.freeCtr + 1 }
        let s := if (s.firstBad base (1 + camH d * rl)).isSome then
            s.modRegs (.rid inst) fun r => { r with sticky := r.sticky ||| 0x10#32 } else s
        .next (s.failOpen inst slot cause)
      else if storeUpset ups then .next (s.failOpen inst slot 0x0B)
      else if ups.any (· == .overrun) then .next (s.failOpen inst slot 8)
      else
        let rows := (List.range (camH d)).map fun y => s.bytesAt (base + 1 + y * rl) 0 (camLineBytes d)
        .next ((s.modCam inst slot fun x => x.modOpen fun a => { a with rows := rows, passed := true }).closeGroup inst slot)

/-- STREAM_DISABLE (R257): it takes effect at the stream's next frame start. -/
def execStreamDisable (inst : Fin 2) (slot : Fin 12) (s : State) : Result :=
  if (s.cam inst slot).enabled then .next (s.modCam inst slot fun x => { x with disabling := true }) else .next s

end Sys2Proof.Machine
end

