-- ==== Sys2Proof/Machine/Jpeg.lean ====
section
/-! DEFINITION. Skep's decoder (R273 to R277, R283): ITU-T T.81 baseline and extended sequential Huffman decoding of a byte
string into three planes. The layout of T.81's marker segments is not in the manual (PRESUMED, log 24). -/

namespace Sys2Proof.Machine

/-! ### Tables and frames -/

/-- A Huffman table: codes per length 1 to 16, and the values in code order (T.81 Annex C). -/
structure JHuff where
  counts : List Nat
  vals : Array Nat

/-- The tables that DQT, DHT and DRI have defined: quantisation (number, 16-bit entries, the 64 entries in zig-zag order), DC
and AC Huffman tables, restart interval. -/
structure JTables where
  q : List (Nat × Bool × Array Nat)
  dc : List (Nat × JHuff)
  ac : List (Nat × JHuff)
  ri : Nat

/-- A component of the frame. -/
structure JComp where
  id : Nat
  h : Nat
  v : Nat
  tq : Nat

/-- A frame header. -/
structure JFrame where
  sof1 : Bool
  p : Nat
  w : Nat
  h : Nat
  comps : List JComp

/-- Why a parse or a decode stops: the bytes end, or the stream is not what the decoder takes. -/
inductive JStop where
  | short | bad
deriving DecidableEq, Repr

/-- The zig-zag order of T.81: natural index of each coefficient. -/
def zigzag : Array Nat :=
  #[0, 1, 8, 16, 9, 2, 3, 10, 17, 24, 32, 25, 18, 11, 4, 5, 12, 19, 26, 33, 40, 48, 41, 34, 27, 20, 13, 6, 7, 14, 21, 28,
    35, 42, 49, 56, 57, 50, 43, 36, 29, 22, 15, 23, 30, 37, 44, 51, 58, 59, 52, 45, 38, 31, 39, 46, 53, 60, 61, 54, 47, 55,
    62, 63]

/-- A two-byte parameter, most significant byte first. -/
def be16 (bs : List Byte) : Nat := (bs.getD 0 0#8).toNat * 256 + (bs.getD 1 0#8).toNat

/-- The marker at the head of a byte string, after any fill bytes, and what follows it. `started` is true once a 0xFF has
been read. -/
def nextMarker (started : Bool) : List Byte → Except JStop (Nat × List Byte)
  | [] => .error .short
  | b :: r =>
    if b = 0xFF#8 then nextMarker true r
    else if started && b != 0#8 then .ok (b.toNat, r) else .error .bad

/-- The body of a marker segment and what follows it. -/
def segment (bs : List Byte) : Except JStop (List Byte × List Byte) :=
  let n := be16 bs
  if bs.length < 2 then .error .short
  else if n < 2 then .error .bad
  else if bs.length < n then .error .short
  else .ok ((bs.take n).drop 2, bs.drop n)

/-- The quantisation tables of a DQT body; fuel bounds their number. -/
def readDqt : Nat → List Byte → JTables → Option JTables
  | _, [], t => some t
  | 0, _, _ => none
  | n + 1, b :: r, t =>
    let wide := b.toNat / 16
    let len := if wide = 1 then 128 else 64
    if wide > 1 ∨ b.toNat % 16 > 3 ∨ r.length < len then none
    else
      let e := Array.ofFn fun (i : Fin 64) =>
        if wide = 1 then be16 (r.drop (2 * i.val)) else (r.getD i.val 0#8).toNat
      readDqt n (r.drop len) { t with q := (b.toNat % 16, wide == 1, e) :: t.q.filter (·.1 != b.toNat % 16) }

/-- Are there codes enough at every length. -/
def countsFit : List Nat → Nat → Bool
  | [], _ => true
  | c :: cs, free => decide (c ≤ free) && countsFit cs (2 * (free - c))

/-- The Huffman tables of a DHT body; fuel bounds their number. -/
def readDht : Nat → List Byte → JTables → Option JTables
  | _, [], t => some t
  | 0, _, _ => none
  | n + 1, b :: r, t =>
    let counts := (r.take 16).map (·.toNat)
    let total := counts.foldl (· + ·) 0
    let num := b.toNat % 16
    if b.toNat / 16 > 1 ∨ num > 3 ∨ r.length < 16 + total ∨ total > 256 ∨ !countsFit counts 2 then none
    else
      let h : JHuff := { counts := counts, vals := (((r.drop 16).take total).map (·.toNat)).toArray }
      readDht n (r.drop (16 + total)) (if b.toNat / 16 = 0
        then { t with dc := (num, h) :: t.dc.filter (·.1 != num) }
        else { t with ac := (num, h) :: t.ac.filter (·.1 != num) })

/-- Is a marker APPn or COM. -/
def ignoredMarker (m : Nat) : Bool := (0xE0 ≤ m && m ≤ 0xEF) || m == 0xFE

/-- Take a table segment, DRI, APPn or COM; none for any other marker and for a malformed body. -/
def tableSegment (m : Nat) (body : List Byte) (t : JTables) : Option JTables :=
  if m = 0xDB then readDqt 256 body t
  else if m = 0xC4 then readDht 256 body t
  else if m = 0xDD then (if body.length = 2 then some { t with ri := be16 body } else none)
  else if ignoredMarker m then some t else none

/-- Do the tables lie within R273 for a frame. -/
def tablesFit (f : JFrame) (t : JTables) : Bool :=
  let top := if f.sof1 then 4 else 2
  t.dc.all (fun x => x.1 < top) && t.ac.all (fun x => x.1 < top) && t.q.all fun x => !x.2.1 || f.p == 12

/-- Read segments until a marker that `stop` accepts: the tables, that marker, its body and what follows. -/
def readUntil (stop : Nat → Bool) (fits : JTables → Bool) : Nat → JTables → List Byte →
    Except JStop (JTables × Nat × List Byte × List Byte)
  | 0, _, _ => .error .short
  | n + 1, t, bs =>
    match nextMarker false bs with
    | .error e => .error e
    | .ok (m, r) =>
      if !stop m && !(m == 0xDB || m == 0xC4 || m == 0xDD || ignoredMarker m) then .error .bad
      else if m == 0xD9 then .ok (t, m, [], r)
      else match segment r with
        | .error e => .error e
        | .ok (body, rest) =>
          if stop m then .ok (t, m, body, rest)
          else match tableSegment m body t with
            | none => .error .bad
            | some t => if fits t then readUntil stop fits n t rest else .error .bad

/-- Check 1 (R274): SOI, then only tables, DRI, APPn and COM before SOF0 or SOF1. -/
def readToFrame (bs : List Byte) : Except JStop (JTables × Nat × List Byte × List Byte) :=
  match bs with
  | a :: b :: r =>
    if a = 0xFF#8 ∧ b = 0xD8#8 then
      readUntil (fun m => m == 0xC0 || m == 0xC1) (fun _ => true) (r.length + 1) { q := [], dc := [], ac := [], ri := 0 } r
    else .error .bad
  | _ => .error .short

/-- Check 2 (R273, R274): the frame header. The factors of a single component order nothing (T.81 A.2.2). -/
def readFrame (m : Nat) (body : List Byte) : Option JFrame :=
  let at_ := fun i => (body.getD i 0#8).toNat
  let n := at_ 5
  let p := at_ 0
  let h := be16 (body.drop 1)
  let w := be16 (body.drop 3)
  let comps := (List.range n).map fun i =>
    ({ id := at_ (6 + 3 * i), h := at_ (7 + 3 * i) / 16, v := at_ (7 + 3 * i) % 16, tq := at_ (8 + 3 * i) } : JComp)
  let factor := fun k => k == 1 || k == 2
  let ok := match comps with
    | c :: cs => factor c.h && factor c.v && cs.all (fun d => d.h == 1 && d.v == 1) &&
        comps.all (fun d => d.tq ≤ 3) && (comps.map (·.id)).Nodup
    | [] => false
  if body.length < 6 ∨ (n ≠ 1 ∧ n ≠ 3) ∨ body.length ≠ 6 + 3 * n ∨ !ok ∨ w = 0 ∨ h = 0 ∨
     !(p == 8 || (p == 12 && m == 0xC1)) then none
  else some { sof1 := m == 0xC1, p := p, w := w, h := h,
              comps := if n = 1 then comps.map (fun c => { c with h := 1, v := 1 }) else comps }

/-- Hmax and Vmax. -/
def JFrame.hmax (f : JFrame) : Nat := f.comps.foldl (fun m c => max m c.h) 1
@[inherit_doc JFrame.hmax] def JFrame.vmax (f : JFrame) : Nat := f.comps.foldl (fun m c => max m c.v) 1

/-- MCUs across and down. -/
def JFrame.mcuX (f : JFrame) : Nat := ceilDiv f.w (8 * f.hmax)
@[inherit_doc JFrame.mcuX] def JFrame.mcuY (f : JFrame) : Nat := ceilDiv f.h (8 * f.vmax)

/-- S of R284: 64 times the blocks of all components over the padded MCU area. -/
def JFrame.size (f : JFrame) : Nat := 64 * (f.mcuX * f.mcuY * f.comps.foldl (fun n c => n + c.h * c.v) 0)

/-- A component of a scan: its place in the frame and its tables. -/
structure JScan where
  comp : Nat
  td : Nat
  ta : Nat

/-- A scan header (R273): all components in frame order, or one that has not been scanned. -/
def readScan (f : JFrame) (scanned : List Nat) (body : List Byte) : Option (List JScan) :=
  let at_ := fun i => (body.getD i 0#8).toNat
  let n := at_ 0
  let cs := (List.range n).filterMap fun i =>
    (f.comps.findIdx? fun c => c.id == at_ (1 + 2 * i)).map fun k =>
      ({ comp := k, td := at_ (2 + 2 * i) / 16, ta := at_ (2 + 2 * i) % 16 } : JScan)
  let order := cs.map (·.comp)
  let all := order == List.range f.comps.length && scanned.isEmpty
  let one := (match order with
    | [k] => !scanned.contains k
    | _ => false)
  if body.isEmpty ∨ body.length ≠ 4 + 2 * n ∨ cs.length ≠ n ∨ !(all || one) ∨ at_ (1 + 2 * n) ≠ 0 ∨
     at_ (2 + 2 * n) ≠ 63 ∨ at_ (3 + 2 * n) ≠ 0 then none
  else some cs

/-- Check 7 (R274): every table that a scan names is defined. -/
def scanTables (f : JFrame) (t : JTables) (cs : List JScan) : Bool :=
  cs.all fun c => t.dc.any (·.1 == c.td) && t.ac.any (·.1 == c.ta) &&
    (match f.comps[c.comp]? with
     | some k => t.q.any (·.1 == k.tq)
     | none => false)

/-! ### Entropy decoding (R275, T.81 Annex F) -/

/-- The entropy-coded bytes up to the next marker, stuffing removed, in reverse; the marker; what follows it. -/
def codedBytes (ff : Bool) (acc : List Byte) : List Byte → List Byte × Option Nat × List Byte
  | [] => (acc, none, [])
  | b :: r =>
    if ff then
      if b = 0#8 then codedBytes false (0xFF#8 :: acc) r
      else if b = 0xFF#8 then codedBytes true acc r
      else (acc, some b.toNat, r)
    else if b = 0xFF#8 then codedBytes true acc r
    else codedBytes false (b :: acc) r

/-- A stretch of entropy data and the marker that ends it. -/
structure JSeg where
  data : Array Byte
  marker : Option Nat
  rest : List Byte

/-- The stretch at the head of a byte string. -/
def takeSeg (bs : List Byte) : JSeg :=
  let x := codedBytes false [] bs
  { data := x.1.reverse.toArray, marker := x.2.1, rest := x.2.2 }

/-- Bit `i` of a stretch. -/
def JSeg.bit (g : JSeg) (i : Nat) : Option Nat :=
  (g.data[i / 8]?).map fun b => b.toNat / 2 ^ (7 - i % 8) % 2

/-- `n` bits from bit `i`. -/
def JSeg.bits (g : JSeg) : Nat → Nat → Nat → Option Nat
  | 0, _, acc => some acc
  | n + 1, i, acc => match g.bit i with
    | some b => JSeg.bits g n (i + 1) (2 * acc + b)
    | none => none

/-- DECODE: the next symbol and the bit after it. -/
def huffSym (g : JSeg) (vals : Array Nat) : List Nat → Nat → Nat → Nat → Nat → Except JStop (Nat × Nat)
  | [], _, _, _, _ => .error .bad
  | c :: cs, code, first, ix, i =>
    match g.bit i with
    | none => .error .short
    | some b =>
      let code := 2 * code + b
      if code < first + c then .ok (vals.getD (ix + code - first) 0, i + 1)
      else huffSym g vals cs code (2 * (first + c)) (ix + c) (i + 1)

/-- DECODE by a table. -/
def JHuff.sym (h : JHuff) (g : JSeg) (i : Nat) : Except JStop (Nat × Nat) := huffSym g h.vals h.counts 0 0 0 i

/-- RECEIVE and EXTEND. -/
def extendBits (g : JSeg) (n i : Nat) : Except JStop (Int × Nat) :=
  match g.bits n i 0 with
  | none => .error .short
  | some v => .ok (if n ≠ 0 ∧ v < 2 ^ (n - 1) then (v : Int) - (2 ^ n : Nat) + 1 else v, i + n)

/-- Decode_AC_coefficients from coefficient `k`; fuel bounds the symbols. -/
def acCoefs (h : JHuff) (g : JSeg) : Nat → Nat → Nat → Array Int → Except JStop (Array Int × Nat)
  | 0, _, _, _ => .error .bad
  | n + 1, k, i, co =>
    match h.sym g i with
    | .error e => .error e
    | .ok (rs, i) =>
      let run := rs / 16
      let size := rs % 16
      if size = 0 then
        (if run = 15 then (if k + 15 > 63 then .error .bad else acCoefs h g n (k + 16) i co) else .ok (co, i))
      else if k + run > 63 then .error .bad
      else match extendBits g size i with
        | .error e => .error e
        | .ok (v, i) =>
          let co := co.set! (zigzag.getD (k + run) 0) v
          if k + run = 63 then .ok (co, i) else acCoefs h g n (k + run + 1) i co

/-- One block: coefficients in natural order, the new DC prediction, the bit after it. -/
def blockCoefs (dc ac : JHuff) (g : JSeg) (pred : Int) (i : Nat) : Except JStop (Array Int × Int × Nat) :=
  match dc.sym g i with
  | .error e => .error e
  | .ok (size, i) =>
    if size > 15 then .error .bad
    else match extendBits g size i with
      | .error e => .error e
      | .ok (d, i) =>
        match acCoefs ac g 64 1 i ((Array.replicate 64 (0 : Int)).set! 0 (pred + d)) with
        | .error e => .error e
        | .ok (co, i) => .ok (co, pred + d, i)

/-! ### The transform (R276) -/

/-- k[x][u] of R276, row `x`. -/
def idctK : List (List Int) :=
  [[2896, 4017, 3784, 3406, 2896, 2276, 1567, 799], [2896, 3406, 1567, -799, -2896, -4017, -3784, -2276],
   [2896, 2276, -1567, -4017, -2896, 799, 3784, 3406], [2896, 799, -3784, -2276, 2896, 3406, -1567, -4017],
   [2896, -799, -3784, 2276, 2896, -3406, -1567, 4017], [2896, -2276, -1567, 4017, -2896, -799, 3784, -3406],
   [2896, -3406, 1567, 799, -2896, 4017, -3784, 2276], [2896, -4017, 3784, -3406, 2896, -2276, 1567, -799]]

/-- A sum of eight products. -/
def dot8 (a : List Int) (f : Nat → Int) : Int := (List.range 8).foldl (fun n u => n + a.getD u 0 * f u) 0

/-- The transform of R276: dequantised coefficients to samples of precision `p`. -/
def idct (p : Nat) (f : Array Int) : Array Nat :=
  let r := Array.ofFn fun (j : Fin 64) =>
    asr (dot8 (idctK.getD (j.val % 8) []) (fun u => f.getD (8 * (j.val / 8) + u) 0) + 512) 10
  Array.ofFn fun (j : Fin 64) =>
    let t := asr (dot8 (idctK.getD (j.val / 8) []) (fun v => r.getD (8 * v + j.val % 8) 0) + 32768) 16
    (clampInt 0 ((2 ^ p : Nat) - 1) (t + (2 ^ (p - 1) : Nat))).toNat

/-- Dequantise (R276): the table is in zig-zag order. -/
def dequant (q : Array Nat) (co : Array Int) : Array Int :=
  (List.range 64).foldl (fun f z =>
    let i := zigzag.getD z 0
    f.set! i (co.getD i 0 * (q.getD z 0 : Int))) co

/-! ### Scans -/

/-- The decoded blocks per component, in raster order of the padded component. -/
abbrev JBlocks := List (Array (Option (Array Nat)))

/-- Blocks across the padded component. -/
def JFrame.blocksX (f : JFrame) (c : JComp) : Nat := f.mcuX * c.h
@[inherit_doc JFrame.blocksX] def JFrame.blocksY (f : JFrame) (c : JComp) : Nat := f.mcuY * c.v

/-- Blocks across a component alone, in a scan of its own (T.81 A.2.2). -/
def JFrame.ownX (f : JFrame) (c : JComp) : Nat := ceilDiv (ceilDiv (f.w * c.h) f.hmax) 8
@[inherit_doc JFrame.ownX] def JFrame.ownY (f : JFrame) (c : JComp) : Nat := ceilDiv (ceilDiv (f.h * c.v) f.vmax) 8

/-- No block decoded yet. -/
def JFrame.noBlocks (f : JFrame) : JBlocks := f.comps.map fun c => Array.replicate (f.blocksX c * f.blocksY c) none

/-- The blocks of MCU `m` of a scan: component of the scan, its index and the block's place in the padded component. -/
def mcuBlocks (f : JFrame) (cs : List JScan) (m : Nat) : List (JScan × Nat) :=
  match cs with
  | [c] => (match f.comps[c.comp]? with
    | some k => [(c, m / max 1 (f.ownX k) * f.blocksX k + m % max 1 (f.ownX k))]
    | none => [])
  | _ => cs.flatMap fun c => match f.comps[c.comp]? with
    | some k => (List.range (k.h * k.v)).map fun b =>
        (c, (m / max 1 f.mcuX * k.v + b / max 1 k.h) * f.blocksX k + (m % max 1 f.mcuX * k.h + b % max 1 k.h))
    | none => []

/-- MCUs of a scan. -/
def mcuCount (f : JFrame) (cs : List JScan) : Nat :=
  match cs with
  | [c] => (match f.comps[c.comp]? with
    | some k => f.ownX k * f.ownY k
    | none => 0)
  | _ => f.mcuX * f.mcuY

/-- The state of a scan's decode. -/
structure JRun where
  blocks : JBlocks
  preds : List Int
  seg : JSeg
  i : Nat

/-- Decode the blocks of one MCU. -/
def decodeBlocks (f : JFrame) (t : JTables) : List (JScan × Nat) → JRun → Except JStop JRun
  | [], r => .ok r
  | (c, place) :: bs, r =>
    match t.dc.find? (·.1 == c.td), t.ac.find? (·.1 == c.ta), f.comps[c.comp]? with
    | some dc, some ac, some k =>
      (match t.q.find? (·.1 == k.tq) with
       | none => .error .bad
       | some q => match blockCoefs dc.2 ac.2 r.seg (r.preds.getD c.comp 0) r.i with
         | .error e => .error e
         | .ok (co, pred, i) =>
           let out := idct f.p (dequant q.2.2 co)
           decodeBlocks f t bs { r with
             blocks := r.blocks.modify c.comp fun a => a.set! place (some out)
             preds := r.preds.set c.comp pred
             i := i })
    | _, _, _ => .error .bad

/-- Is a marker RSTn. -/
def isRst (m : Nat) : Bool := 0xD0 ≤ m && m ≤ 0xD7

/-- How entropy data ends at its marker before the last MCU is complete (R275, R283): EOI or the end of the stream is a
truncation; any other marker is not what R275 takes. -/
def endAt (g : JSeg) : JStop :=
  match g.marker with
  | none => .short
  | some m => if m = 0xD9 then .short else .bad

/-- The MCUs of a scan from `m` on; `n` of them are left. What has been decoded is kept on a stop. -/
def decodeScan (f : JFrame) (t : JTables) (cs : List JScan) : Nat → Nat → JRun → JRun × Option JStop
  | 0, _, r => (r, none)
  | n + 1, m, r =>
    let due := decide (t.ri ≠ 0) && decide (m ≠ 0) && decide (m % max 1 t.ri = 0)
    let want := 0xD0 + (m / max 1 t.ri - 1) % 8
    if due && r.seg.marker != some want then (r, some (endAt r.seg))
    else
      let r := if due then { r with preds := r.preds.map (fun _ => 0), seg := takeSeg r.seg.rest, i := 0 } else r
      match decodeBlocks f t (mcuBlocks f cs m) r with
      | .ok r => decodeScan f t cs n (m + 1) r
      | .error .short => (r, some (endAt r.seg))
      | .error .bad => (r, some .bad)

/-- The scans of a frame; fuel bounds them. `scanned` lists the components done. The bytes begin with the entropy data of the
first of the scans. -/
def decodeScans (f : JFrame) : Nat → JTables → List Nat → List JScan → JBlocks → List Byte → JBlocks × Option JStop
  | 0, _, _, _, bl, _ => (bl, some .bad)
  | n + 1, t, scanned, cs, bl, bs =>
    let r := decodeScan f t cs (mcuCount f cs) 0
      { blocks := bl, preds := f.comps.map fun _ => 0, seg := takeSeg bs, i := 0 }
    let scanned := scanned ++ cs.map (·.comp)
    match r.2 with
    | some e => (r.1.blocks, some e)
    | none =>
      if scanned.length ≥ f.comps.length then (r.1.blocks, none)
      else
        match r.1.seg.marker with
        | none => (r.1.blocks, some .short)
        | some m =>
          if m = 0xD9 then (r.1.blocks, some .short)
          else
            let rest := 0xFF#8 :: BitVec.ofNat 8 m :: r.1.seg.rest
            match readUntil (fun m => m == 0xDA || m == 0xD9) (tablesFit f) (rest.length + 1) t rest with
            | .error e => (r.1.blocks, some e)
            | .ok (t, m, body, rest) =>
              if m = 0xD9 then (r.1.blocks, some .short)
              else match readScan f scanned body with
                | none => (r.1.blocks, some .bad)
                | some cs => if scanTables f t cs then decodeScans f n t scanned cs r.1.blocks rest
                    else (r.1.blocks, some .bad)

/-! ### The whole stream -/

/-- How far a header was read: the frame of check 2, the stop of the check that failed, and, after check 7, the tables, the
first scan and the entropy data. -/
structure JHeader where
  frame : Option JFrame
  stop : Option JStop
  tabs : Option (JTables × List JScan × List Byte)

/-- Checks 1, 2 and 7 of R274. -/
def readHeader (bs : List Byte) : JHeader :=
  match readToFrame bs with
  | .error e => { frame := none, stop := some e, tabs := none }
  | .ok (t, m, body, rest) =>
    match readFrame m body with
    | none => { frame := none, stop := some .bad, tabs := none }
    | some f =>
      if !tablesFit f t then { frame := none, stop := some .bad, tabs := none }
      else match readUntil (· == 0xDA) (tablesFit f) (rest.length + 1) t rest with
        | .error e => { frame := some f, stop := some e, tabs := none }
        | .ok (t, _, body, rest) =>
          match readScan f [] body with
          | none => { frame := some f, stop := some .bad, tabs := none }
          | some cs =>
            if scanTables f t cs then { frame := some f, stop := none, tabs := some (t, cs, rest) }
            else { frame := some f, stop := some .bad, tabs := none }

/-- Is MCU `m` of the frame wholly decoded: every block of it that the stream codes. -/
def mcuWhole (f : JFrame) (bl : JBlocks) (m : Nat) : Bool :=
  (List.range f.comps.length).all fun c => match f.comps[c]? with
    | none => true
    | some k => (List.range (k.h * k.v)).all fun b =>
        let by_ := m / max 1 f.mcuX * k.v + b / max 1 k.h
        let bx := m % max 1 f.mcuX * k.h + b % max 1 k.h
        decide (by_ ≥ f.ownY k) || decide (bx ≥ f.ownX k) ||
          ((bl.getD c #[]).getD (by_ * f.blocksX k + bx) none).isSome

/-- MCUs wholly decoded before the first that is not (R283). -/
def wholeMcus (f : JFrame) (bl : JBlocks) : Nat :=
  ((List.range (f.mcuX * f.mcuY)).find? fun m => !mcuWhole f bl m).getD (f.mcuX * f.mcuY)

/-- Output sample (x, y) of plane `pl` (R277, R283): `whole` MCUs are taken from the decode. -/
def outSample (f : JFrame) (bl : JBlocks) (whole pl x y : Nat) : Nat :=
  let mid := 2 ^ (f.p - 1)
  let m := y / (8 * f.vmax) * f.mcuX + x / (8 * f.hmax)
  match f.comps[pl]? with
  | none => mid
  | some k =>
    if m ≥ whole then mid
    else
      let sx := x * k.h / f.hmax
      let sy := y * k.v / f.vmax
      match (bl.getD pl #[]).getD (sy / 8 * f.blocksX k + sx / 8) none with
      | some blk => blk.getD (8 * (sy % 8) + sx % 8) mid
      | none => mid

end Sys2Proof.Machine
end

