-- ==== Sys2Proof/Machine/Skep.lean ====
section
/-! DEFINITION. The Skep engine (R269 to R291): acceptance with its header checks, the cache, decode, emission, records. -/

namespace Sys2Proof.Machine

/-- A Skep instance. -/
def State.skep (s : State) (i : Fin 2) : SkepState := s.skeps[i]

/-- Change a Skep instance. -/
def State.modSkep (s : State) (i : Fin 2) (f : SkepState → SkepState) : State :=
  { s with skeps := s.skeps.set i (f (s.skep i)) }

/-- Change a descriptor in service. -/
def State.modDesc (s : State) (i : Fin 2) (k : Nat) (f : SkepDesc → SkepDesc) : State :=
  s.modSkep i fun x => { x with descs := x.descs.modify k f }

/-- Set a slot. -/
def State.setSlot (s : State) (i : Fin 2) (j : Fin 8) (x : Option SkepSlot) : State :=
  s.modSkep i fun y => { y with slots := y.slots.set j x }

/-- A free number below a bound (log 18). -/
def State.freeNat (s : State) (b : Nat) : Nat × State :=
  ((Config.freeLine s.freeCtr).toNat % max 1 b, { s with freeCtr := s.freeCtr + 1 })

/-! ### Requests and buckets (R271, R278, R279, R286) -/

/-- Fields of a request. -/
def reqSrc (r : Packet) : Nat := bytesNat r 8 8
@[inherit_doc reqSrc] def reqLen (r : Packet) : Nat := bytesNat r 16 4
@[inherit_doc reqSrc] def reqSrcId (r : Packet) : Nat := bytesNat r 20 1
@[inherit_doc reqSrc] def reqNoCache (r : Packet) : Bool := bitAt r 168

/-- Is a request's SRC_ID in range and its reserved fields 0. -/
def reqOk (r : Packet) : Bool := reqSrcId r ≤ 0x17 && fieldNat r 169 7 == 0 && bytesNat r 40 24 == 0

/-- A bucket entry. -/
structure Bucket where
  bw : Nat
  bh : Nat
  nbuf : Nat
  cslog : Nat
  tieEmit : Nat
  tieRel : Nat
  buf : Nat

/-- Bucket `b` of a descriptor. -/
def bucketOf (d : Line) (b : Nat) : Bucket :=
  let o := 128 + 16 * b
  { bw := bytesNat d o 2, bh := bytesNat d (o + 2) 2, nbuf := bytesNat d (o + 4) 1, cslog := bytesNat d (o + 5) 1,
    tieEmit := bytesNat d (o + 6) 3 % 2 ^ 17, tieRel := bytesNat d (o + 9) 3 % 2 ^ 17, buf := bytesNat d (o + 12) 4 }

/-- Bytes of a sample. -/
def repE (d : Line) : Nat := if repOutw16 d then 2 else 1

/-- RS of R279. -/
def bucketRs (d : Line) (b : Bucket) : Nat := ceilDiv (b.bw * repE d) 256 * 256

/-- BUFL of R279. -/
def bucketBufl (d : Line) (b : Bucket) : Nat := 3 * b.bh * bucketRs d b / 256

/-- The lowest-numbered bucket that holds a size (R278). -/
def chooseBucket (d : Line) (w h : Nat) : Option Nat :=
  (List.range (repNbkt d)).find? fun b => w ≤ (bucketOf d b).bw && h ≤ (bucketOf d b).bh

/-- Lines of a bucket's cache region. -/
def regionLines (d : Line) (b : Nat) : Nat := 2 ^ (bucketOf d b).cslog * (1 + bucketBufl d (bucketOf d b))

/-- First line of the region of bucket `b`. -/
def regionBase (d : Line) (b : Nat) : Nat := repCbase d / 256 + (List.range b).foldl (fun n j => n + regionLines d j) 0

/-- Header line of the cache entry of a key. -/
def entryLine (d : Line) (b key : Nat) : Nat :=
  regionBase d b + key % 2 ^ (bucketOf d b).cslog * (1 + bucketBufl d (bucketOf d b))

/-- First line of a slot's scratch area. -/
def scratchLine (d : Line) (slot : Nat) : Nat :=
  regionBase d (repNbkt d) + slot * (List.range (repNbkt d)).foldl (fun m b => max m (bucketBufl d (bucketOf d b))) 0

/-- OPT of R285. -/
def optWord (d : Line) (b : Nat) : Nat := boolNat (repOutw16 d) + 2 * b

/-- Does caching apply to a request (R286). -/
def caches (d : Line) (r : Packet) : Bool := repCache d && !reqNoCache r

/-! ### The compressed stream (R270, R288) -/

/-- The bytes of a stream from line `i` on, up to the first line that its window or its tag stops, and that stop. SRC is a
device address, so a window to the host or to a peer is a fault. Fuel is the number of lines. -/
def State.streamFrom (s : State) (wins : List DWord) (src : Nat) : Nat → Nat → List (List Byte) →
    List (List Byte) × Option Status
  | 0, _, acc => (acc, none)
  | n + 1, i, acc =>
    match (if caOk (src + 256 * i) then s.translate wins (src + 256 * i) false else none) with
    | some (.device l) =>
      if s.tagOk l then s.streamFrom wins src n (i + 1) (toBytes (s.line l) 256 :: acc) else (acc, some .tagFault)
    | _ => (acc, some .windowFault)

/-- The stream of a request. -/
def State.jpegBytes (s : State) (c : Nat) (r : Packet) : List Byte × Option Status :=
  let x := s.streamFrom (s.ctx c).windows.toList (reqSrc r) (ceilDiv (reqLen r) 256) 0 []
  (x.1.reverse.flatten.take (reqLen r), x.2)

/-- May an instance use the mover bound to a descriptor: it is fenced neither nor quarantined (R270, R451, log 89). -/
def State.skepMover (s : State) (d : Line) : Bool :=
  if h : repMv d < 8 then
    let m := UnitId.mv ⟨repMv d, h⟩
    (s.unit m).fence == .open_ && !(s.unit m).regs.quarantine
  else false

/-- What the engine leaves in its staging area, through which all its DRAM accesses pass (R270), is not in the manual: free lines
(log 18). -/
def State.freeStage (s : State) (d : Line) : State :=
  (List.range 512).foldl (fun s i =>
    let x := s.drawLine
    x.2.putLine (hamKey (repStage d + i)) x.1) s

/-! ### Header checks (R274, R284) -/

/-- What the header checks find. -/
structure Checked where
  w : Nat
  h : Nat
  bucket : Option Nat
  budget : Nat
  status : Status
  header : JHeader

/-- The header checks in order. `fault` is the stop of the line after the bytes. -/
def headerChecks (d : Line) (len : Nat) (bs : List Byte) (fault : Option Status) : Checked :=
  let x := readHeader bs
  let stopped := fun e => if e = JStop.short then fault.getD .decodeSyntax else .decodeSyntax
  match x.frame with
  | none =>
    { w := 0, h := 0, bucket := none, budget := 0, header := x
      status := match x.stop with
        | some e => stopped e
        | none => .decodeSyntax }
  | some f =>
    let budget := 4096 + 2 * f.size + 8 * len
    let r := fun (b : Option Nat) (st : Status) =>
      { w := f.w, h := f.h, bucket := b, budget := budget, status := st, header := x : Checked }
    if (f.p = 12 ∧ !repOutw16 d) ∨ f.w > repMaxw d ∨ f.h > repMaxh d then r none .decodeLimit
    else match chooseBucket d f.w f.h with
      | none => r none .decodeLimit
      | some b =>
        if f.w * f.h > repPpbmax d * len then r (some b) .decodeLimit
        else match x.stop with
          | some e => r (some b) (stopped e)
          | none => r (some b) .done

/-! ### Acceptance -/

/-- Sticky bits of SKP_STATUS for a sample's status (R291). -/
def skepSticky (st : Status) : Word := if st = .tagFault then 0x10#32 else if st = .internal then 0x80#32 else 0#32

/-- End a sample that emits nothing: it waits for its record. -/
def State.failSlot (s : State) (i : Fin 2) (j : Fin 8) (x : SkepSlot) (st : Status) (cycles : Nat) : State :=
  (s.setSlot i j (some { x with status := st, cycles := cycles, image := [], emit := none, phase := .recording })).modRegs (.skp i)
    fun r => { r with sticky := r.sticky ||| skepSticky st }

/-- The same with a free count below the budget: the manual does not state it. -/
def State.failFree (s : State) (i : Fin 2) (j : Fin 8) (x : SkepSlot) (st : Status) : State :=
  let y := s.freeNat x.budget
  y.2.failSlot i j x st y.1

/-- Is a fill of the cache entry at line `e` in progress: a slot decodes into it (R286, R287). -/
def State.filling (s : State) (e : Nat) : Bool :=
  s.skeps.toList.any fun y => y.slots.toList.any fun o => match o with
    | none => false
    | some x => match y.descs[x.desc]?, x.bucket with
      | some d, some b => x.phase == .decoding && !x.hit && caches d.desc x.req && entryLine d.desc b x.key == e
      | _, _ => false

/-- The lookup of R287: a hit with its lines; a hit refused for a bad tag; a miss, as where a fill of the entry is in progress.
A miss clears COMMIT, which begins the fill of the entry. -/
def State.lookup (s : State) (d : Line) (r : Packet) (b key : Nat) : State × Option (List Line) × Bool :=
  let e := entryLine d b key
  let n := bucketBufl d (bucketOf d b)
  let l := s.line e
  let same := !s.filling e && bytesNat l 252 4 == 0x5EC00001 && bytesNat l 0 8 == key && bytesNat l 8 4 == reqLen r &&
    bytesNat l 12 4 == optWord d b
  if same && (s.firstBad e (1 + n)).isNone then (s, some (s.lines (e + 1) n), false)
  else (s.putLine e (setField l 2016 32 0), none, same)

/-- The lowest-numbered free slot (R272); slot 7 is kept for a tally test that is due (R290). -/
def State.freeSlot (s : State) (i : Fin 2) : Option (Fin 8) :=
  (List.finRange 8).find? fun j =>
    ((s.skep i).slots[j]).isNone && !(j == 7 && ((s.unit (.skp i)).regs.tallyPending || (s.unit (.skp i)).tallyRunning ||
      (s.unit (.skp i)).tallyOld))

/-- The next descriptor in rotation that has a request waiting. -/
def State.waitingDesc (s : State) (i : Fin 2) : Option Nat :=
  let x := s.skep i
  let n := x.descs.length
  ((List.range n).map fun k => (x.rot + k) % n).find? fun k => match x.descs[k]? with
    | some d => !d.closed && s.skepMover d.desc && s.tieReached (repTieReq d.desc) (d.q + 1)
    | none => false

/-- The lowest request from `n` on without a record (R289). Fuel bounds the requests met. -/
def nextRequest (past : List Nat) : Nat → Nat → Nat
  | 0, n => n
  | f + 1, n => if past.contains n then nextRequest past f (n + 1) else n

/-- Put a request into a slot and run its header checks, the key and the lookup (R271, R274, R284 to R287). -/
def State.acceptRequest (s : State) (i : Fin 2) (k : Nat) (d : SkepDesc) (j : Fin 8) : State :=
  let e := d.q % max 1 (repNreq d.desc)
  let l := hamKey (repReql d.desc + e / 4)
  let req : Packet := (s.line l).extractLsb' (512 * (e % 4)) 512
  let x : SkepSlot :=
    { desc := k, q := d.q, req := req, w := 0, h := 0, bucket := none, budget := 0, cycles := 0, key := 0, status := .done,
      partialFill := false, hit := false, bad := false, emit := none, image := [], phase := .decoding }
  let tagOk := s.tagOk l
  let s := (s.modDesc i k fun d =>
    let q := nextRequest d.past d.past.length (d.q + 1)
    { d with q := q, past := d.past.filter (q < ·) }).modSkep i fun y => { y with rot := (k + 1) % max 1 y.descs.length }
  if !tagOk then s.failFree i j x .tagFault
  else if !reqOk req then s.failFree i j x .rejectFormat
  else
    let st := s.jpegBytes d.ctx req
    let c := headerChecks d.desc (reqLen req) st.1 st.2
    let s := s.freeStage d.desc
    let x := { x with w := c.w, h := c.h, bucket := c.bucket, budget := c.budget }
    match c.status, c.bucket with
    | .done, some b =>
      (match st.2 with
       | some f => s.failFree i j x f
       | none =>
         let key := crc64 (natToBytes 4 (reqLen req) ++ natToBytes 4 (optWord d.desc b) ++ st.1)
         let x := { x with key := key }
         if caches d.desc req then
           let y := s.lookup d.desc req b key
           let s := if y.2.2 then y.1.modSkep i fun z => { z with cbad := satInc z.cbad } else y.1
           (match y.2.1 with
            | some ls => s.setSlot i j (some { x with hit := true, image := ls })
            | none => s.setSlot i j (some { x with bad := y.2.2 }))
         else s.setSlot i j (some x))
    | st, _ => s.failFree i j x st

/-- REQUEST_ACCEPT (R271, R272, R274, R289): once TIE_REQ allows and a slot is free; under quarantine, and between a detection and
the return to service, nothing is accepted. -/
def execRequestAccept (inst : Fin 2) (s : State) : Result :=
  if !s.intakeUp || (s.unit (.skp inst)).regs.quarantine then .next s
  else match s.freeSlot inst, s.waitingDesc inst with
    | some j, some k => match (s.skep inst).descs[k]? with
      | some d => .next (s.acceptRequest inst k d j)
      | none => .next s
    | _, _ => .next s

/-! ### Decode -/

/-- The lines of a bucket buffer that holds a sample (R277, R279). -/
def sampleLines (d : Line) (b : Bucket) (f : JFrame) (bl : JBlocks) (whole : Nat) : List Line :=
  (List.range 3).flatMap fun pl => (List.range b.bh).flatMap fun y =>
    let row := if y < f.h then
        (List.range f.w).flatMap fun x => natToBytes (repE d) (outSample f bl whole pl x y)
      else []
    linesOfBytes (bucketRs d b / 256) row

/-- What a decode gives: lines and whether they are a partial fill, or a status. -/
def decodeSample (d : Line) (b : Bucket) (c : Checked) (fault : Option Status) : Except Status (List Line × Bool) :=
  match c.header.frame, c.header.tabs with
  | some f, some t =>
    let y := decodeScans f 4 t.1 [] t.2.1 f.noBlocks t.2.2
    (match y.2 with
     | none => .ok (sampleLines d b f y.1 (f.mcuX * f.mcuY), false)
     | some .bad => .error .decodeSyntax
     | some .short =>
       match fault with
       | some st => .error st
       | none => if repPartialOk d then .ok (sampleLines d b f y.1 (wholeMcus f y.1), true) else .error .decodeTruncated)
  | _, _ => .error .decodeSyntax

/-- The header line of a filled entry (R286). -/
def cacheHeader (x : SkepSlot) (d : Line) (b : Nat) : Line :=
  setField (lineOfBytes (natToBytes 8 x.key ++ natToBytes 4 (reqLen x.req) ++ natToBytes 4 (optWord d b) ++
    natToBytes 2 x.w ++ natToBytes 2 x.h)) 2016 32 0x5EC00001

/-- The sample takes its emission index (R280). -/
def State.takeEmission (s : State) (i : Fin 2) (j : Fin 8) (d : SkepDesc) (x : SkepSlot) (b : Nat) : State :=
  let k := d.k.getD b 0
  let s := s.modDesc i x.desc fun y => { y with k := y.k.set b (k + 1) }
  s.setSlot i j (some { x with status := .done, emit := some k, phase := .emitting })

/-- DECODE_COMPLETE (R275 to R277, R280, R283, R286 to R288): the slot finishes its decode or its hit within its budget. -/
def execDecodeComplete (inst : Fin 2) (slot : Fin 8) (run : SkepRun) (s : State) : Result :=
  match (s.skep inst).slots[slot] with
  | none => .next s
  | some x =>
    match (s.skep inst).descs[x.desc]?, x.bucket with
    | some d, some b =>
      if x.phase ≠ .decoding ∨ run.cycles ≥ x.budget ∨ !s.skepMover d.desc then .next s
      else if run.parity then .next (s.failSlot inst slot x .internal run.cycles)
      else
        let x := { x with cycles := run.cycles }
        if x.hit then
          .next ((s.modSkep inst fun y => { y with hit := satInc y.hit }).takeEmission inst slot d x b)
        else
          let st := s.jpegBytes d.ctx x.req
          let c := headerChecks d.desc (reqLen x.req) st.1 st.2
          let s := s.freeStage d.desc
          if c.status ≠ .done ∨ c.w ≠ x.w ∨ c.h ≠ x.h then
            .next (s.failSlot inst slot x (if c.status = .done then .decodeSyntax else c.status) run.cycles)
          else match decodeSample d.desc (bucketOf d.desc b) c st.2 with
            | .error e => .next (s.failSlot inst slot x e run.cycles)
            | .ok (ls, part) =>
              let s := if caches d.desc x.req && !part then
                  (s.putLines (entryLine d.desc b x.key + 1) ls).putLine (entryLine d.desc b x.key) (cacheHeader x d.desc b)
                else s.putLines (scratchLine d.desc slot.val) ls
              .next (s.takeEmission inst slot d { x with partialFill := part, image := ls } b)
    | _, _ => .next s

/-- BUDGET_EXPIRY (R284): the count reaches the budget; the decode is abandoned. While the slot waits for the mover nothing is
counted. -/
def execBudgetExpiry (inst : Fin 2) (slot : Fin 8) (s : State) : Result :=
  match (s.skep inst).slots[slot] with
  | none => .next s
  | some x =>
    let moves := match (s.skep inst).descs[x.desc]? with
      | some d => s.skepMover d.desc
      | none => true
    if x.phase ≠ .decoding ∨ moves = false then .next s
    else .next ((s.failSlot inst slot x .decodeLimit x.budget).modRegs (.skp inst) fun r =>
      { r with sticky := r.sticky ||| 0x40#32 })

/-! ### Emission and record -/

/-- Is a slot's sample the lowest emission of its bucket without a record, so that its buffer, record and TIE_EMIT go before
those of the later ones (R280, R282). -/
def SkepState.firstEmission (y : SkepState) (x : SkepSlot) : Bool :=
  match x.emit with
  | none => true
  | some k => y.slots.toList.all fun o => match o with
    | none => true
    | some z => z.desc != x.desc || z.bucket != x.bucket || (match z.emit with
      | some j => decide (k ≤ j)
      | none => true)

/-- May a slot's record be written: a line is free (R281) and its emission is the next of its bucket (R282). -/
def State.recordMay (s : State) (i : Fin 2) (x : SkepSlot) (d : SkepDesc) : Bool :=
  (x.phase == .emitted || x.phase == .recording) && (s.skep i).firstEmission x &&
  (decide (d.r < repNrec d.desc) || s.tieReached (repTieRrel d.desc) (d.r - repNrec d.desc + 1))

/-- May a slot's sample be copied: its buffer is released (R280) and it is the next of its bucket (R282). -/
def State.emitMay (s : State) (i : Fin 2) (x : SkepSlot) (d : SkepDesc) : Bool :=
  match x.bucket, x.emit with
  | some b, some k =>
    let bk := bucketOf d.desc b
    x.phase == .emitting && (s.skep i).firstEmission x &&
    (decide (k < bk.nbuf) || s.tieReached bk.tieRel (k - bk.nbuf + 1))
  | _, _ => false

/-- Does a slot wait for a buffer, a record line or the mover, so that its hang timer pauses (R284, R448). -/
def State.slotWaits (s : State) (i : Fin 2) (x : SkepSlot) : Bool :=
  match (s.skep i).descs[x.desc]? with
  | none => false
  | some d => match x.phase with
    | .decoding => !s.skepMover d.desc
    | .emitting => !s.emitMay i x d || !s.skepMover d.desc
    | .emitted => !s.recordMay i x d
    | .recording => !s.recordMay i x d

/-- EMISSION (R280, R282): once TIE_REL allows, the sample is copied into buffer k of its bucket. TIE_EMIT is added after the
record. -/
def execEmission (inst : Fin 2) (slot : Fin 8) (s : State) : Result :=
  match (s.skep inst).slots[slot] with
  | none => .next s
  | some x =>
    match (s.skep inst).descs[x.desc]?, x.bucket, x.emit with
    | some d, some b, some k =>
      let bk := bucketOf d.desc b
      if !s.emitMay inst x d || !s.skepMover d.desc then .next s
      else
        let s := (s.freeStage d.desc).putLines (hamKey (bk.buf + k % max 1 bk.nbuf * bucketBufl d.desc bk)) x.image
        .next ((s.setSlot inst slot (some { x with image := [], phase := .emitted })).modSkep inst fun y =>
          { y with done := satInc y.done })
    | _, _, _ => .next s

/-- The record of R281. -/
def skepRecord (d : Line) (x : SkepSlot) : Line :=
  let bufl := match x.emit, x.bucket with
    | some _, some b => bucketBufl d (bucketOf d b)
    | _, _ => 0
  lineOfBytes ([1#8] ++ natToBytes 1 x.status.code ++
    natToBytes 1 (boolNat x.partialFill + 2 * boolNat x.hit + 4 * boolNat x.bad) ++ natToBytes 1 (x.bucket.getD 0xFF) ++
    natToBytes 4 (x.emit.getD 0xFFFFFFFF) ++ natToBytes 8 (bytesNat x.req 0 8) ++ natToBytes 4 x.q ++ natToBytes 2 x.w ++
    natToBytes 2 x.h ++ natToBytes 1 (reqSrcId x.req) ++ [3#8] ++ natToBytes 2 (2 * boolNat x.partialFill) ++
    natToBytes 4 (bytesNat x.req 24 4) ++ natToBytes 12 (bytesNat x.req 28 12) ++ natToBytes 4 bufl ++ natToBytes 4 x.cycles ++
    natToBytes 4 x.budget ++ natToBytes 8 x.key)

/-- An instance without the descriptors that `keep` refuses; slots follow their descriptors. -/
def SkepState.keepDescs (x : SkepState) (keep : SkepDesc → Bool) : SkepState :=
  let slot := fun (y : SkepSlot) => match x.descs[y.desc]? with
    | some d => if keep d then some { y with desc := ((x.descs.take y.desc).filter keep).length } else none
    | none => none
  { x with descs := x.descs.filter keep, rot := 0, slots := x.slots.map fun o => o.bind slot }

/-- Closed descriptors leave with the record of their last slot (R272, R281, log 88). -/
def SkepState.dropClosed (x : SkepState) : SkepState :=
  let held := fun (d : SkepDesc) => x.slots.toList.any fun o => match o with
    | some y => x.descs[y.desc]? == some d
    | none => false
  if x.descs.any fun d => d.closed && !held d then x.keepDescs fun d => !d.closed || held d else x

/-- RECORD_WRITE (R281, R282): once TIE_RREL allows, the record, then TIE_EMIT of the bucket for an emitted sample, then
TIE_REC; the slot is free, and a tally test that waits for slot 7 takes it. -/
def execRecordWrite (inst : Fin 2) (slot : Fin 8) (s : State) : Result :=
  match (s.skep inst).slots[slot] with
  | none => .next s
  | some x =>
    match (s.skep inst).descs[x.desc]? with
    | none => .next s
    | some d =>
      let n := repNrec d.desc
      if !s.recordMay inst x d then .next s
      else
        let s := s.putLine (hamKey (repRecl d.desc + d.r % max 1 n)) (skepRecord d.desc x)
        let s := match x.phase, x.bucket with
          | .emitted, some b => s.tieAdd (bucketOf d.desc b).tieEmit 1#32
          | _, _ => s
        let s := s.tieAdd (repTieRec d.desc) 1#32
        let s := s.modDesc inst x.desc fun y => { y with r := y.r + 1 }
        let s := s.modSkep inst fun y => { y with fail := if x.status.ok then y.fail else satInc y.fail }
        let s := (s.setSlot inst slot none).modSkep inst SkepState.dropClosed
        let u := UnitId.skp inst
        .next (if slot = 7 && (s.unit u).regs.tallyPending && !(s.unit u).regs.quarantine then
          s.modUnit u fun y => { y with tallyRunning := true } else s)

/-- The abort of a context reaches the slots of an instance (R289): a request whose decode is not complete ends ABORTED with a
record; one that has completed emits with DONE_ABORT_LATE. -/
def State.abortSlots (s : State) (i : Fin 2) (c : Nat) : State :=
  (List.finRange 8).foldl (fun s j =>
    match (s.skep i).slots[j] with
    | none => s
    | some x =>
      match (s.skep i).descs[x.desc]? with
      | none => s
      | some d =>
        if d.ctx ≠ c then s
        else match x.phase with
          | .decoding => s.failFree i j x .aborted
          | .emitting => s.setSlot i j (some { x with status := .doneAbortLate })
          | .emitted => s.setSlot i j (some { x with status := .doneAbortLate })
          | .recording => s) s

/-- The emission index that a hung slot had taken goes to the next sample of its bucket (R282, log 90). -/
def State.giveBack (s : State) (i : Fin 2) (x : SkepSlot) : State :=
  match x.bucket, x.emit with
  | some b, some k =>
    let s := s.modDesc i x.desc fun d => { d with k := d.k.set b (d.k.getD b 1 - 1) }
    s.modSkep i fun y => { y with slots := y.slots.map fun o => o.map fun z =>
      if z.desc = x.desc ∧ z.bucket = x.bucket then { z with emit := z.emit.map fun j => if k < j then j - 1 else j } else z }
  | _, _ => s

/-- A slot whose hang timer expires ends its sample INTERNAL with a record (R449). -/
def State.hangSlot (s : State) (i : Fin 2) (j : Fin 8) : State :=
  match (s.skep i).slots[j] with
  | none => s
  | some x =>
    let y := s.freeNat x.budget
    (y.2.giveBack i x).setSlot i j
      (some { x with status := .internal, cycles := y.1, image := [], emit := none, phase := .recording })

/-- A compute-domain reset abandons every slot (R289): each descriptor resumes at its lowest request without a record, and its
emissions at the first whose TIE_EMIT is not added (R282). -/
def State.abandonSlots (s : State) (i : Fin 2) : State :=
  let held := fun (k : Nat) => (s.skep i).slots.toList.filterMap fun o => o.bind fun x => if x.desc = k then some x else none
  s.modSkep i fun y => { y with
    descs := (y.descs.mapIdx fun k d =>
      let xs := held k
      let low := xs.foldl (fun m x => min m x.q) d.q
      let known := (List.range d.q).drop low
      let left := fun q => xs.any (·.q == q)
      { d with
          q := low
          past := d.past ++ known.filter fun q => !left q
          k := d.k.mapIdx fun b n => xs.foldl (fun m x => if x.bucket = some b then min m (x.emit.getD m) else m) n }).filter
        fun d => !d.closed
    slots := Vector.replicate 8 none }

/-- The context of an instance's descriptors is unloaded (R289, log 88): its requests end as by an abort, and no further one is
accepted. -/
def State.closeDescs (s : State) (i : Fin 2) (c : Nat) : State :=
  (s.abortSlots i c).modSkep i fun y =>
    ({ y with descs := y.descs.map fun d => if d.ctx = c then { d with closed := true } else d } : SkepState).dropClosed

end Sys2Proof.Machine
end

