-- ==== Sys2Proof/Machine/GraphChecks.lean ====
section
/-! DEFINITION. The checks of graph load, in the order of R368: R6, R106, R238 with R263 and R269, R296, R301, R326, R332,
R343, R457, the provenance area of R26, and the job of R388. -/

namespace Sys2Proof.Machine

/-! ### GRAPH_LOAD's parameters (R368) -/

/-- Fields of the packet. -/
structure LoadParams where
  len : Nat
  cls : Nat
  prio : Nat
  cflags : Nat
  sgroup : Nat
  coreMask : BitVec 16
  deadlineUs : Nat
  stallUs : Nat
  tieBase : Nat
  tieCount : Nat
  saveBase : Nat

/-- The fields of a packet. -/
def loadParams (p : Packet) : LoadParams :=
  { len := bytesNat p 16 4, cls := bytesNat p 20 1, prio := bytesNat p 21 1, cflags := bytesNat p 22 1,
    sgroup := bytesNat p 23 1, coreMask := p.extractLsb' 192 16, deadlineUs := bytesNat p 28 4, stallUs := bytesNat p 32 4,
    tieBase := bytesNat p 36 4, tieCount := bytesNat p 40 4, saveBase := bytesNat p 48 8 }

/-! ### R106 -/

/-- The bits of an instruction that its opcode defines, as fields of least bit and width; none is an undefined opcode (R114 to
R148). -/
def definedBits (op : Nat) : Option (List (Nat × Nat)) :=
  match op with
  | 0x01 => some [(116, 4), (8, 104)]
  | 0x02 => some [(112, 3), (0, 32)]
  | 0x03 => some [(84, 28)]
  | 0x04 => some [(96, 16)]
  | 0x05 => some [(112, 7)]
  | 0x06 => some [(80, 32)]
  | 0x07 => some [(88, 31)]
  | 0x0F => some []
  | 0x10 => some [(114, 6), (35, 77)]
  | 0x11 => some [(113, 7), (26, 86)]
  | 0x12 => some [(55, 65)]
  | 0x13 => some [(9, 111)]
  | 0x14 => some [(119, 1), (65, 47)]
  | 0x15 => some [(119, 1), (101, 11)]
  | 0x20 => some [(78, 42)]
  | 0x21 => some [(113, 7), (80, 32)]
  | 0x22 => some [(114, 6), (83, 29)]
  | 0x23 => some [(86, 26)]
  | 0x30 => some [(114, 6), (39, 73)]
  | 0x40 => some [(119, 1), (53, 59)]
  | _ => none

/-- Is an instruction's opcode defined and every reserved field 0. -/
def instrDefined (w : TcWord) : Bool :=
  match definedBits (fieldNat w 120 8) with
  | none => false
  | some fs => (fs.foldl (fun (x : TcWord) f => setField x f.1 f.2 0) (setField w 120 8 0)) == 0#128

/-- Loops, END and TIE of a program (R106): from instruction `pc` on, with the ends of the open bodies, innermost first. -/
def programShape (n : Nat) : List TcWord → Nat → List Nat → Nat → Bool
  | [], _, _, _ => false
  | w :: ws, pc, open_, ties =>
    let open_ := open_.filter (pc < ·)
    let op := fieldNat w 120 8
    if op = 0x0F then open_.isEmpty && ws.isEmpty
    else if op = 0x03 then
      let e := pc + 1 + fieldNat w 84 12
      decide (open_.length < 4) && decide (e ≤ n) && (match open_ with
        | o :: _ => decide (e ≤ o)
        | [] => true) && programShape n ws (pc + 1) (e :: open_) ties
    else if op = 0x07 then open_.isEmpty && decide (ties < 12) && programShape n ws (pc + 1) open_ (ties + 1)
    else if op = 0x01 then decide (fieldNat w 116 4 ≠ 0) && programShape n ws (pc + 1) open_ ties
    else programShape n ws (pc + 1) open_ ties

/-- The program of a header in a program section: PROG_LEN instructions from byte PROG_OFFSET on (R102). What lies beyond the
section is no instruction, and reads as 0. -/
def sectionProgram (sect : List Byte) (h : Header) : List TcWord :=
  let bs := sect.drop (bytesNat h 12 4)
  (List.range (bytesNat h 16 2)).map fun i => BitVec.ofNat 128 (natOfBytes ((bs.drop (16 * i)).take 16))

/-- A command of an image with its program. -/
def withProgram (sect : List Byte) (c : Cmd) : Cmd :=
  { c with prog := if hdrClass c.hdr = 0 then sectionProgram sect c.hdr else [] }

/-- An image with the program of each tensor-core command taken from the program section (R102). -/
def withPrograms (g : GraphImage) : GraphImage :=
  let f := withProgram g.progSection
  { g with
    queues := g.queues.map (·.map f)
    prelude := g.prelude.map f
    fallback := g.fallback.map fun x => { x with queues := x.queues.map (·.map f) } }

/-- Are the REJECT_FORMAT rows of R106 met by a command; PROG_OFFSET is a multiple of 16 (R102), and one that is not is a
REJECT_FORMAT here (DESIGN CHOICE, log 107: no rule gives its status). -/
def cmdFormat (c : Cmd) : Bool :=
  hdrClass c.hdr != 0 ||
    (bytesNat c.hdr 12 4 % 16 == 0 && c.prog.all instrDefined && programShape c.prog.length c.prog 0 [] 0)

/-- Every tie that a command names in its entries and its TIE instructions. -/
def cmdTies (c : Cmd) : List Nat :=
  ((List.range 4).filterMap fun i =>
    let w := hdrWait c.hdr i
    if bitAt w 31 then some (fieldNat w 0 17) else none) ++
  (hdrSignals c.hdr).map (·.1) ++
  (if hdrClass c.hdr = 0 then c.prog.filterMap fun w => if fieldNat w 120 8 = 0x07 then some (fieldNat w 102 17) else none
   else [])

/-- May the context name a tie (R106, R238). -/
def tieAllowed (ctx base count t : Nat) : Bool := base ≤ t && t < base + count && (ctx == 0 || 1024 ≤ t)

/-- Every command of an image. -/
def imageCmds (g : GraphImage) : List Cmd :=
  g.queues.flatten ++ (match g.fallback with | some f => f.queues.flatten | none => []) ++ g.prelude

/-- R106, row by row over every command. -/
def programsCheck (g : GraphImage) (ctx : Nat) (p : LoadParams) : Option Status :=
  let cs := imageCmds g
  if !cs.all cmdFormat then some .rejectFormat
  else if !cs.all (fun c => (cmdTies c).all (tieAllowed ctx p.tieBase p.tieCount)) then some .rejectContext
  else if cs.any (fun c => hdrClass c.hdr == 0 && !(1 ≤ bytesNat c.hdr 16 2 && bytesNat c.hdr 16 2 ≤ 4096)) then
    some .rejectLimit
  else none

/-- R6. -/
def deviceCheck (s : State) (g : GraphImage) : Option Status :=
  if g.arithRev ≠ 2 ∨ g.minCreel > s.id.creelMib ∨ g.ncore = 0 ∨ g.ncore > 16 ∨ g.ncore > s.coreCount then
    some .rejectFormat
  else none

/-! ### The intake section (R238) -/

/-- Is a number within bounds. -/
def within (lo hi v : Nat) : Bool := lo ≤ v && v ≤ hi

/-- Are a camera descriptor's field values defined (R237, R238); its buffers lie in the hamper. -/
def camFormat (d : Line) : Bool :=
  let gx := ceilDiv (camOW d) (2 ^ camGlog d) + 1
  let gy := ceilDiv (camOH d) (2 ^ camGlog d) + 1
  bytesNat d 0 1 == 1 && (camPort d ≤ 7 || camPort d == 0xFF) && camVc d ≤ 15 && [0x2B, 0x2C, 0x1E, 0x1F].contains (camDt d) &&
  camSrc d ≤ 0x17 && (camGroup d ≤ 7 || camGroup d == 0xFF) && camCfa d ≤ 3 && fieldNat d 61 3 == 0 &&
  within 64 8192 (camW d) && within 64 8192 (camH d) && camW d % 2 == 0 && camH d % 2 == 0 &&
  within 1 5 (camNlev d) && camPyrf d ≤ 1 && within 2 4 (camNbuf d) && camNroi d ≤ 64 && within 8 128 (camBand d) &&
  within 3 6 (camGlog d) && camPadl d ≤ 31 && within 8 512 (camCW d) && within 8 512 (camCH d) &&
  within 2 65535 (camFnumMax d) && (List.range 3).all (fun i => bytesNat d (96 + i) 1 ≤ 40) &&
  bytesNat d 23 1 == 0 && bytesNat d 58 2 == 0 && bytesNat d 99 1 == 0 && bytesNat d 160 96 == 0 &&
  (camRecord d || !camFp8 d) && (camUndist d || (camOW d == camW d && camOH d == camH d)) &&
  camOutb d + camNbuf d * camBufl d ≤ hamperLines && camRoil d + 6 ≤ hamperLines &&
  (!camUndist d || camRemap d + ceilDiv (8 * gx * gy) 256 ≤ hamperLines) &&
  (camPort d != 0xFF || camMsrc d + camNbuf d * (1 + camH d * ceilDiv (camLineBytes d) 256) ≤ hamperLines)

/-- The ties that a camera descriptor names. -/
def camTies (d : Line) : List Nat :=
  [camTieIn d, camTieRel d, camTieRoi d] ++ (if camPort d = 0xFF then [camTieSrc d] else [])

/-- Nodes of a remap table across and down (R242). -/
def remapGx (d : Line) : Nat := ceilDiv (camOW d) (2 ^ camGlog d) + 1
@[inherit_doc remapGx] def remapGy (d : Line) : Nat := ceilDiv (camOH d) (2 ^ camGlog d) + 1

/-- The remap table of a stream, as words (R242, R243). -/
def State.remapTable (s : State) (d : Line) : List Word :=
  if camUndist d then
    let bs := (s.bytesAt (hamKey (camRemap d)) 0 (8 * remapGx d * remapGy d)).toArray
    (List.range (2 * remapGx d * remapGy d)).map fun i =>
      BitVec.ofNat 32 (natOfBytes ((List.range 4).map fun j => bs.getD (4 * i + j) 0#8))
  else []

/-- Can a stream's remap table be read: its lines pass their tags (R15). -/
def State.remapReadable (s : State) (d : Line) : Bool :=
  !camUndist d || (s.firstBad (hamKey (camRemap d)) (ceilDiv (8 * remapGx d * remapGy d) 256)).isNone

/-- Bytes of a remap table. -/
def remapBytes (d : Line) : Nat := if camUndist d then 8 * remapGx d * remapGy d else 0

/-- The band check of R243. -/
def bandOk (d : Line) (t : Array Word) : Bool :=
  let gx := remapGx d
  let rows : List (Int × Int) := (List.range (remapGy d)).map fun j =>
    let ys : List Int := (List.range gx).map fun i => asr (t.getD (2 * (j * gx + i) + 1) 0#32).toInt 8
    (ys.foldl min (ys.headD 0), ys.foldl max (ys.headD 0))
  let bands : List (Int × Int) := (rows.zip (rows.drop 1)).map fun x => (min x.1.1 x.2.1, max x.1.2 x.2.2 + 1)
  bands.all (fun b => decide (b.2 - b.1 + 1 ≤ (camBand d : Int))) &&
    (bands.zip (bands.drop 1)).all fun x => decide (x.1.1 ≤ x.2.1)

/-- Line-store bytes of a stream (R244). -/
def storeBytes (d : Line) : Nat := camW d * 6 * (if camUndist d then camBand d else 8)

/-- Does a camera descriptor break a limit of its own (R238). -/
def camLimit (s : State) (d : Line) : Bool :=
  (camLevels d).any (fun l => l.1 < 8 || l.2 < 8) || camBufl d < camRecordLine d + 1 || remapBytes d > 524288 ||
  (camUndist d && !bandOk d (s.remapTable d).toArray)

/-- The streams of an instance. -/
def State.camsOf (s : State) (i : Fin 2) : List Line := (s.cams[i].toList).filterMap fun x => x.desc

/-- Sum over a list of numbers. -/
def sumOf {α : Type} (f : α → Nat) (l : List α) : Nat := l.foldl (fun n x => n + f x) 0

/-- The instances that the cameras of an image take: a port's own, and for a memory source the lower one with a free slot. -/
def placeCams : List Line → Nat → Nat → List (Fin 2)
  | [], _, _ => []
  | d :: ds, a, b =>
    let i : Fin 2 := if camPort d = 0xFF then (if a < 12 then 0 else 1) else if camPort d < 4 then 0 else 1
    i :: (if i = 0 then placeCams ds (a + 1) b else placeCams ds a (b + 1))

/-- The limits of R236, R243 and R244 over the instances. -/
def State.camLimits (s : State) (g : GraphImage) : Bool :=
  let ins := placeCams g.cameras (s.camsOf 0).length (s.camsOf 1).length
  let of := fun (i : Fin 2) => s.camsOf i ++ ((g.cameras.zip ins).filter fun x => x.2 == i).map (·.1)
  let all := of 0 ++ of 1
  ([0, 1] : List (Fin 2)).any (fun i =>
    (of i).length > 12 || sumOf storeBytes (of i) > 8388608 || sumOf remapBytes (of i) > 2097152) ||
  (List.range 8).any fun p => (all.filter fun d => camPort d == p).length > 4

/-- Are a lidar descriptor's field values defined (R263). -/
def lidFormat (d : Line) : Bool :=
  bytesNat d 0 1 == 1 && lidMac d ≤ 3 && within 0x20 0x27 (lidSrc d) && fieldNat d 29 3 == 0 && within 1 8 (lidSlotl d) &&
  within 2 4 (lidNbuf d) && bytesNat d 6 2 < 4096 && bytesNat d 14 2 == 0 && (lidIpv6 d || bytesNat d 20 12 == 0) &&
  1 ≤ lidNpkt d && lidPaylen d + 64 ≤ lidSlotl d * 256 && bytesNat d 42 2 == 0 && bytesNat d 70 186 == 0 &&
  lidSlot0 d + lidNbuf d * (lidNpkt d * lidSlotl d + 1) ≤ hamperLines && lidDesc d < hamperLines

/-- Are a replay descriptor's field values defined (R269, R278); its rings and buffers lie in the hamper, its cache in DRAM. -/
def repFormat (s : State) (d : Line) : Bool :=
  bytesNat d 0 1 == 1 && repInst d ≤ 1 && repMv d ≤ 7 && fieldNat d 27 5 == 0 && within 1 8 (repNbkt d) &&
  within 16 16384 (repMaxw d) && within 16 16384 (repMaxh d) && within 1 4096 (repPpbmax d) &&
  within 4 65536 (repNreq d) && repNreq d % 4 == 0 && within 1 65536 (repNrec d) && repCbase d % 256 == 0 &&
  bytesNat d 5 1 == 0 && bytesNat d 14 2 == 0 && bytesNat d 56 72 == 0 &&
  (List.range 8).all (fun b =>
    let k := bucketOf d b
    if b < repNbkt d then within 16 16384 k.bw && within 16 16384 k.bh && within 1 8 k.nbuf && k.cslog ≤ 20 &&
      k.buf + k.nbuf * bucketBufl d k ≤ hamperLines
    else bytesNat d (128 + 16 * b) 16 == 0) &&
  repReql d + repNreq d / 4 ≤ hamperLines && repRecl d + repNrec d ≤ hamperLines && repStage d + 512 ≤ hamperLines &&
  scratchLine d 8 ≤ s.dram.dataLines

/-- The ties that a replay descriptor names. -/
def repTies (d : Line) : List Nat :=
  [repTieReq d, repTieRec d, repTieRrel d] ++
  (List.range (repNbkt d)).flatMap fun b => [(bucketOf d b).tieEmit, (bucketOf d b).tieRel]

/-- Are the source identifiers, and the ports and virtual channels, of the streams distinct. -/
def State.bindingsFree (s : State) (g : GraphImage) : Bool :=
  let cams := s.camStreams.map (·.2) ++ g.cameras
  let lids := s.lidStreams.map (·.2) ++ g.lidars
  (cams.map camSrc).Nodup && (lids.map lidSrc).Nodup &&
  ((cams.filter fun d => camPort d != 0xFF).map fun d => (camPort d, camVc d)).Nodup

/-- The output lines of an attempt of a camera stream: its levels, crops and frame record (R244 to R247). -/
def camOutLines (d : Line) : Nat := camRecordLine d + 1

/-- Sum of fractions `n / d`, as numerator and denominator. -/
def sumFractions (l : List (Nat × Nat)) : Nat × Nat :=
  l.foldl (fun a x => (a.1 * max 1 x.2 + x.1 * a.2, a.2 * max 1 x.2)) (0, 1)

/-- Grants of a port in a round of the slot table. -/
def portGrants (t : SlotTables) (port : Nat) : Nat := (t.slots.filter (· == port)).length

/-! ### R301 -/

/-- The hamper lines that an engine's header names: line, lines as far as the header gives them, written. -/
def headerLines (h : Header) : List (Nat × Nat × Bool) :=
  let op := bytesNat h 12 1
  match hdrClass h with
  | 3 =>
    if op = 1 then [(voxDesc h, 1, false), (voxSlot0 h, voxNpkt h * voxSlotl h, false), (voxSweep h, 1, false),
      (voxOutp h, 1, true), (voxOutc h, 1, true), (voxOuts h, 1, true)]
    else if op = 2 then [(bytesNat h 20 4, 1, false), (bytesNat h 24 4, ceilDiv (4 * scatterNv h) 256, false),
      (bytesNat h 28 4, ceilDiv (scatterNv h * scatterFr h) 256, false), (bytesNat h 32 4, 1, true), (bytesNat h 88 4, 1, true)]
    else []
  | 4 =>
    let x := sampleHdr h
    [(x.levt, 1, false), (x.samp, ceilDiv (16 * x.nq * x.nsq) 256, false), (x.out, ceilDiv (x.nq * x.ob) 256, true)]
  | 5 =>
    let x := plaitHdr h
    if op = 1 then [(x.kvd, 1, false), (x.kvd, 1, true), (x.p0, 1, false), (x.p1, 1, false)]
    else if op = 2 then [(x.kvd, 1, false), (x.p2, 1, true)] ++ (if x.arg = 1 then [(x.p5, 1, false)] else [])
    else if op = 3 then [(x.kvd, 1, false), (x.p2, 1, true)]
    else if op = 4 then [(x.p0, x.p2, false), (x.p1, x.p2, true)]
    else []
  | 6 =>
    let x := walHdr h
    [(x.inLine, ceilDiv (32 * x.n) 256, false), (x.out, ceilDiv (32 * (x.maxout + 1)) 256, true)]
  | _ => []

/-- R301. -/
def hamperCheck (s : State) (g : GraphImage) (wins : List DWord) : Option Status :=
  if (imageCmds g).all fun c => (headerLines c.hdr).all fun l => s.hamperAllowed wins l.1 (max 1 l.2.1) l.2.2 then none
  else some .rejectContext

/-! ### R326, R332, R343, R457, R26, R388 -/

/-- Declares an image live ranges. -/
def declaresLive (g : GraphImage) : Bool := (imageCmds g).any fun c => hdrClass c.hdr == 0 && !(hdrLive c.hdr).isEmpty

/-- R326 against the other contexts that are LOADED or RUN. -/
def overlapCheck (s : State) (g : GraphImage) (ctx : Nat) (p : LoadParams) : Option Status :=
  if s.ctxs.any fun y =>
    let x := y.2
    y.1 != ctx && (x.state == .loaded || x.state == .run) &&
    ((decide (p.tieBase < x.tieBase + x.tieCount) && decide (x.tieBase < p.tieBase + p.tieCount) && x.tieCount != 0 &&
        p.tieCount != 0) ||
     (p.coreMask &&& x.coreMask != 0#16 && declaresLive g && (match x.img with | some o => declaresLive o | none => false) &&
        !(p.cls == 1 && x.cls == 1 && p.sgroup == x.sgroup)))
  then some .rejectContext else none

/-- R332: the sources of ORIGIN_SET. -/
def originCheck (g : GraphImage) (p : LoadParams) : Option Status :=
  let named := fun i => if i < 24 then g.cameras.any fun d => camSrc d == i else g.lidars.any fun d => lidSrc d == 0x20 + (i - 24)
  if (p.cls = 0 ∧ !bitAt (BitVec.ofNat 8 p.cflags) 1 ∧ g.originSet = 0#32) ∨
     (List.range 32).any (fun i => bitAt g.originSet i && !named i) then some .rejectContext
  else none

/-- R343: the 256 entries of the fall-back graph. -/
def entriesCheck (g : GraphImage) : Option Status :=
  match g.fallback with
  | none => none
  | some f =>
    if f.entries.length = 256 ∧ f.entries.all (fun e => e.length == f.queues.length &&
      (e.zip f.queues).all fun x => decide (x.1 ≤ x.2.length)) then none else some .rejectFormat

/-- The images of the contexts that are not FREE, without that of context `ctx`. -/
def State.loadedImages (s : State) (ctx : Nat) : List GraphImage :=
  s.ctxs.filterMap fun y => if y.1 ≠ ctx ∧ y.2.state ≠ .free then y.2.img else none

/-- Are tables a merge of the plans: of the form of R295 and R306, with every grant that a plan names, and no other. -/
def tablesServe (slow : Bool) (t : SlotTables) (plans : List SlotPlan) : Bool :=
  slotTableOk t && dramTableOk t && plans.all (planHeld slow t) && noOther slow t plans

/-- The tables that Protil builds when it merges an image's plan with those loaded (R296): which of the possible ones is not
fixed, so the image's operand gives them, and where that is none of them the first that a search finds; none where the plan does
not fit. -/
def mergeTables (s : State) (g : GraphImage) (ctx : Nat) : Option SlotTables :=
  let plans := (g :: s.loadedImages ctx).map (·.plan)
  match g.tables with
  | some t => if tablesServe s.dram.rate t plans then some t else foundTables s.dram.rate plans
  | none => foundTables s.dram.rate plans

/-- Does the sum of the largest output line rates of each Riddle instance stay within the share of its write port (R259): at most
one attempt each PMIN_US, against the grants of a round of 128 FCLK cycles (log 79), in the tables that the load builds. Without
such tables the plan itself is rejected. -/
def State.shareOk (s : State) (g : GraphImage) (ctx : Nat) : Bool :=
  let ins := placeCams g.cameras (s.camsOf 0).length (s.camsOf 1).length
  let rates := ([0, 1] : List (Fin 2)).map fun i =>
    let ds := s.camsOf i ++ ((g.cameras.zip ins).filter fun x => x.2 == i).map (·.1)
    (i, sumFractions (ds.map fun d => (camOutLines d, camPminUs d)))
  rates.all (·.2.1 == 0) || (match mergeTables s g ctx with
    | some t => rates.all fun r => decide (128 * r.2.1 ≤ 1100 * portGrants t (portOf (.rid r.1) true) * r.2.2)
    | none => true)

/-- R238 over the intake section. A remap table whose line fails its tag is not used, and the load ends REJECT_FORMAT (log 81). -/
def intakeCheck (s : State) (g : GraphImage) (ctx : Nat) (p : LoadParams) : Option Status :=
  let ties := g.cameras.flatMap camTies ++ (g.lidars.flatMap fun d => [lidTieIn d, lidTieRel d]) ++ g.replays.flatMap repTies
  let owners := g.cameras.map camContext ++ g.lidars.map lidContext ++ g.replays.map repContext
  if (g.cameras.filter camFormat).any (fun d => !s.remapReadable d) || !g.cameras.all camFormat || !g.lidars.all lidFormat ||
      !g.replays.all (repFormat s) then some .rejectFormat
  else if !ties.all (tieAllowed ctx p.tieBase p.tieCount) || !owners.all (· == ctx) || !s.bindingsFree g then
    some .rejectContext
  else if g.cameras.any (camLimit s) || s.camLimits g || !s.shareOk g ctx || s.lidStreams.length + g.lidars.length > 8 ||
      ([0, 1] : List (Fin 2)).any (fun i => ((s.skep i).descs.filter (!·.closed)).length +
        (g.replays.filter fun d => repInst d == i.val).length > 4) then some .rejectLimit
  else none

/-- R296: the plan fits beside those loaded. -/
def planCheck (s : State) (g : GraphImage) (ctx : Nat) : Option Status :=
  if (mergeTables s g ctx).isSome then none else some .rejectLimit

/-- Command classes of a prelude (R102, R206, R316), each with the number of its units. -/
def preludeUnits (s : State) : List (Nat × Nat) :=
  [(0, max 1 s.coreCount), (1, 2), (2, 2), (3, 2), (4, 4), (5, 2), (6, 2), (7, 8)]

/-- How long the preludes of some images take in parallel (R457), in ns: the longest of the critical paths that they state, and no
less than the units of a class need for all commands of the class together. The plans that have passed R296 let every unit
run at once (log 80). -/
def preludesNs (s : State) (gs : List GraphImage) : Nat :=
  let load := fun (x : Nat × Nat) =>
    ceilDiv (sumOf (fun g => sumOf (fun c => aclkNs (hdrDecl c.hdr)) (g.prelude.filter (hdrClass ·.hdr == x.1))) gs) x.2
  ((preludeUnits s).map load).foldl max ((gs.map (·.preludeNs)).foldl max 0)

/-- R457: the critical paths of the loaded preludes, run in parallel. -/
def preludeCheck (s : State) (g : GraphImage) (ctx : Nat) : Option Status :=
  if preludesNs s (g :: s.loadedImages ctx) > 8000000 then some .rejectLimit else none

/-- The provenance area of an image (R26): host memory with WR, in one window. -/
def provOk (g : GraphImage) (wins : List DWord) : Bool :=
  g.pbase % 256 == 0 && within 1 256 g.nprec && rangeInWindow wins g.pbase (4 * g.nprec) [1] true

/-- The image's own numbers: queues, checkpoints and lists within the ranges that the manual gives them (R324, R342, R440). -/
def imageFormat (g : GraphImage) : Bool :=
  within 1 16 g.queues.length && (match g.fallback with
    | some f => within 1 16 f.queues.length && f.graphId != 0#32
    | none => true) &&
  g.checkpoints.all (fun k => within 1 255 k.1) && (g.refetch ++ (match g.fallback with | some f => f.refetch | none => [])).all
    fun r => (match r.list with | some l => decide (l.length ≤ 4) | none => true)

/-- The checks of GRAPH_LOAD on the image, in the order of R368; the job of R388 last. -/
def imageCheck (s : State) (g : GraphImage) (ctx : Nat) (p : LoadParams) : Option Status :=
  let wins := (s.ctx ctx).windows.toList
  if g.readError then some .windowFault
  else if !g.signedOk || !imageFormat g then some .rejectFormat
  else (deviceCheck s g) <|> (programsCheck g ctx p) <|> (intakeCheck s g ctx p) <|>
    (planCheck s g ctx) <|> (hamperCheck s g wins) <|> (overlapCheck s g ctx p) <|>
    (originCheck g p) <|> (entriesCheck g) <|> (preludeCheck s g ctx) <|>
    (if provOk g wins then none else some .rejectContext) <|>
    (if g.job.length > s.chipCount ∧ g.job.length > 1 then some .rejectLimit else none)

end Sys2Proof.Machine
end

