-- ==== Sys2Proof/Machine/Rings.lean ====
section
/-! DEFINITION. Rings and doorbells (R361 to R365), the checks of a command packet (R366, R367, R369), and the answers of a
device that is out of service (R436, R441, R461). -/

namespace Sys2Proof.Machine

/-! ### Protil's state -/

/-- ADMIN_READY (R360, R501). -/
def State.adminReady (s : State) : Bool := s.protilUp && s.hif.en

/-! ### Doorbells (R363 to R365) -/

/-- A write of SQ_TAIL (R363, R364, R497). -/
def State.writeSqTail (s : State) (c : Nat) (v : Word) : State :=
  match s.ringOf c with
  | none => (s.hifSticky 5).wakeUp false
  | some r =>
    if (v - r.h).toNat > 2 ^ r.sqLog2 then (s.hifSticky 5).wakeUp false
    else (s.setRing c (some { r with tail := v })).wakeUp false

/-- A write of RQ_HEAD (R363, R365, R497). -/
def State.writeRqHead (s : State) (c : Nat) (v : Word) : State :=
  match s.ringOf c with
  | none => (s.hifSticky 5).wakeUp false
  | some r => (s.setRing c (some { r with rqHead := v })).wakeUp false

/-- A write of an aligned DWORD of the doorbell page; +0x8 and +0xC are reserved (R363). In PCIe recovery the endpoint has no
doorbell page (R506). -/
def State.writeBar4 (s : State) (off : Nat) (v : Word) : State :=
  if s.power.phase == .recovery then s else
  match off % 16 with
  | 0 => s.writeSqTail (off / 16) v
  | 4 => s.writeRqHead (off / 16) v
  | _ => s

/-- What a read of an aligned DWORD of the doorbell page returns (R363). -/
def bar4Read (_off : Nat) : Word := 0#32

/-- SQ_TAIL (R363, R364, R497). -/
def execSqTail (ring : Fin 4096) (v : Word) (s : State) : Result := .next (s.writeBar4 (16 * ring.val) v)

/-- RQ_HEAD (R363, R365, R497). -/
def execRqHead (ring : Fin 4096) (v : Word) (s : State) : Result := .next (s.writeBar4 (16 * ring.val + 4) v)

/-- REPLY_WRITE (R365, R371, R372): replies that may be written are, and what follows them goes on. -/
def execReplyWrite (ring : Fin 4096) (s : State) : Result :=
  if s.protilUp then .next (State.flushRing ring.val 64 s) else .next s

/-- REPLY_STALL (R365): a reply has waited 1 ms. -/
def execReplyStall (ring : Fin 4096) (s : State) : Result :=
  match s.ringOf ring.val with
  | none => .next s
  | some r => if r.waiting.isEmpty || s.replyMay r then .next s else .next (s.event .replyStall (words [ring.val]))

/-! ### Closing rings -/

/-- Close a context's ring: its unread packets and unwritten replies are dropped; a frame whose reply waited ends. -/
def State.closeRing (s : State) (c : Nat) : State :=
  let x := s.ctx c
  let aborted := match x.ring with
    | some r => (r.waiting.find? (·.frameEnd)).map fun rep => rep.status == Status.aborted.code
    | none => none
  let s := s.modCtx c fun x => { x with ring := none }
  match aborted with
  | some a => s.finishFrame c a
  | none => s

/-! ### Packets (R364, R366, R367, R369) -/

/-- Fields of a packet. -/
def pktOp (p : Packet) : Nat := bytesNat p 0 1
@[inherit_doc pktOp] def pktNoirq (p : Packet) : Bool := bitAt p 8
@[inherit_doc pktOp] def pktCtx (p : Packet) : Nat := bytesNat p 2 2 % 4096
@[inherit_doc pktOp] def pktSeq (p : Packet) : Word := p.extractLsb' 32 32

/-- The parameter bytes that an opcode uses, as offset and length; none is an undefined opcode (R368). -/
def pktParams (op : Nat) : Option (List (Nat × Nat)) :=
  match op with
  | 0x01 => some []
  | 0x10 => some [(8, 18), (28, 16), (48, 8)]
  | 0x11 => some []
  | 0x12 => some [(8, 1), (16, 8)]
  | 0x13 => some [(8, 19)]
  | 0x14 => some []
  | 0x15 => some []
  | 0x16 => some []
  | 0x20 => some [(8, 5)]
  | 0x21 => some [(8, 8)]
  | 0x22 => some [(8, 8)]
  | 0x23 => some [(8, 4)]
  | 0x30 => some [(8, 40)]
  | _ => none

/-- Are an opcode's address parameters aligned, and GRAPH_LOAD's CFLAGS defined. A misaligned address is REJECT_FORMAT (R374). -/
def pktAligned (p : Packet) : Bool :=
  match pktOp p with
  | 0x10 => bytesNat p 8 8 % 4096 == 0 && bytesNat p 48 8 % 65536 == 0 && bytesNat p 22 1 < 8
  | 0x13 => bytesNat p 8 8 % 4096 == 0 && bytesNat p 16 8 % 4096 == 0
  | 0x30 => bytesNat p 8 8 % 4096 == 0
  | _ => true

/-- Check 1 of R367 for packet number `n`. -/
def pktFormat (n : Word) (p : Packet) : Bool :=
  match pktParams (pktOp p) with
  | none => false
  | some us =>
    bytesNat p 1 1 < 2 && bytesNat p 2 2 < 4096 && pktSeq p == n && pktAligned p &&
    (us.foldl (fun (x : Packet) u => setField x (8 * u.1) (8 * u.2) 0) (setField p 0 64 0)) == 0#512

/-- May an opcode stand on a ring (R361, R362). -/
def pktOnRing (ring op : Nat) : Bool := if ring = 0 then op != 0x20 else [0x01, 0x20, 0x21, 0x22, 0x23].contains op

/-- Does the context's STATE allow an opcode (R368); ABORT has its own check (R373). -/
def pktState (op : Nat) (st : CtxState) : Bool :=
  match op with
  | 0x10 => st == .free
  | 0x11 => st == .loaded || st == .stopped
  | 0x12 => st == .free || st == .loaded
  | 0x13 => st == .loaded || st == .run
  | 0x14 => st == .loaded
  | 0x15 => st == .loaded
  | 0x16 => st == .run
  | 0x20 => st == .loaded || st == .run
  | 0x21 => st == .loaded || st == .run
  | 0x22 => st == .loaded
  | _ => true

/-- Is every parameter within the range of R368 (check 4). An image that reaches 2^48 cannot be read (R355): REJECT_LIMIT
(DESIGN CHOICE, log 110). -/
def pktRange (p : Packet) : Bool :=
  match pktOp p with
  | 0x10 =>
    let l := loadParams p
    within 1 (2 ^ 31) l.len && l.cls ≤ 1 && (if l.cls = 0 then l.sgroup == 0xFF else l.sgroup ≤ 15) &&
    (l.cls == 1 || within 1 1000000 l.deadlineUs) && l.tieBase + l.tieCount ≤ 131072 && bytesNat p 8 8 + l.len ≤ 2 ^ 48
  | 0x12 => bytesNat p 8 1 ≤ 15
  | 0x13 => within 4 12 (bytesNat p 24 1) && within 4 12 (bytesNat p 25 1) && within 3 63 (bytesNat p 26 1)
  | 0x21 => within 1 0x7FFFFFFF (bytesNat p 12 4)
  | 0x22 => bytesNat p 12 4 ≤ 0x7FFFFFFF
  | 0x30 => bytesNat p 8 8 < 2 ^ 48
  | _ => true

/-- Checks 1 to 4 of R367 for packet `n` of a ring; a STOPPED context's packets are answered FENCED (R441). -/
def packetCheck (s : State) (ring : Nat) (n : Word) (p : Packet) : Option Status :=
  let op := pktOp p
  let c := pktCtx p
  let x := s.ctx c
  if !pktFormat n p then some .rejectFormat
  else if !pktOnRing ring op || (if ring = 0 then c == 0 else c != ring) then some .rejectContext
  else if x.state == .stopped && op != 0x11 && op != 0x30 then some .fenced
  else if !pktState op x.state ||
      ((op == 0x21 || op == 0x22) && !(x.ownsTie (bytesNat p 8 4) && 1024 ≤ bytesNat p 8 4)) then some .rejectContext
  else if !pktRange p then some .rejectLimit
  else none

/-- The packet at entry h of a ring, and whether its line's tag is good: read from host memory, where it is what the host has
put there, or from the hamper (R362, R364). -/
def State.ringPacket (s : State) (r : Ring) (host : Packet) : Packet × Bool :=
  if r.sqHost then (host, true)
  else
    let a := r.sqAddr + 64 * (r.h.toNat % 2 ^ r.sqLog2)
    ((s.line (a / 256)).extractLsb' (8 * (a % 256)) 512, s.tagOk (a / 256))

/-- Can Protil reach entry h of a ring: in host memory its address lies below 2^48 (R355; DESIGN CHOICE, log 110), and in the
hamper the Osier cluster has a grant (R302). -/
def State.entryReached (s : State) (r : Ring) : Bool :=
  let a := r.sqAddr + 64 * (r.h.toNat % 2 ^ r.sqLog2)
  if r.sqHost then decide (a < 2 ^ 48) else s.osierGrant false (a / 256)

/-- May Protil read the next packet of a ring (R369): there is one that it can reach; the admin ring's last is answered; fewer
than 16 accepted frames of a context wait. -/
def State.mayRead (s : State) (ring : Nat) (r : Ring) : Bool :=
  s.protilUp && r.h != r.tail && s.entryReached r &&
  (if ring = 0 then r.waiting.isEmpty && !s.ctxs.any (fun x => x.2.waitPkt.any fun w => w.admin && !w.silent)
   else decide ((s.ctx ring).reqs.length < 16))

/-- The context ring whose turn it is: the next one with a packet to read after the ring served last (R369). -/
def State.nextRing (s : State) : Option Nat :=
  let cs := (s.ctxs.map (·.1)).filter fun c => c != 0 && (match (s.ctx c).ring with
    | some r => s.mayRead c r
    | none => false)
  (cs.find? fun c => decide (s.hif.turn < c)).orElse fun _ => cs.head?

/-- Is it a ring's turn: the admin ring is no context's and takes no part in the rotation (R369). -/
def State.ringTurn (s : State) (ring : Nat) : Bool := ring == 0 || s.nextRing == some ring

/-- The outcome of an opcode's own checks and action: a status answered now, or none when the reply comes later. -/
abbrev Acted := State × Option Status

/-- The packet at entry h of a ring is read; a context ring that was served waits for its next turn (R364, R369). -/
def State.takePacket (s : State) (ring : Nat) (r : Ring) : State :=
  let s := s.setRing ring (some { r with h := r.h + 1#32 })
  if ring = 0 then s else { s with hif := { s.hif with turn := ring } }

/-- Protil reads the next packet of a ring, when it carries opcode `op`, and acts on it (R364, R367 to R370). Undefined opcodes
and packets whose line has a bad tag are read as NOP's row reads. -/
def servePacket (ring op : Nat) (host : Packet) (act : Packet → State → Acted) (s : State) : State :=
  match s.ringOf ring with
  | none => s
  | some r =>
    let x := s.ringPacket r host
    let p := x.1
    let mine := if !x.2 || (pktParams (pktOp p)).isNone then op == 0x01 else pktOp p == op
    if !s.mayRead ring r || !mine || !s.ringTurn ring then s
    else
      let s := s.takePacket ring r
      let c := if ring = 0 then pktCtx p else ring
      let frame := if pktOp p = 0x23 then bytesNat p 8 4 else 0
      let say := fun (st : Status) (s : State) => s.answer ring st.code c (pktSeq p) frame (pktNoirq p)
      if !x.2 then s.answer ring Status.internal.code ring r.h 0 false
      else if pktOp p ≠ 0x01 ∧ s.serviceStatus.isSome then say (s.serviceStatus.getD .internal) s
      else match packetCheck s ring r.h p with
        | some st => say st s
        | none => match act p s with
          | (s, some st) => say st s
          | (s, none) => s

end Sys2Proof.Machine
end

