-- ==== Sys2Proof/Machine/Sequencer.lean ====
section
/-! DEFINITION. The sequencer's instructions of a tensor core: SETA, SETS, LOOP, IDLE, FENCE, CHECK, TIE, END (R115 to
R124). -/

namespace Sys2Proof.Machine

/-- SETA (R115). -/
def issueSeta (w : TcWord) (r : CoreRun) : Issued :=
  if fieldNat w 80 5 ≠ 0 ∨ fieldNat w 116 4 = 0 then rejectIssue
  else
    let x : AddrReg := { base := w.extractLsb' 80 32, strides := [fieldInt w 8 18, fieldInt w 26 18, fieldInt w 44 18, fieldInt w 62 18] }
    .ok { r with areg := r.areg.set (fieldNat w 116 4) x }

/-- SETA (R115): the address register takes its base and strides for the instructions after it. -/
def execSeta (n : Fin 16) (ups : List Upset) (s : State) : Result :=
  .next (coreIssue 0x01 n ups s fun _ w t r => issueSeta w (issueUpsets ups t r))

/-- SETS (R118); both vector copies write the register (R93). -/
def issueSets (ups : List Upset) (w : TcWord) (t : Nat) (r : CoreRun) : Issued :=
  .ok ((vectorUpset ups (oneWrite (t + 1)) (issueUpsets ups t r)).land (t + 1) r.serial
    (.s (fieldNat w 112 3) (w.extractLsb' 0 32)))

/-- SETS (R118): the scalar register takes the value in the next cycle. -/
def execSets (n : Fin 16) (ups : List Upset) (s : State) : Result :=
  .next (coreIssue 0x02 n ups s fun _ w t r => issueSets ups w t r)

/-- LOOP (R119): COUNT runs of the BODY instructions that follow. -/
def issueLoop (w : TcWord) (r : CoreRun) : Issued :=
  let body := fieldNat w 84 12
  let count := fieldNat w 96 16
  if body = 0 then rejectIssue
  else .ok { r with loops :=
    { first := r.pc + 1, last := r.pc + 1 + body, count := if count = 0 then 65536 else count, iter := 0 } :: r.loops }

/-- LOOP (R119). -/
def execLoop (n : Fin 16) (ups : List Upset) (s : State) : Result :=
  .next (coreIssue 0x03 n ups s fun _ w t r => issueLoop w (issueUpsets ups t r))

/-- IDLE (R120). -/
def issueIdle (w : TcWord) (t : Nat) (r : CoreRun) : Issued :=
  if fieldNat w 96 16 = 0 then rejectIssue else .ok { r with idleUntil := t + fieldNat w 96 16 }

/-- IDLE (R120): the next issue comes no earlier than N cycles later; N = 0 is rejected. -/
def execIdle (n : Fin 16) (ups : List Upset) (s : State) : Result :=
  .next (coreIssue 0x04 n ups s fun _ w t r => issueIdle w t (issueUpsets ups t r))

/-- FENCE (R121): it issues after the completion of the units of its mask. -/
def execFence (n : Fin 16) (ups : List Upset) (s : State) : Result :=
  .next (coreIssue 0x05 n ups s fun _ _ t r => .ok (issueUpsets ups t r))

/-- CHECK (R122). -/
def issueCheck (w : TcWord) (t : Nat) (r : CoreRun) : Issued :=
  if t ≠ fieldNat w 80 32 then .error (.cycleFault, stCycle) else .ok r

/-- CHECK (R122): CYCLE_FAULT unless it issues in the cycle it states. -/
def execCheck (n : Fin 16) (ups : List Upset) (s : State) : Result :=
  .next (coreIssue 0x06 n ups s fun _ w t r => issueCheck w t (issueUpsets ups t r))

/-- TIE (R123). -/
def issueTie (w : TcWord) (r : CoreRun) : Issued :=
  if fieldNat w 88 14 = 0 then rejectIssue
  else .ok { r with ties := r.ties ++ [(fieldNat w 102 17, fieldNat w 88 14)] }

/-- TIE (R123): an add recorded for the command's end. -/
def execTie (n : Fin 16) (ups : List Upset) (s : State) : Result :=
  .next (coreIssue 0x07 n ups s fun _ w t r => issueTie w (issueUpsets ups t r))

/-- END (R112, R124): no more instructions; the vector unit's open line is written after it. -/
def issueEnd (t : Nat) (r : CoreRun) : CoreRun :=
  let r := { r with ended := true }
  match r.asmVec with
  | some (l, bs) =>
    let i := max t r.asmVecLast + 1
    ({ r.write i r.serial l (asmLine bs) with asmVec := none }).done 2 (i + 1)
  | none => r

/-- END (R124). -/
def execEndProg (n : Fin 16) (ups : List Upset) (s : State) : Result :=
  .next (coreIssue 0x0F n ups s fun _ _ t r => .ok (issueEnd t (issueUpsets ups t r)))

end Sys2Proof.Machine
end

