-- ==== Sys2Proof/Machine/VectorUnit.lean ====
section
/-! DEFINITION. The vector unit's instructions of a tensor core: VEC, VLD, VST, VTAB (R91 to R99, R141 to R145). -/

namespace Sys2Proof.Machine

/-- INT32 to a word, saturating (R92). -/
def satWord (v : Int) : Word := BitVec.ofInt 32 (satI32 v)

/-- The lane operations of R92 by VOP (R141) whose result is a lane; none for the others. -/
def laneOp (vop shamt : Nat) (pred : Bool) (tab : ActTable) (a b c : Word) : Option Word :=
  match vop with
  | 0x00 => some (f32Add a b)
  | 0x01 => some (f32Sub a b)
  | 0x02 => some (f32Mul a b)
  | 0x03 => some (f32Fma a b c)
  | 0x04 => some (f32Min a b)
  | 0x05 => some (f32Max a b)
  | 0x06 => some (f32Abs a)
  | 0x07 => some (f32Neg a)
  | 0x0C => some (if pred then a else b)
  | 0x0D => some (cvtI2F a)
  | 0x0E => some (cvtF2I a)
  | 0x10 => some (satWord (a.toInt + b.toInt))
  | 0x11 => some (satWord (a.toInt - b.toInt))
  | 0x12 => some (if a.toInt ≤ b.toInt then a else b)
  | 0x13 => some (if b.toInt ≤ a.toInt then a else b)
  | 0x14 => some (a &&& b)
  | 0x15 => some (a ||| b)
  | 0x16 => some (a ^^^ b)
  | 0x17 => some (a <<< shamt)
  | 0x18 => some (a.sshiftRight shamt)
  | 0x22 => some (vexp2 a)
  | 0x23 => some (vlog2 a)
  | 0x24 => some (f32Rcp a)
  | 0x25 => some (f32Rsqrt a)
  | 0x26 => some (vact tab a)
  | _ => none

/-- CMP (R92): NaN compares false, except NE true. -/
def laneCmp (vop : Nat) (a b : Word) : Bool :=
  let x := f32 a
  let y := f32 b
  match vop with
  | 0x08 => fpLt x y
  | 0x09 => fpLe x y
  | 0x0A => fpEq x y
  | _ => x.isNan || y.isNan || !fpEq x y

/-- SUM (R92): the six-level tree over 64 lanes. -/
def vecSum (v : Line) : Word :=
  ((treeSum 6 ((List.range 64).map fun i => some (lane v i))).getD 0 none).getD 0#32

/-- RMAX (R92). -/
def vecMax (v : Line) : Word := ((List.range 63).map fun i => lane v (i + 1)).foldl f32Max (lane v 0)

/-- Latency and issue interval of a VOP (R92, R142); none for an undefined VOP (R141). -/
def vopTiming (vop : Nat) : Option (Nat × Nat) :=
  if vop ≤ 0x0E ∨ (0x10 ≤ vop ∧ vop ≤ 0x18) ∨ vop = 0x27 then some (4, 1)
  else if vop = 0x20 ∨ vop = 0x21 ∨ vop = 0x26 then some (10, 1)
  else if vop = 0x22 ∨ vop = 0x23 then some (8, 1)
  else if vop = 0x24 ∨ vop = 0x25 then some (12, 4)
  else none

/-- The register write of a VEC (R92, R141, R142). -/
def vecWrite (w : TcWord) (r : CoreRun) : RegWrite :=
  let vop := fieldNat w 114 6
  let vd := fieldNat w 109 5
  let va := r.vreg.getD (fieldNat w 104 5) 0#2048
  let vb := r.vreg.getD (fieldNat w 99 5) 0#2048
  let vc := r.vreg.getD (fieldNat w 94 5) 0#2048
  let sb := r.sreg.getD (fieldNat w 90 3) 0#32
  let b := fun i => if bitAt w 93 then sb else lane vb i
  let all : DWord := 0xFFFFFFFFFFFFFFFF#64
  let pred := r.preg.getD (fieldNat w 87 2) all
  let tab := r.tabs.getD (fieldNat w 78 2) 0#10240
  let shamt := fieldNat w 80 5
  if vop = 0x27 then .s (vd % 8) (lane va 0)
  else if vop = 0x20 then .v vd all (lanesOf fun _ => vecSum va)
  else if vop = 0x21 then .v vd all (lanesOf fun _ => vecMax va)
  else if 0x08 ≤ vop ∧ vop ≤ 0x0B then .p (fieldNat w 85 2) (maskOf fun i => laneCmp vop (lane va i) (b i))
  else .v vd (if bitAt w 89 then pred else all)
    (lanesOf fun i => (laneOp vop shamt (bitAt pred i) tab (lane va i) (b i) (lane vc i)).getD 0#32)

/-- VEC (R141). -/
def issueVec (ups : List Upset) (w : TcWord) (t : Nat) (r : CoreRun) : Issued :=
  match vopTiming (fieldNat w 114 6) with
  | none => rejectIssue
  | some (lat, gap) =>
    let x := vecWrite w r
    let r := vectorUpset ups (oneWrite (t + lat)) (issueUpsets ups t { r with vecReady := t + gap })
    .ok ((r.land (t + lat) r.serial x).done 2 (t + lat))

/-- VEC (R141, R142). -/
def execVec (n : Fin 16) (ups : List Upset) (s : State) : Result :=
  .next (coreIssue 0x20 n ups s fun _ w t r => issueVec ups w t r)

/-- Bytes that 64 elements of a MODE 1 format take (R94, R143). -/
def cvtBytes (fmt : Nat) : Nat := match vldFmt fmt with
  | some f => 8 * f.bits
  | none => 256

/-- VLD (R143). FMT, HALF and Q are ignored in the modes for which the manual does not describe them (DEDUCED, log 102). MODE 3
off a line boundary counts as touching the five lines that its 1,024 bytes span (R116; DESIGN CHOICE, log 113). -/
def issueVld (ups : List Upset) (h : Header) (w : TcWord) (t : Nat) (r : CoreRun) : Issued :=
  let mode := fieldNat w 117 3
  let fmt := fieldNat w 114 3
  let q := fieldNat w 104 3
  if mode > 3 ∨ (mode = 1 ∧ fmt = 7) ∨ (mode = 3 ∧ fmt ≠ 1 ∧ fmt ≠ 2 ∧ fmt ≠ 7) then rejectIssue
  else
    let a := aopAddr r w 80
    let align := if mode = 0 then 256 else if mode = 1 then cvtBytes fmt else if mode = 2 then 128 else 1024
    let lines := if mode = 3 then spanLines a 1024 else [lineOf a 0]
    match checkIssue h lines (a % align == 0) r with
    | .error e => .error e
    | .ok r =>
      let fin := if mode = 3 then t + 10 + q else if mode = 1 then t + 7 else t + 6
      let r := vectorUpset ups (oneWrite fin) (issueUpsets ups t { r with vecReady := if mode = 3 then t + 8 else t + 1 })
      let r := r.job (.vld r.serial t mode fmt (fieldNat w 113 1) (fieldNat w 107 5) q a) (if mode = 3 then 8 else 1)
      .ok (r.done 2 fin)

/-- VLD (R89, R90, R94, R143). -/
def execVld (n : Fin 16) (ups : List Upset) (s : State) : Result :=
  .next (coreIssue 0x21 n ups s fun h w t r => issueVld ups h w t r)

/-- VST (R84, R144). FMT is ignored in MODE 0 (DEDUCED, log 102); the bytes of a MODE 0 store are compared at t + 1, the
cycle before their write is issued, and those of a MODE 1 store at t + 2 (DEDUCED, log 103). -/
def issueVst (ups : List Upset) (h : Header) (w : TcWord) (t : Nat) (r : CoreRun) : Issued :=
  let mode := fieldNat w 117 3
  let fmt := fieldNat w 114 3
  if mode > 1 ∨ (mode = 1 ∧ fmt = 7) then rejectIssue
  else
    let a := aopAddr r w 83
    let line := lineOf a 0
    let size := if mode = 0 then 256 else cvtBytes fmt
    match checkIssue h [line] (a % size == 0) r with
    | .error e => .error e
    | .ok r =>
      let v := r.vreg.getD (fieldNat w 107 5) 0#2048
      let r := vectorUpset ups (oneWrite (if mode = 0 then t + 1 else t + 2)) (issueUpsets ups t { r with vecReady := t + 1, asmVecLast := t + 2 })
      let closes := match r.asmVec with
        | some (l, _) => l != line
        | none => false
      let r := match r.asmVec with
        | some (l, bs) => if closes then
            ({ r.write (t + 2) r.serial l (asmLine bs) with asmVec := none }).done 2 (t + 3) else r
        | none => r
      if mode = 0 then
        let i := if closes then t + 3 else t + 2
        .ok (({ r.write i r.serial line v with asmVec := none }).done 2 (i + 1))
      else
        match vldFmt fmt with
        | none => rejectIssue
        | some f =>
          let bytes := packRow f.bits size ((List.range 64).map fun i => narrowElem f (lane v i))
          let cur := match r.asmVec with
            | some (_, bs) => bs
            | none => List.replicate 256 none
          let bs := asmPut cur (a % 256) bytes
          if bs.all (·.isSome) then .ok (({ r.write (t + 3) r.serial line (asmLine bs) with asmVec := none }).done 2 (t + 4))
          else .ok ({ r with asmVec := some (line, bs) }.done 2 t)

/-- VST (R94, R144). -/
def execVst (n : Fin 16) (ups : List Upset) (s : State) : Result :=
  .next (coreIssue 0x22 n ups s fun h w t r => issueVst ups h w t r)

/-- VTAB (R98, R145). Off the line boundary it counts as touching the six lines that its 1,280 bytes span, for the window check
that comes before the rejection (R116; DESIGN CHOICE, log 113). -/
def issueVtab (ups : List Upset) (h : Header) (w : TcWord) (t : Nat) (r : CoreRun) : Issued :=
  let a := aopAddr r w 86
  match checkIssue h (spanLines a 1280) (a % 256 == 0) r with
  | .error e => .error e
  | .ok r =>
    let r := vectorUpset ups (oneWrite (t + 10)) (issueUpsets ups t { r with vecReady := t + 5 })
    .ok ((r.job (.vtab r.serial t (fieldNat w 110 2) a) 5).done 2 (t + 10))

/-- VTAB (R145). -/
def execVtab (n : Fin 16) (ups : List Upset) (s : State) : Result :=
  .next (coreIssue 0x23 n ups s fun h w t r => issueVtab ups h w t r)

end Sys2Proof.Machine
end

