-- ==== Sys2Proof/Machine/Programs.lean ====
section
/-! DEFINITION. The issue of any instruction of R114 by its opcode: the checks that an instruction due in the cycle of a
count's expiry makes (R86, R150). -/

namespace Sys2Proof.Machine

/-- The issue of an instruction without a disturbance; a value that is no opcode never reaches issue (R106, R114). -/
def issueAny (h : Header) (w : TcWord) (t : Nat) (r : CoreRun) : Issued :=
  match tcOpcode w with
  | 0x01 => issueSeta w r
  | 0x02 => issueSets [] w t r
  | 0x03 => issueLoop w r
  | 0x04 => issueIdle w t r
  | 0x05 => .ok r
  | 0x06 => issueCheck w t r
  | 0x07 => issueTie w r
  | 0x0F => .ok (issueEnd t r)
  | 0x10 => issueSetd [] h w t r
  | 0x11 => issueLoadw [] h w t r
  | 0x12 => issuePassWord [] h w t r
  | 0x13 => issueConvWord [] h w t r
  | 0x14 => issueLbf [] h w t r
  | 0x15 => issueDrain [] h w t r
  | 0x20 => issueVec [] w t r
  | 0x21 => issueVld [] h w t r
  | 0x22 => issueVst [] h w t r
  | 0x23 => issueVtab [] h w t r
  | 0x30 => issueCmpcnt [] h w t r
  | 0x40 => issueMove [] h w t r
  | _ => rejectIssue

/-- The next instruction of a core issues, whatever it is (R109). -/
def issueNext (n : Fin 16) (w : TcWord) (s : State) : State := coreIssue (tcOpcode w) n [] s issueAny

end Sys2Proof.Machine
end

