-- ==== Sys2Proof/Machine/TimeTick.lean ====
section
/-! DEFINITION. The tick of the time unit (R470 to R472, R474). -/

namespace Sys2Proof.Machine

/-- A second in Q32 nanoseconds. -/
def secQ32 : Int := 1000000000 * 4294967296

/-- One TCLK tick of the time unit (R470): the increment, twice it while the clocks are halved (R472), then a pending
step (R471); the seconds absorb the carry or borrow and wrap modulo 2^48. PPS_OUT rises when a tick without a step
crosses a second boundary and PPS_EN is set (R474). -/
def TimeUnit.tick (t : TimeUnit) : TimeUnit :=
  let q0 : Int := (t.ns : Int) * 4294967296 + t.frac.toNat
  let q1 := q0 + (if t.halved then 2 * (t.inc : Int) else t.inc)
  let st := match t.pending with
    | some p => p
    | none => (0, 0)
  let q2 := q1 + st.2
  let carry := q2 / secQ32
  let q := q2 % secQ32
  let pulse := t.pending.isNone && decide (carry > 0) && t.ppsEn
  { t with
    sec := BitVec.ofInt 48 (t.sec.toNat + st.1 + carry)
    ns := (q / 4294967296).toNat
    frac := BitVec.ofInt 32 (q % 4294967296)
    pending := none
    ticks := t.ticks + 1
    ppsHigh := t.ppsHigh || pulse }

/-- Two's complement of 32 bits, as a number. -/
def word32 (v : Int) : Nat := wrapNat 32 v

/-- Does the root PLL run, so that TCLK ticks (R485, R495, R501): from step 2 of the boot on, in Run, Hold and Nap. -/
def State.rootOn (s : State) : Bool := s.power.phase != .off && s.power.st < 3

/-- Nominal ticks that one tick takes: two at half rate, in a halving or a stretch (R485, R488, R489). -/
def State.tickWall (s : State) : Nat := if s.power.halved || s.power.stretch then 2 else 1

/-- One TCLK tick. A step that it applies sets STEPPED and logs its amount (R471, R477). -/
def State.tickTime (s : State) : State :=
  let t := { s.tu.tick with wall := s.tu.wall + s.tickWall }
  let rose := t.ppsHigh && !s.tu.ppsHigh
  let s' := { s with tu := t, out := if rose then s.out ++ [.pps (some true)] else s.out }
  match s.tu.pending with
  | none => s'
  | some p =>
    ({ s' with tu := { t with stepped := true } }).event .timeStep (words [word32 p.1, word32 (p.2 / 4294967296)])

end Sys2Proof.Machine
end

