-- ==== Sys2Proof/Machine/Messages.lean ====
section
/-! DEFINITION. The rows of the link layer itself (R391, R392), the messages TIE, MAIL and MACK (R405, R406), the time
beacons and delay measurement (R407 to R409, R476), and the notices of the fabric (R462 to R465). -/

namespace Sys2Proof.Machine

/-- IDLE_FLIT (R391, R392). -/
def execIdleFlit (l : Fin 6) (f : Flit) (s : State) : Result :=
  if f.typ = tIdle then .next (linkRx l f s).1.tryHalves else .next s

/-- ACK_TIMEOUT (R392): no progress for 2 µs while flits are outstanding. -/
def execAckTimeout (l : Fin 6) (s : State) : Result :=
  if (s.link l).active && !(s.link l).out.isEmpty then .next (s.resend l) else .next s

/-- A routed flit whose CRC fails was under way to its next hop already, cut-through, where bytes 0 to 7 named the expected FSEQ
and the outgoing link had a free slot: it leaves stomped, with the FSEQ that the next flit of that link reuses (R394). -/
def State.stomp (s : State) (l : Fin 6) (f : Flit) : State :=
  if !routedType f.typ || f.dst.toNat == s.self || f.fseq != (s.link l).rxNext then s
  else match s.route f.dst.toNat with
    | none => s
    | some o =>
      let x := s.link o
      if x.active && x.out.length < 128 && x.txq.isEmpty && (x.xq.isEmpty || x.gap) then
        s.emit (.flit o.val (flitWire { x.stampAck false f with fseq := x.txNext } 0xFFFFFFFF))
      else s

/-- FLIT_CRC_ERROR (R390 to R392, R394): a flit on the wire that is no good flit of a defined type. A bad CRC is counted and
answered by NACK, unless a NACK stands, and a routed flit already under way is stomped; a stomped flit is discarded; an undefined
type is discarded and counted, wherever its sequence number stands. -/
def execFlitCrcError (l : Fin 6) (w : BitVec 2048) (s : State) : Result :=
  let f := flitOf w
  let y := flitSyndrome w
  if !(s.link l).active then .next s
  else if y = 0 then
    if definedType f.typ then .next s
    else
      .next ((linkRx l f s).1.modLink l fun y => { y with crcErr := satInc y.crcErr })
  else if y = 0xFFFFFFFF then .next s
  else
    let s := s.modLink l fun y => { y with crcErr := satInc y.crcErr, crcSeen := true }
    if (s.link l).nacked then .next s
    else .next ((((s.stomp l f).markReplay l.val).modLink l fun y => { y with nacked := true }).sendIdle l true)

/-! ### Messages -/

/-- A routed flit that has been accepted: forwarded, or delivered here (R387, R393). -/
def routedRow (l : Fin 6) (f : Flit) (typ : Byte) (act : State → State) (s : State) : Result :=
  linkRow l f typ (fun s => if f.dst.toNat = s.self then act s else s.forward f) s

/-- Does this chip accept a TIE flit (R405). -/
def State.tieAllowed (s : State) (f : Flit) : Bool :=
  let c := fieldNat f.payload 0 16
  let t := fieldNat f.payload 32 32
  let x := s.ctx c
  decide (c < 4096) && decide (1024 ≤ t) && x.ownsTie t && (x.state == .loaded || x.state == .run) &&
  (match x.img with
   | some g => g.job.contains f.src.toNat
   | none => false)

/-- TIE_FLIT (R328, R405). -/
def execTieFlit (l : Fin 6) (f : Flit) (s : State) : Result :=
  routedRow l f tTie (fun s =>
    if s.tieAllowed f then s.tieAdd (fieldNat f.payload 32 32) (f.payload.extractLsb' 64 32)
    else (s.modLink l fun x => { x with refused := satInc x.refused }).refusedEvent l) s

/-- MAIL (R406): the message enters the channel bound to its sender; any other sender is FOREIGN and is told 0x0012. -/
def execMail (l : Fin 6) (f : Flit) (s : State) : Result :=
  routedRow l f tMail (fun s =>
    let refuse := fun (s : State) =>
      s.sendRouted (mkFlit tMack s.self f.src.toNat 0#32 (natToBytes 1 (fieldNat f.payload 0 8) ++ [0#8] ++ natToBytes 2 0x12))
    if h : fieldNat f.payload 0 8 < 64 then
      let ch : Fin 64 := ⟨fieldNat f.payload 0 8, h⟩
      if (s.binding ch.val).1 = 0x10 + f.src.toNat then
        (s.modChan ch fun m => { m with msg := f.payload.extractLsb' 32 512, st := 1 }).ringNotice ch.val (s.binding ch.val).2
      else refuse (s.modChan ch fun m => { m with foreign := true })
    else refuse s) s

/-- MACK (R406): the acknowledge sets MB_ACK and the channel is ACKED; the sender is notified. -/
def execMack (l : Fin 6) (f : Flit) (s : State) : Result :=
  routedRow l f tMack (fun s =>
    if h : fieldNat f.payload 0 8 < 64 then
      let ch : Fin 64 := ⟨fieldNat f.payload 0 8, h⟩
      if (s.binding ch.val).2 = 0x10 + f.src.toNat ∧ (s.chan ch).st = 1 then
        (s.modChan ch fun m => { m with ack := f.payload.extractLsb' 16 16, st := 2 }).notifyMaster ch.val (s.binding ch.val).1
      else s
    else s) s

/-! ### Time (R407 to R409, R476) -/

/-- The time link of this chip: the next hop toward chip 0. -/
def State.timeLink (s : State) : Option (Fin 6) := if s.self = 0 then none else s.route 0

/-- Q32 time of a 12-byte stamp on the wire, which carries no fraction (R26). -/
def wireQ (t : BitVec 96) : Int := ((fieldNat t 32 48 : Int) * 1000000000 + fieldNat t 0 32) * 4294967296

/-- The 12 bytes of a stamp on the wire. -/
def wireStamp (t : Stamp) : List Byte := natToBytes 12 (timeWord t.sec t.ns).toNat

/-- The beacon servo (R476), for an offset in Q32 nanoseconds. -/
def TimeUnit.servo (t : TimeUnit) (o : Int) : TimeUnit :=
  if o ≥ 1024 * 4294967296 ∨ o ≤ -(1024 * 4294967296) then
    let ns := Int.tdiv (-o) 4294967296
    { t with pending := some (Int.tdiv ns 1000000000, Int.tmod ns 1000000000 * 4294967296), integ := 0 }
  else
    let i := t.integ + o
    let v := (t.incP : Int) - o / 25600 - i / 1638400
    let c := clampInt 0x27F5C28F6 0x280A3D70A v
    { t with integ := i, inc := c.toNat, incClamp := t.incClamp || c != v }

/-- TIME_LOCK as FAB_STATUS reads it (R412). -/
def State.timeLocked (s : State) : Bool := s.self == 0 || s.fabric.timeLock

/-- BEACON (R407 to R409, R476): a beacon from the time parent steers the time unit and counts toward TIME_LOCK. -/
def execBeacon (l : Fin 6) (f : Flit) (phase : Nat) (s : State) : Result :=
  linkRow l f tBeacon (fun s =>
    if s.timeLink ≠ some l then s
    else
      let rx : Int := s.stampQ phase
      let o := rx - wireQ (f.payload.extractLsb' 0 96) - (s.link l).delay.toNat * 16777216
      let good := decide (-4294967296 ≤ o ∧ o ≤ 4294967296)
      let n := if good then min 16 (s.fabric.beaconsGood + 1) else 0
      let lock := s.fabric.timeLock || (n == 16 && fieldNat f.payload 104 8 == 1)
      let locks := lock && !s.fabric.timeLock
      let s := { s with fabric := { s.fabric with
        beaconsGood := n
        timeLock := lock } }
      let s := if s.tu.follow then { s with tu := s.tu.servo o } else s
      if locks then s.event .timeLock [] else s) s

/-- DELAY_REQ (R408): answered with the times of arrival and departure. -/
def execDelayReq (l : Fin 6) (f : Flit) (phase : Nat) (s : State) : Result :=
  linkRow l f tDelayReq (fun s =>
    s.sendFlit l (mkFlit tDelayResp s.self f.src.toNat 0#32 (natToBytes 12 (fieldNat f.payload 0 96) ++
      wireStamp (s.stamp phase)))) s

/-- DELAY_RESP (R408): the one-way delay of the time link, in units of 2^-8 ns. -/
def execDelayResp (l : Fin 6) (f : Flit) (phase : Nat) (s : State) : Result :=
  linkRow l f tDelayResp (fun s =>
    match s.fabric.t1 with
    | none => s
    | some t1 =>
      if s.timeLink ≠ some l ∨ f.payload.extractLsb' 0 96 ≠ timeWord t1.sec t1.ns then s
      else
        let t4 : Int := s.stampQ phase
        let d := ((t4 - t1.q) - (wireQ (f.payload.extractLsb' 192 96) - wireQ (f.payload.extractLsb' 96 96))) / 2
        let s := s.modLink l fun x => { x with delay := BitVec.ofInt 32 (d / 16777216) }
        { s with fabric := { s.fabric with t1 := none } }) s

/-- BEACON_SEND (R407): every 8 µs, on each ACTIVE link; TXTIME is taken as the flit leaves. -/
def execBeaconSend (s : State) : Result :=
  let b := natToBytes 12 0 ++ natToBytes 1 (hopCount s.fabric.topo s.fabric.nm1 8 s.self) ++ natToBytes 1 (boolNat s.timeLocked)
  .next (s.usedLinks.foldl (fun s l => match s.peerOf l.val with
    | some x => s.sendFlit l (mkFlit tBeacon s.self x.1 0#32 b)
    | none => s) s)

/-- DELAY_MEASURE (R408): every 1 ms, on the time link; T1 is taken as the request leaves. -/
def execDelayMeasure (s : State) : Result :=
  match s.timeLink with
  | none => .next s
  | some l =>
    match s.peerOf l.val with
    | some x => .next (s.sendFlit l (mkFlit tDelayReq s.self x.1 0#32 []))
    | none => .next s

/-- TIME_HOLDOVER (R409): 100 µs without a beacon from the time parent. -/
def execTimeHoldover (s : State) : Result :=
  let s' := { s with fabric := { s.fabric with beaconsGood := 0, timeLock := false } }
  if s.fabric.timeLock then .next (s'.event .timeHoldover []) else .next s'

/-! ### Notices (R462 to R465) -/

/-- The lowest-numbered chip that is in service and not lost, other than `p` (R462). -/
def State.nextManager (s : State) (p : Nat) : Option Nat :=
  s.chips.find? fun c => c != p && !s.fabric.down.getLsbD c && !s.fabric.lost.getLsbD c && (c != s.self || s.inService)

/-- This chip takes the role of the manager (R462). -/
def State.becomeManager (s : State) : State :=
  let s := { s with fabric := { s.fabric with epoch := (s.fabric.epoch + 1) % 65536, manager := s.self, managerEpoch := some ((s.fabric.epoch + 1) % 65536) } }
  s.notice 0x20 s.self 0 s.chips

/-- A notice of a kind: accepted when its EPOCH is at least the highest seen (R462). `act` gets SUBJECT. -/
def noticeRow (l : Fin 6) (f : Flit) (kind : Nat) (act : Nat → State → State) (s : State) : Result :=
  if fieldNat f.payload 0 8 ≠ kind then .next s
  else routedRow l f tFabric (fun s =>
    let e := fieldNat f.payload 16 16
    if e < s.fabric.epoch then s
    else act (fieldNat f.payload 8 3) { s with fabric := { s.fabric with epoch := e } }) s

/-- When the manager itself is out, the next chip takes its role (R462, R464). -/
def State.succeed (s : State) (p : Nat) : State :=
  if s.fabric.manager = p ∧ s.nextManager p = some s.self then s.becomeManager else s

/-- HEARTBEAT (R463): the link layer and the epoch; what it prevents is HEARTBEAT_MISSING. -/
def execHeartbeat (l : Fin 6) (f : Flit) (s : State) : Result := noticeRow l f 0x01 (fun _ s => s) s

/-- HEARTBEAT_SEND (R463): every 1 ms, Hoop to the manager, also while the compute domain is in reset. -/
def execHeartbeatSend (s : State) : Result :=
  if s.hoopRuns && s.fabric.en && s.fabric.manager != s.self then .next (s.notice 0x01 s.self 0 [s.fabric.manager]) else .next s

/-- HEARTBEAT_MISSING (R464): no heartbeat from a chip for 4 ms. -/
def execHeartbeatMissing (chip : Fin 8) (s : State) : Result :=
  if s.isManager && s.chips.contains chip.val && chip.val != s.self then .next (s.declareLost chip.val) else .next s

/-- RESET_ENTER (R463, R464): the manager sends PEER_DOWN. -/
def execResetEnter (l : Fin 6) (f : Flit) (s : State) : Result :=
  noticeRow l f 0x02 (fun p s =>
    let s := s.succeed p
    if s.isManager && p != s.self then
      (s.notice 0x10 p (fieldNat f.payload 64 32) s.chips).peerGone p
    else s) s

/-- RESET_RETURN (R463, R464): the manager sends PEER_UP. -/
def execResetReturn (l : Fin 6) (f : Flit) (s : State) : Result :=
  noticeRow l f 0x03 (fun p s =>
    if s.isManager && p != s.self then (s.notice 0x11 p 0 s.chips).peerBack p else s) s

/-- OUT_OF_SERVICE (R463, R464): the manager sends PEER_LOST. -/
def execOutOfService (l : Fin 6) (f : Flit) (s : State) : Result :=
  noticeRow l f 0x04 (fun p s =>
    let s := s.succeed p
    if s.isManager && p != s.self then s.declareLost p else s) s

/-- PEER_DOWN (R465). -/
def execPeerDown (l : Fin 6) (f : Flit) (s : State) : Result :=
  noticeRow l f 0x10 (fun p s => if p = s.self then s else s.peerGone p) s

/-- PEER_UP (R464, R465). -/
def execPeerUp (l : Fin 6) (f : Flit) (s : State) : Result := noticeRow l f 0x11 (fun p s => s.peerBack p) s

/-- PEER_LOST (R464, R465). -/
def execPeerLost (l : Fin 6) (f : Flit) (s : State) : Result :=
  noticeRow l f 0x12 (fun p s => if p = s.self then s else s.peerLose p) s

/-- MANAGER (R462): its sender is the manager; of two MANAGER notices with equal EPOCH the lower chip ID is. -/
def execManager (l : Fin 6) (f : Flit) (s : State) : Result :=
  noticeRow l f 0x20 (fun _ s =>
    let e := fieldNat f.payload 16 16
    let m := if s.fabric.managerEpoch = some e then min s.fabric.manager f.src.toNat else f.src.toNat
    { s with fabric := { s.fabric with manager := m, managerEpoch := some e } }) s

end Sys2Proof.Machine
end

