-- ==== Sys2Proof/Machine/Recovery.lean ====
section
/-! DEFINITION. Return to service after a compute-domain reset (R428, R455 to R457, R462 to R466). -/

namespace Sys2Proof.Machine

/-- Counted resets within RESET_WINDOW_S of now, for a table value (R458, R460). -/
def State.resetsInWindow (s : State) : Nat :=
  let w := match s.hoop.table2 with
    | some t => if fieldNat t 16 16 = 0 then 60 else fieldNat t 16 16
    | none => 60
  (s.hoop.resets.filter fun t => s.evr.hours.toNat - t < w).length

/-- The FSR of a compute-domain reset (R466, R467). -/
def State.resetFsr (s : State) : State :=
  s.fsr 4 [(16, .uint s.hoop.rstCause.toNat), (17, .uint s.hoop.rstInWindow)]

/-- Every context begins its next frame where one may begin (R331, R457). -/
def State.nextFrames (s : State) : State := (s.ctxs.map (·.1)).foldl (fun s c => s.nextFrame c) s

/-- Return to service (R455): RST_RETURN, the event and the record, ERR_OUT_N, the notice, the replies of abandoned
frames, and the frames that may begin. A chip below the manager takes its role (R462, log 87). -/
def State.returnToService (s : State) : State :=
  let s := { s with hoop := { s.hoop with
    inReset := false
    recovering := false
    rstReturn := BitVec.ofNat 32 s.hoop.returnUs } }
  let s := ((s.event .ret (words [s.hoop.returnUs])).resetFsr).releaseErr
  let s := if s.fabric.en then s.notice 0x03 s.self s.hoop.rstCause.toNat [s.fabric.manager] else s
  let s := if s.fabric.en ∧ s.self < s.fabric.manager then s.becomeManager else s
  let s := s.hoop.abandoned.foldl (fun s x => State.writeWaiting x.1 64 (s.queueReply x.1 { x.2 with time := s.nowWord })) s
  let s := { s with hoop := { s.hoop with abandoned := [] } }
  s.nextFrames

/-- Return to service once every recovery prelude is done; after an exit from Doze the frames that a prelude held back begin
(R457, R498). -/
def State.checkReturn (s : State) : State :=
  if !s.hoop.inReset then s.nextFrames
  else if s.hoop.recovering && s.ctxs.all (fun x => x.2.prelude == 0) then s.returnToService else s

end Sys2Proof.Machine
end

