-- ==== Sys2Proof/Machine/Dispatcher.lean ====
section
/-! DEFINITION. The dispatcher: placement (R330, R334 to R337), the start and the end of a command (R107, R150, R315), the
delivery of an abort (R151, R321, R373), and replays (R401, R437 to R440, R452). -/

namespace Sys2Proof.Machine

/-! ### Eligibility (R334, R335) -/

/-- Is a unit's tally test due: TALLY_PENDING, and the test has not started in this interval (R349). -/
def State.tallyDue (s : State) (u : UnitId) : Bool :=
  let x := s.unit u
  s.enabled u && (unitClass u).isSome && x.regs.tallyPending && !x.tallyRunning && !x.tallyOld && !x.regs.quarantine &&
  x.fence == .open_

/-- Is a unit free for a command. -/
def State.unitFree (s : State) (u : UnitId) : Bool := (s.unit u).run.isNone && !s.tallyDue u

/-- The members of a slice group that run, ascending (R338). -/
def State.members (s : State) (g : Nat) : List Nat :=
  (s.ctxs.map (·.1)).filter fun c => (s.ctx c).cls == 1 && (s.ctx c).sgroup == g && (s.ctx c).state == .run

/-- The slice of a group. A holder that leaves RUN keeps it to its end (R338). -/
def State.sliceOf (s : State) (g : Nat) : Option Slice := if h : g < 16 then s.disp.slices[g] else none

/-- A group without a slice gives its first one to its lowest member that runs (log 91). -/
def State.firstSlices (s : State) : State :=
  let first := fun (g : Nat) => (s.members g).head?.map fun c => ({ holder := c, expired := false, next := none } : Slice)
  let slices := s.disp.slices.mapFinIdx fun g x _ => x.orElse fun _ => first g
  { s with disp := { s.disp with slices := slices } }

/-- Does a core meet CORE_MASK, the affinity rule and the slice (R334, R335). -/
def State.coreOk (s : State) (n : Fin 16) (x : Ctx) (c : Nat) (h : Header) : Bool :=
  let logical := match x.run with
    | some f => f.logical
    | none => []
  let aff := hdrAffinity h
  x.coreMask.getLsbD n.val &&
  (if aff = 0xFF then (logical.take x.ncore).contains n.val else logical[aff]? == some n.val) &&
  (if x.cls = 1 then
    (match s.sliceOf x.sgroup with
     | some g => g.holder == c && !g.expired
     | none => false)
   else true)

/-- Is a mover bound to a Skep instance, which the slot table reserves it for (R270, log 89). -/
def State.moverBound (s : State) (u : UnitId) : Bool :=
  match u with
  | .mv m => s.skeps.toList.any fun y => y.descs.any fun d => !d.closed && repMv d.desc == m.val
  | _ => false

/-- Is a unit eligible for a command of a context, in class `cls` (R334). -/
def State.eligible (s : State) (u : UnitId) (cls : Nat) (h : Header) : Bool :=
  let r := (s.unit u).regs
  s.enabled u && !s.moverBound u && unitClass u == some (hdrClass h) && !r.quarantine && (s.unit u).fence == .open_ &&
  (cls == 1 || !r.unverified)

/-- Is a unit eligible for a graph's command of context `c`. -/
def State.eligibleFor (s : State) (u : UnitId) (c : Nat) (h : Header) : Bool :=
  let x := s.ctx c
  s.eligible u x.cls h && (match u with
    | .tc n => s.coreOk n x c h
    | _ => true)

/-! ### Placement -/

/-- A command on its unit at placement. -/
def mkPlaced (c frame : Nat) (o : Origin) (cmd : Cmd) : Placed :=
  { ctx := c, frame := frame, origin := o, hdr := cmd.hdr, prog := cmd.prog, stage := .placed, windows := [], fin := none,
    slowed := false, begun := false, posted := false, recvDone := false, sendBegun := false, sendDone := false, ups := [] }

/-- Declared ACLK cycles of a unit's tally test (R444); for Riddle those of its pipeline work. -/
def tallyCycles : UnitId → Nat
  | .tc _ => 4096
  | .twn _ => 12288
  | .coil _ => 24576
  | .wal _ => 20480
  | .plt _ => 16384
  | .mv _ => 8192
  | .rid _ => 4096
  | .skp _ => 49152

/-- The command of a unit's tally test: its contents lie in Protil (R205, R234, R322, R444). -/
def tallyCmd (u : UnitId) : Cmd :=
  { hdr := BitVec.ofNat 1024 (1 + (unitClass u).getD 0 * 2 ^ 8 + 2 ^ 16 + tallyCycles u * 2 ^ 64), prog := [] }

/-- Put a command on a unit. -/
def State.putOn (s : State) (u : UnitId) (p : Placed) : State := s.modUnit u fun x => { x with run := some p }

/-- The head of queue `q` of the current frame, with its position. -/
def Ctx.head (x : Ctx) (f : FrameRun) (q : Nat) : Option (Nat × Cmd) :=
  let pos := (if f.fallback then f.fbHeads else f.heads).getD q 0
  (x.cmdAt f.fallback q pos).map fun c => (pos, c)

/-- Number of queues of the graph on the frame's path. -/
def Ctx.queueCount (x : Ctx) (f : FrameRun) : Nat :=
  match x.img with
  | none => 0
  | some g => if f.fallback then (match g.fallback with | some fb => fb.queues.length | none => 0) else g.queues.length

/-- A head that may be placed: context, queue, position, command. -/
structure HeadRef where
  ctx : Nat
  q : Nat
  pos : Nat
  cmd : Cmd
deriving DecidableEq, Repr

/-- The ready heads of a context (R330), by queue; none while its frame is being aborted. -/
def State.readyHeads (s : State) (c : Nat) : List HeadRef :=
  let x := s.ctx c
  match x.run with
  | none => []
  | some f =>
    if x.state != .run || f.aborted || x.aborting then []
    else (List.range (x.queueCount f)).filterMap fun q => match x.head f q with
      | some h => if s.ready h.2.hdr x.frame.toNat then some ⟨c, q, h.1, h.2⟩ else none
      | none => none

/-- The frames whose first command is released by now: the waits of one of its heads are met (R103, R330, R371). -/
def State.noteReleases (s : State) : State :=
  (s.ctxs.map (·.1)).foldl (fun s c =>
    if (s.ctx c).run.any (·.released.isNone) && !(s.readyHeads c).isEmpty then
      s.modFrame c fun f => { f with released := some s.tu.ticks }
    else s) s

/-- Insert a context by PRIO, after equals. -/
def insertPrio (s : State) (c : Nat) : List Nat → List Nat
  | [] => [c]
  | d :: ds => if (s.ctx c).prio < (s.ctx d).prio then c :: d :: ds else d :: insertPrio s c ds

/-- The contexts of a class in placement order: PRIO, then context number (R336). -/
def State.placeOrder (s : State) (cls : Nat) : List Nat :=
  ((s.ctxs.map (·.1)).filter fun c => (s.ctx c).cls == cls).foldl (fun l c => insertPrio s c l) []

/-- The first ready head that a unit may take, latency-critical contexts first (R336). -/
def State.headFor (s : State) (u : UnitId) : Option HeadRef :=
  ((s.placeOrder 0 ++ s.placeOrder 1).flatMap s.readyHeads).find? fun h => s.eligibleFor u h.ctx h.cmd.hdr

/-- Place a head: it leaves its queue (R330). -/
def State.placeHead (s : State) (u : UnitId) (h : HeadRef) : State :=
  let x := s.ctx h.ctx
  match x.run with
  | none => s
  | some f =>
    let bump := fun l : List Nat => l.set h.q (h.pos + 1)
    let s := s.setCtx h.ctx { x with run := some { f with
      heads := if f.fallback then f.heads else bump f.heads
      fbHeads := if f.fallback then bump f.fbHeads else f.fbHeads
      firstPlaced := true
      released := some (f.released.getD s.tu.ticks) } }
    s.putOn u (mkPlaced h.ctx x.frame.toNat (.queue f.fallback h.q h.pos) h.cmd)

/-! ### Replays -/

/-- The units on which a replay's next command may run, were they free (R401, R438, R440, R452, R443). -/
def State.replayUnits (s : State) (r : Replay) (h : Header) : List UnitId :=
  let can := allUnits.filter fun u => s.eligibleFor u r.ctx h
  if r.status = .cycleFault ∧ !r.counts then can.filter (· == r.struck)
  else if r.status = .tagFault ∨ r.status = .fenced ∨ r.status = .linkDigest ∨ r.status = .done then can
  else if hdrClass h = 0 ∧ hdrAffinity h ≠ 0xFF then can
  else
    let others := can.filter (· != r.struck)
    if others.isEmpty then can else others

/-- Does the fence that a replayed command met still stand (R452). -/
def State.fenceStands (s : State) (r : Replay) : Bool := r.waitFence.any fun n => (s.unit (.tc n)).fence != .open_

/-- The unit on which a waiting replay is placed now: the lowest-numbered free one. -/
def State.replayUnit (s : State) (r : Replay) : Option UnitId :=
  let x := s.ctx r.ctx
  match r.steps with
  | [] => none
  | c :: _ =>
    if r.placed || x.aborting || (match x.run with
         | some f => f.aborted || (f.switched && !r.fallback)
         | none => r.status != .done) ||
       s.fenceStands r then none
    else (s.replayUnits r c.hdr).find? s.unitFree

/-- Place the next command of a replay. The commands of a refetch, and the repeat of a send half, add no ties. -/
def State.placeReplay (s : State) (r : Replay) (u : UnitId) : State :=
  match r.steps with
  | [] => s
  | c :: rest =>
    let p := mkPlaced r.ctx r.frame (.replay r.struck (!rest.isEmpty || r.status == .done)) c
    let rotate := match u with
      | .plt _ => bytesNat c.hdr 12 1 == 4
      | _ => false
    let p := if rotate && r.status == .done then { p with posted := true, recvDone := true }
      else if rotate && r.status == .linkDigest then { p with sendBegun := r.sent, sendDone := r.sent } else p
    let s := { s with disp := { s.disp with replays := s.disp.replays.map fun y =>
      if y = r then { y with placed := true } else y } }
    s.putOn u p

/-- REPLAY (R401, R437 to R440, R452): the first waiting replay that a unit may take is placed. -/
def execReplay (s : State) : Result :=
  if !s.computeUp then .next s
  else match s.disp.replays.find? fun r => (s.replayUnit r).isSome with
  | none => .next s
  | some r => match s.replayUnit r with
    | some u => .next (s.placeReplay r u)
    | none => .next s

/-! ### Recovery preludes (R457) -/

/-- The next prelude command that a unit may take. -/
def State.preludeFor (s : State) (u : UnitId) : Option (Nat × Nat × Cmd) :=
  (s.ctxs.map (·.1)).findSome? fun c =>
    let x := s.ctx c
    let running := s.units.toList.any fun v => match v.run with
      | some p => p.ctx == c && (match p.origin with | .prelude _ => true | _ => false)
      | none => false
    match x.img with
    | none => none
    | some g =>
      if x.prelude = 0 ∨ running then none
      else match g.prelude[g.prelude.length - x.prelude]? with
        | none => none
        | some cmd =>
          if s.ready cmd.hdr x.frame.toNat && s.eligible u 0 cmd.hdr then some (c, x.prelude, cmd) else none

/-- COMMAND_PLACE (R330, R334 to R336): a free unit takes its tally test, else a replay, else the first ready head of a
latency-critical context, else of a best-effort one. -/
def execCommandPlace (u : UnitId) (s : State) : Result :=
  if !s.computeUp || (s.unit u).run.isSome then .next s
  else if s.tallyDue u then .next (s.putOn u (mkPlaced 0 0 .tally (tallyCmd u)))
  else
    match s.disp.replays.find? fun r => s.replayUnit r == some u with
    | some r => .next (s.placeReplay r u)
    | none => match s.preludeFor u with
      | some x => .next (s.putOn u (mkPlaced x.1 (s.ctx x.1).frame.toNat (.prelude x.2.1) x.2.2))
      | none => match s.headFor u with
        | some h => .next (s.placeHead u h)
        | none => .next s

/-! ### Checks and start -/

/-- A command ends before cycle 0 (R107, R206). -/
def State.endUnstarted (s : State) (u : UnitId) (st : Status) : State :=
  s.endCommand u { status := st, used := 0, det := 0, sticky := 0#32, ties := [], bounded := false }

/-- HEADER_CHECK_END (R107, R206, R337): 24 FCLK cycles after placement. -/
def execHeaderCheckEnd (u : UnitId) (s : State) : Result :=
  match (s.unit u).run with
  | none => .next s
  | some p =>
    if p.stage ≠ .placed then .next s
    else
      let next := s.modRun u fun q => { q with stage := if hdrClass q.hdr = 0 then .checked else .ready }
      if p.origin = .tally then .next next
      else match headerCheck s u p with
        | some st => .next (s.endUnstarted u st).checkReturn
        | none => .next next

/-- PROGRAM_COPY_END (R107 check 5, R337). -/
def execProgramCopyEnd (tc : Fin 16) (s : State) : Result :=
  match (s.unit (.tc tc)).run with
  | none => .next s
  | some p =>
    if p.stage ≠ .checked then .next s
    else if p.origin = .tally ∨ crc32c (progBytes p.prog) = bytesNat p.hdr 88 4 then
      .next (s.modRun (.tc tc) fun q => { q with stage := .ready })
    else .next (s.endUnstarted (.tc tc) .tagFault).checkReturn

/-- A core's run at cycle 0, with the count check at DECL_CYCLES standing (R108, R150). -/
def startRun (decl : Nat) : CoreRun := CoreRun.init.fault decl .cycleFault .none stCycle

/-- COMMAND_START (R108, R297, R307, R315): cycle 0. A mover and a link half note whether the clocks are slowed (R491). -/
def execCommandStart (u : UnitId) (s : State) : Result :=
  match (s.unit u).run with
  | none => .next s
  | some p =>
    if p.stage ≠ .ready then .next s
    else
      let s := s.modRun u fun q => { q with
        stage := .running
        windows := (s.ctx q.ctx).windows.toList
        slowed := s.slowed }
      let s := s.modUnit u fun x => { x with
        regs := startRegs p.ctx p.hdr x.regs
        tallyRunning := x.tallyRunning || p.origin == .tally }
      match u with
      | .tc n =>
        if p.origin = .tally then .next s
        else .next ({ s with freeCtr := s.freeCtr + 1 }.setCore n { s.core n with run := startRun (hdrDecl p.hdr) })
      | _ => .next s

/-! ### Ends -/

/-- CYCLE_MISMATCH of ENG_STATUS, PLT_STATUS and MV_STATUS (R204, R233, R323). -/
def stickyCycle : Word := 0x80#32

/-- Is a command a bounded mover command (R309, R316), whose late end is no unit fault. -/
def State.boundedMove (s : State) (u : UnitId) (p : Placed) : Bool :=
  s.openSend u p || (match u with
    | .mv _ => bytesNat p.hdr 12 1 == 1 && (match p.fin with
      | some e => e.bound.isSome
      | none => s.copyBounded p.windows (copyHdr p.hdr))
    | _ => false)

/-- The bound of a bounded count (R316, R402, R491). -/
def boundOf (p : Placed) (b : Nat) : Nat := if p.slowed then 2 * b else b

/-- Write what a fault recorded into the unit's registers (R204, R233, R323): PLT_FAULT_ADDR takes tag and window faults only. -/
def State.faultRegs (s : State) (u : UnitId) (e : RunEnd) : State :=
  match e.faultAddr with
  | none => s
  | some a => s.modRegs u fun r => match u with
    | .mv _ => { r with faultAddr := a, stat := e.stat, ahi := e.ahi }
    | .plt _ => if e.status = .tagFault ∨ e.status = .windowFault then { r with faultAddr := a } else r
    | _ => { r with faultAddr := a }

/-- The last cycle that a command's count lets it reach: a fault detected behind it comes too late (R150, R316). -/
def RunEnd.limit (e : RunEnd) (p : Placed) : Nat := match e.bound with
  | some b => boundOf p b
  | none => hdrDecl p.hdr

/-- The end of a command without fault by its unit, after its count check (R150, R185, R316): `ok` is the status of a good end.
None while the count has passed its limit. -/
def State.countEnd (s : State) (u : UnitId) (p : Placed) (e : RunEnd) (ok : Status) : Option State :=
  let decl := hdrDecl p.hdr
  let good := fun (_ : Unit) =>
    ((s.noteSent u p).appendLen u p).endCommand u { status := ok, used := e.used, det := 0, sticky := e.sticky, ties := [], bounded := false }
  match e.bound with
  | some b => if e.used ≤ boundOf p b then some (good ()) else none
  | none =>
    if e.used = decl then some (good ())
    else if e.used < decl then
      some (s.endCommand u { status := .cycleFault, used := e.used, det := e.used - 1, sticky := stickyCycle, ties := [],
                             bounded := false })
    else none

/-- The end of a command on a fault of its own. -/
def State.faultEndOf (s : State) (u : UnitId) (e : RunEnd) : State :=
  (s.faultRegs u e).endCommand u { status := e.status, used := e.used, det := e.det, sticky := e.sticky, ties := [],
                                   bounded := false, located := e.faultAddr.isSome }

/-- COMMAND_END (R83, R104, R112, R150, R202, R207, R316). -/
def execCommandEnd (u : UnitId) (s : State) : Result :=
  let s := match u with
    | .mv m => (s.meetCores m).tryHalf u
    | _ => s
  let waits := match u with
    | .mv m => (List.finRange 16).any fun n => (s.core n).run.visits.any (·.mover == m)
    | _ => false
  match (s.unit u).run with
  | none => .next s
  | some p =>
    if p.stage ≠ .running ∨ p.origin = .tally ∨ waits = true then .next s
    else match u with
    | .tc n =>
      let r := (s.core n).run
      if r.ended then .next (coreEnd n (hdrDecl p.hdr) none (s, r)).checkReturn else .next s
    | _ => match p.fin with
      | none => .next s
      | some e =>
        if e.status ≠ .done then (if e.det ≤ e.limit p then .next (s.faultEndOf u e).checkReturn else .next s)
        else match s.countEnd u p e .done with
          | some s => .next s.checkReturn
          | none => .next s

/-- DECL_CYCLES_EXPIRY (R150, R316, R402): the count reaches its limit and the end has not come. -/
def execDeclCyclesExpiry (u : UnitId) (s : State) : Result :=
  match (s.unit u).run with
  | none => .next s
  | some p =>
    let decl := hdrDecl p.hdr
    if p.stage ≠ .running ∨ p.origin = .tally then .next s
    else match u with
    | .tc n =>
      let r := (s.core n).run
      let stop := fun (_ : Unit) => .next (coreStop n (coreRunTo n (decl + 1) (s, r))).checkReturn
      if r.ended then (if endCycle r ≥ decl then stop () else .next s)
      else match p.prog[r.pc]? with
        | some w => (match issueCycle r w with
          | some t => if t = decl then .next (issueNext n w s).checkReturn else if t > decl then stop () else .next s
          | none => stop ())
        | none => stop ()
    | _ =>
      let stop := fun (lim : Nat) =>
        (((match u with
          | .mv m => s.setCopy m CopyRun.init
          | _ => s).clearHalf u).cutWrites u (some lim)).endCommand u
          { status := .cycleFault, used := lim + 1, det := lim, sticky := stickyCycle, ties := [], bounded := s.boundedMove u p }
      match p.fin with
      | some e =>
        let lim := e.limit p
        if (if e.status = .done then e.used else e.det) > lim then .next (stop lim).checkReturn else .next s
      | none =>
        let half := s.halfCounts u p && (p.slowed || s.openSend u p || halfCount u p.hdr + extraOf p.ups > decl)
        let waits := half || (match u with
          | .mv m => s.copies[m].waiting || s.copies[m].stalled
          | _ => false)
        let exact := match u with
          | .mv _ => bytesNat p.hdr 12 1 == 1 && !s.boundedMove u p
          | _ => false
        if waits then .next (stop (if exact then decl else boundOf p decl)).checkReturn else .next s

/-! ### Aborts -/

/-- Is the current frame of a context being aborted (R359, R373). -/
def Ctx.frameAborts (x : Ctx) : Bool := x.aborting || x.hushed || x.run.any (·.aborted)

/-- The aborts of frames reach the slots of a Skep instance (R289). -/
def State.abortSkep (s : State) (u : UnitId) : State :=
  match u with
  | .skp i => (s.ctxs.map (·.1)).foldl (fun s c => if (s.ctx c).frameAborts then s.abortSlots i c else s) s
  | _ => s

/-- ACLK cycles after which a command that ends after `used` has nothing more to write: a COPY ends 4 FCLK cycles
after its last write, and an abort compares with that write (R317, R321). -/
def lastWrite (u : UnitId) (p : Placed) (used : Nat) : Nat :=
  match u with
  | .mv _ => if bytesNat p.hdr 12 1 = 1 then used - 8 else used
  | _ => used

/-- ABORT_DELIVERY (R151, R203, R207, R289, R321, R373): the abort reaches a command of the frame in ACLK cycle `cycle` of its
count. An end in or before that cycle wins; otherwise the unit stops. Where R150 applies to that end too, its CYCLE_FAULT wins,
and a fault detected in the abort's own cycle wins over ABORTED (DESIGN CHOICE, log 99). Any ACLK cycle may be the one that
ends on the abort's CCLK edge: the rules do not say how cycle 0 lies to those edges (DESIGN CHOICE, log 113). An abort of a
core in a cycle that is already worked past does nothing. -/
def execAbortDelivery (u : UnitId) (cycle : Nat) (s : State) : Result :=
  match (s.unit u).run with
  | none => .next (s.abortSkep u)
  | some p =>
    let aborts := fromGraph p.origin && (s.ctx p.ctx).frameAborts
    let aborted := fun (s : State) (used : Nat) =>
      s.endCommand u { status := .aborted, used := used, det := 0, sticky := 0#32, ties := [], bounded := false }
    if !aborts then .next s
    else if p.stage ≠ .running then .next (aborted s 0)
    else match u with
    | .tc n =>
      let r := (s.core n).run
      let stop := fun (_ : Unit) =>
        let y := coreRunTo n (cycle + 1) (s, r)
        if (firstFault y.2).any (· ≤ cycle) then coreStop n y
        else
          let s := applyMarks y.1 n y.2 cycle
          aborted (s.freeCore n y.2 (cycle + 1)) (cycle + 1)
      if r.ended then
        (if endCycle r ≤ cycle then .next (coreEnd n (hdrDecl p.hdr) (some .doneAbortLate) (s, r))
         else if cycle + 1 < r.cycle then .next s
         else .next (stop ()))
      else
        let due := match p.prog[r.pc]? with
          | some w => (match issueCycle r w with
            | some t => decide (t ≤ cycle)
            | none => false)
          | none => false
        if due || decide (cycle + 1 < r.cycle) then .next s else .next (stop ())
    | _ =>
      let stop := fun (_ : Unit) =>
        aborted (((match u with
          | .mv m => s.setCopy m CopyRun.init
          | _ => s).clearHalf u).cutWrites u (some cycle)) (cycle + 1)
      match p.fin with
      | none => .next (stop ())
      | some e =>
        if e.status ≠ .done then (if e.det ≤ min cycle (e.limit p) then .next (s.faultEndOf u e) else .next (stop ()))
        else if lastWrite u p e.used ≤ cycle + 1 then
          match s.countEnd u p e .doneAbortLate with
          | some s => .next s
          | none => .next (stop ())
        else .next (stop ())

end Sys2Proof.Machine
end

