-- ==== Sys2Proof/Machine/Slices.lean ====
section
/-! DEFINITION. The end of a frame (R331), best-effort slices (R338 to R340), the deadline monitor and the stall monitor
(R333, R342, R346), and the diagnostic interval with its tests (R348 to R350, R444, R445). -/

namespace Sys2Proof.Machine

/-- FRAME_END (R331). -/
def execFrameEnd (ctx : Fin 4096) (s : State) : Result :=
  if (s.ctx ctx.val).replied || !s.computeUp then .next s
  else match s.frameOver ctx.val with
  | some aborted => .next (s.endFrame ctx.val aborted)
  | none => .next s

/-! ### Monitors -/

/-- Has the time passed a limit whose checkpoint is not reached (R342). -/
def State.limitPassed (s : State) (x : Ctx) (f : FrameRun) : Bool :=
  match x.img with
  | none => false
  | some g => g.checkpoints.any fun k => !f.reached.contains k.1 && decide (x.limit k.2 < (s.nowNs : Int))

/-- DEADLINE_LIMIT (R342, R343, R346): the frame switches; without a fall-back graph the miss is logged once. -/
def execDeadlineLimit (ctx : Fin 4096) (s : State) : Result :=
  let c := ctx.val
  let x := s.ctx c
  match x.run with
  | none => .next s
  | some f =>
    if !s.computeUp || !x.monitor || !f.originKnown || f.switched || f.aborted || x.aborting || !s.limitPassed x f then .next s
    else if x.fbId ≠ 0#32 then .next (s.switchFrame c x.ckptLast)
    else if f.missLogged then .next s
    else .next ((s.modFrame c fun f => { f with missLogged := true }).event .deadlineMiss (words [c, x.frame.toNat]))

/-- The ties that the heads of a frame's queues still wait on (R333). -/
def State.unmetTies (s : State) (x : Ctx) (f : FrameRun) : List Nat :=
  (List.range (x.queueCount f)).flatMap fun q => match x.head f q with
    | some h => (List.range 4).filterMap fun i =>
        let w := hdrWait h.2.hdr i
        if s.waitMet w x.frame.toNat then none else some (fieldNat w 0 17)
    | none => []

/-- INTAKE_STALL (R333): one event for a frame of which nothing has been placed within STALL_US. -/
def execIntakeStall (ctx : Fin 4096) (s : State) : Result :=
  let c := ctx.val
  let x := s.ctx c
  match x.run with
  | none => .next s
  | some f =>
    if s.computeUp = false ∨ x.stallUs = 0#32 ∨ f.firstPlaced ∨ f.stallLogged ∨ s.nowNs < f.begunNs + 1000 * x.stallUs.toNat then .next s
    else .next ((s.modFrame c fun f => { f with stallLogged := true }).event .intakeStall
      (words ([c, x.frame.toNat] ++ s.unmetTies x f)))

/-! ### Diagnostic intervals and tests -/

/-- DIAGNOSTIC_INTERVAL_START (R348): DIAG_US after the previous interval began. -/
def execDiagnosticIntervalStart (s : State) : Result := if s.computeUp then .next s.beginInterval else .next s

/-- A tally test fails (R445), on a fault detected in cycle `det` of its command, if it is one: quarantine, TALLY_FAIL, event,
records. -/
def State.tallyFail (s : State) (u : UnitId) (st : Status) (p : Option CmdRef) (det : Nat) : State :=
  let kvs := s.fsrCommand u st p det []
  let s := (s.quarantine u st kvs).hoopErr 9
  (s.event .tallyFail (words [unitCode u, st.code])).fsr 3 kvs

/-- The events that a unit's tally test adds to its counter (R204, R233): how many lies in the test and is free (log 100), but a
test that passes had a sample excluded (Twining), a point of each of the six drop categories (Coil), and a clamped and a
zeroed vector (Plait), as R234 and R205 list them. -/
def tallyStat (u : UnitId) (passed : Bool) (x : Line) (w : Word) : Word :=
  let n := fun (lo least : Nat) => (if passed then least else 0) + fieldNat x lo 14
  match u with
  | .twn _ => statAdd w (n 0 1)
  | .coil _ => statAdd w (n 0 6)
  | .wal _ => statAdd w (n 0 0)
  | .plt _ => qstatAdd w (n 0 1) (n 14 1)
  | _ => w

/-- The counter of a unit takes the events of its tally test. -/
def State.tallyCount (s : State) (u : UnitId) (passed : Bool) : State :=
  s.drawLine.2.modRegs u fun r => { r with stat := tallyStat u passed s.drawLine.1 r.stat }

/-- TALLY_TEST_COMPLETE (R349, R350, R445): the test of a unit ends. A test that started in an earlier interval clears
UNVERIFIED when it passes, and leaves the TALLY_PENDING of the new interval, whose own test of Riddle or Skep then begins. -/
def execTallyTestComplete (u : UnitId) (result : TallyResult) (s : State) : Result :=
  let passed := tallyPassed result
  let x := s.unit u
  let onUnit := match x.run with
    | some p => p.origin == .tally && p.stage == .running
    | none => false
  if s.domainHeld || !onUnit && !(testsInIdle u && (x.tallyRunning || x.tallyOld)) then .next s
  else
    let st := tallyStatus result
    let s := s.modUnit u fun y => { y with
      run := if onUnit then none else y.run
      tallyRunning := !onUnit && y.tallyOld && passed && y.regs.tallyPending && s.slotSeven u
      tallyOld := if onUnit then y.tallyOld else false
      regs := { (if onUnit then endRegs st (tallyCycles u) (tallyDet result) 0#32 y.regs else y.regs) with
        unverified := y.regs.unverified && !passed
        tallyPending := y.regs.tallyPending && !(passed && y.tallyRunning) } }
    let s := s.tallyCount u passed
    if passed then .next s else .next (s.tallyFail u st (if onUnit then x.run.map Placed.ref else none) (tallyDet result))

/-! ### Slices -/

/-- The slice length in FCLK cycles (R338). -/
def State.sliceLen (s : State) : Nat := s.disp.sliceUs * 1100

/-- Has a context a ready tensor-core command. -/
def State.readyTc (s : State) (c : Nat) : Bool := (s.readyHeads c).any fun h => hdrClass h.cmd.hdr == 0

/-- The members after `c`, ascending and wrapping. -/
def membersAfter (ms : List Nat) (c : Nat) : List Nat := ms.filter (c < ·) ++ ms.filter (· < c)

/-- A new slice is charged with what its holder owes (R338). -/
def State.chargeSlice (s : State) (c : Nat) : State :=
  s.modCtx c fun x => { x with owed := BitVec.ofNat 32 (if x.owed.toNat ≥ s.sliceLen then x.owed.toNat - s.sliceLen else 0) }

/-- The member that takes the next slice: one that owes a whole slice gives it up (R338). Fuel bounds the members met. -/
def nextHolder (g : Nat) (from_ : Nat) : Nat → State → State × Option Nat
  | 0, s => (s, none)
  | n + 1, s =>
    match (membersAfter (s.members g) from_).find? s.readyTc with
    | none => (s, none)
    | some c => if (s.ctx c).owed.toNat ≥ s.sliceLen then nextHolder g c n (s.chargeSlice c) else (s, some c)

/-- Members that can be met before one takes the slice: each gives up as many whole slices as it owes. -/
def State.sliceFuel (s : State) (g : Nat) : Nat :=
  (s.members g).foldl (fun n c => n + 1 + (s.ctx c).owed.toNat / max 1 s.sliceLen) 0

/-- Set the slice of a group. -/
def State.setSlice (s : State) (g : Fin 16) (x : Slice) : State :=
  { s with disp := { s.disp with slices := s.disp.slices.set g (some x) } }

/-- SLICE_BOUNDARY (R338, R339): the slice passes to the next member with a ready tensor-core command, and nothing more of the
holder is placed; without such a member the holder keeps the group for another slice. -/
def execSliceBoundary (group : Fin 16) (s : State) : Result :=
  match s.sliceOf group.val with
  | none => .next s
  | some g =>
    if g.expired || !s.computeUp then .next s
    else
      let y := nextHolder group.val g.holder (s.sliceFuel group.val) s
      let keep := (y.1.chargeSlice g.holder).setSlice group g
      match y.2 with
      | some c => .next (if c = g.holder then keep else y.1.setSlice group { g with expired := true, next := some c })
      | none => .next keep

/-- Does a core run a tensor-core command of a context. -/
def State.runsOnCore (s : State) (c : Nat) : Bool :=
  (List.finRange 16).any fun n => match (s.unit (.tc n)).run with
    | some p => p.ctx == c && p.origin != .tally
    | none => false

/-- The contents of a core's creel after a restore are undefined outside the live set (R340): free lines (log 16). -/
def State.freeCreel (s : State) (n : Nat) (live : List (Nat × Nat)) : State :=
  (List.range s.creelLines).foldl (fun s l =>
    if live.any (fun r => r.1 ≤ l && l < r.1 + r.2) then s
    else
      let x := s.drawLine
      x.2.putLine (creelKey n l) x.1) s

/-- The save-area line of creel line 0 of logical core `i` (R340). -/
def Ctx.saveLine (x : Ctx) (i : Nat) : Nat := x.saveBase.toNat / 256 + 49152 * i

/-- The numbering of the logical cores in force: that of the current frame, until it ends (R335). -/
def State.numbering (s : State) (x : Ctx) : List Nat :=
  match x.run with
  | some f => f.logical
  | none => s.logicalCores x

/-- The union of line ranges, each line once (R340). -/
def unionLines : List (Nat × Nat) → List Nat
  | [] => []
  | r :: rs => (List.range r.2).map (r.1 + ·) ++ (unionLines rs).filter fun l => l < r.1 || r.1 + r.2 ≤ l

/-- The line copies of a save or a restore of a live set (R340): source and destination. -/
def switchLines (x : Ctx) (n i : Nat) (ranges : List (Nat × Nat)) (save : Bool) : List (Nat × Nat) :=
  (unionLines ranges).map fun l =>
    let a := creelKey n l
    let b := x.saveLine i + l
    if save then (a, b) else (b, a)

/-- The registers of a unit that ran a command of a switch (R340): of context 0, 4 FCLK cycles a line; its INDEX is Protil's own
and free (log 92). -/
def State.switchRegs (s : State) (u : UnitId) (lines : Nat) (st : Status) (at_ : Nat) : State :=
  let h : Header := BitVec.ofNat 1024 ((unitClass u).getD 0 * 2 ^ 8 + (Config.freeCycle s.freeCtr).toNat % 2 ^ 16 * 2 ^ 32 +
    8 * lines * 2 ^ 64)
  let sticky := if st = .tagFault then 0x10#32 else if st = .windowFault then mvWindow else 0#32
  ({ s with freeCtr := s.freeCtr + 1 }).modRegs u fun r =>
    endRegs st (if st = Status.done then 8 * lines else 8 * at_ + 1) (8 * at_) sticky (startRegs 0 h r)

/-- Run the MOVE and the COPY of one save or restore, on core `n` and mover `m` (R340). A line that is not assigned, or whose tag
does not match, ends them there (R15, R18): a configuration fault of the context (R441), or, as no sequence of context 0 answers
it, a compute-domain reset (R440, R443). -/
def State.switchCopy (s : State) (c : Nat) (n : Fin 16) (m : Fin 8) (ls : List (Nat × Nat)) : State :=
  let bad := ls.findIdx? fun x => !s.lineAssigned x.1 || !s.lineAssigned x.2 || !s.tagOk x.1
  let k := bad.getD ls.length
  let done := (ls.take k).foldl (fun s x => s.putLine x.2 (s.line x.1)) s
  let st := match ls[k]? with
    | none => Status.done
    | some x => if s.lineAssigned x.1 && s.lineAssigned x.2 then Status.tagFault else .windowFault
  let s := (done.switchRegs (.tc n) ls.length .done k).switchRegs (.mv m) ls.length st k
  match ls[k]? with
  | none => s
  | some x =>
    let s := s.modRegs (.mv m) fun r => { r with
      faultAddr := (mvAddr (.device (if s.lineAssigned x.1 then (if s.tagOk x.1 then x.2 else x.1) else x.1))).1
      stat := BitVec.ofNat 32 k }
    if st = .tagFault then s.detectReset 3 (some st) (some (.mv m)) 0 else s.configFault c false

/-- Save the live set of a context on a core; an empty one needs no command (R340). -/
def State.saveCore (s : State) (m : Fin 8) (c : Nat) (n : Fin 16) : State :=
  let x := s.ctx c
  match x.live.find? (·.1 == n.val), (s.numbering x).idxOf? n.val with
  | some e, some i =>
    let ls := switchLines x n i e.2 true
    (if ls.isEmpty then s else s.switchCopy c n m ls).modCtx c fun x => { x with
      live := x.live.filter (·.1 != n.val)
      saved := x.saved.filter (·.1 != i) ++ (if ls.isEmpty then [] else [(i, e.2)]) }
  | _, _ => s

/-- Restore the saved live set of a context on a core. -/
def State.restoreCore (s : State) (m : Fin 8) (c : Nat) (n : Fin 16) : State :=
  let x := s.ctx c
  match (s.numbering x).idxOf? n.val with
  | none => s
  | some i =>
    match x.saved.find? (·.1 == i) with
    | none => s
    | some e =>
      ((s.freeCreel n e.2).switchCopy c n m (switchLines x n i e.2 false)).modCtx c fun x => { x with
        live := x.live.filter (·.1 != n.val) ++ [(n.val, e.2)]
        saved := x.saved.filter (·.1 != i) }

/-- Has a switch a live set to save or to restore on a core. -/
def State.switchNeeds (s : State) (out c : Nat) (n : Fin 16) : Bool :=
  let x := s.ctx out
  let y := s.ctx c
  (x.live.any (fun e => e.1 == n.val && !e.2.isEmpty) && (s.numbering x).contains n.val) ||
  (match (s.numbering y).idxOf? n.val with
   | some i => y.saved.any (·.1 == i)
   | none => false)

/-- The cores whose live sets a switch carries: a quarantined core is not eligible for its MOVE, and its live set stays behind
(R334, log 92). An UNVERIFIED one is. -/
def State.switchCores (s : State) (out c : Nat) : List (Fin 16) :=
  (List.finRange 16).filter fun n => s.enabled (.tc n) && !(s.unit (.tc n)).regs.quarantine && s.switchNeeds out c n

/-- May a switch run: its cores are free, and so is the mover that the group's configuration reserves for it, eligible as for a
latency-critical command (R334, R340), and none of them owes a tally test or a replay, which go before (R336, R349). -/
def State.switchMay (s : State) (m : Fin 8) (cores : List (Fin 16)) : Bool :=
  let us := cores.map UnitId.tc ++ [UnitId.mv m]
  s.computeUp && (cores.isEmpty ||
    (us.all (fun u => s.unitFree u && (s.unit u).fence == .open_) && s.enabled (.mv m) &&
     !(s.unit (.mv m)).regs.quarantine && !(s.unit (.mv m)).regs.unverified &&
     !s.disp.replays.any fun r => (s.replayUnit r).any us.contains))

/-- SLICE_SWITCH (R338 to R340): the last command of the outgoing holder has ended, `overrun` FCLK cycles past the
boundary; its live sets are saved, those of the incoming holder restored, and the incoming slice begins. -/
def execSliceSwitch (group : Fin 16) (overrun : Nat) (s : State) : Result :=
  match s.sliceOf group.val with
  | none => .next s
  | some g =>
    match g.next with
    | none => .next s
    | some c =>
      let m := Config.switchMover group
      let cores := s.switchCores g.holder c
      if !g.expired || s.runsOnCore g.holder || !s.switchMay m cores then .next s
      else
        let s := s.modCtx g.holder fun x => { x with owed := x.owed + BitVec.ofNat 32 overrun }
        let s := cores.foldl (fun s n => (s.saveCore m g.holder n).restoreCore m c n) s
        .next ((s.chargeSlice c).setSlice group { holder := c, expired := false, next := none })

end Sys2Proof.Machine
end

