-- ==== Sys2Proof/Machine/Packets.lean ====
section
/-! DEFINITION. The command packets (R361, R362, R368 to R370, R373, R508) and the write of HIF_ADMIN_CFG (R360, R361). -/

namespace Sys2Proof.Machine

/-- NOP (R368), undefined opcodes and unreadable entries. -/
def execNop (ring : Fin 4096) (pkt : Packet) (s : State) : Result :=
  .next (servePacket ring.val 0x01 pkt (fun _ s => (s, some .done)) s)

/-! ### GRAPH_LOAD and GRAPH_UNLOAD -/

/-- Bind one camera stream (R237, R243): the lowest free slot of its instance; the slot's counters stay. -/
def State.bindCam (s : State) (ctx : Nat) (d : Line) (i : Fin 2) : State :=
  match (List.finRange 12).find? fun k => (s.cam i k).desc.isNone with
  | none => s
  | some k => s.modCam i k fun x => { CamSlot.init with
      desc := some d
      ctx := ctx
      remap := s.remapTable d
      enabled := true
      good := x.good
      fail := x.fail
      lastCause := x.lastCause
      corr := x.corr
      roi := x.roi }

/-- A lidar slot that takes a descriptor, or loses it: its counters stay. -/
def LidarSlot.bind (x : LidarSlot) (d : Option Line) (ctx : Nat) : LidarSlot :=
  { LidarSlot.init with
      desc := d
      ctx := ctx
      enabled := d.isSome
      sweeps := x.sweeps
      format := x.format
      checksum := x.checksum
      dup := x.dup
      late := x.late
      overrun := x.overrun }

/-- Bind one lidar stream: the lowest free slot (R263). -/
def State.bindLidar (s : State) (ctx : Nat) (d : Line) : State :=
  match (List.finRange 8).find? fun k => (s.lidars[k]).desc.isNone with
  | none => s
  | some k => { s with lidars := s.lidars.set k ((s.lidars[k]).bind (some d) ctx) }

/-- Bind one replay descriptor (R269). -/
def State.bindReplay (s : State) (ctx : Nat) (d : Line) : State :=
  let k := List.replicate (repNbkt d) 0
  s.modSkep (if repInst d = 0 then 0 else 1) fun x => { x with
    descs := x.descs ++ [{ desc := d, ctx := ctx, q := 0, past := [], r := 0, k := k, closed := false }] }

/-- The intake section of an image enters the device, and the region lists for frame 0 the hamper (R250). -/
def State.bindIntake (s : State) (ctx : Nat) (g : GraphImage) : State :=
  let ins := placeCams g.cameras (s.camsOf 0).length (s.camsOf 1).length
  let s := (g.cameras.zip ins).foldl (fun s x => s.bindCam ctx x.1 x.2) s
  let s := (g.cameras.zip g.roi).foldl (fun s x => s.putLines (hamKey (camRoil x.1)) (x.2.take 3)) s
  let s := g.lidars.foldl (fun s d => s.bindLidar ctx d) s
  g.replays.foldl (fun s d => s.bindReplay ctx d) s

/-- The intake streams of a context leave the device. -/
def State.dropIntake (s : State) (ctx : Nat) : State :=
  let s := (s.closeDescs 0 ctx).closeDescs 1 ctx
  { s with
      cams := s.cams.map fun v => v.map fun x =>
        if x.desc.isSome && x.ctx == ctx then
          { CamSlot.init with good := x.good, fail := x.fail, lastCause := x.lastCause, corr := x.corr, roi := x.roi }
        else x
      lidars := s.lidars.map fun x => if x.desc.isSome && x.ctx == ctx then x.bind none 0 else x }

/-- Every context becomes FREE, and its intake streams leave the device (R324, R495). -/
def State.freeContexts (s : State) : State :=
  { (s.ctxs.map (·.1)).foldl (fun s c => s.dropIntake c) s with ctxs := [] }

/-- Fill a context's entry from the packet and the image (R324, R351, R368). -/
def State.fillEntry (s : State) (ctx : Nat) (p : LoadParams) (g : GraphImage) : State :=
  let compat := decide (g.ncore < s.coreCount)
  s.setCtx ctx { Ctx.init with
    state := .loaded
    cls := p.cls
    prio := p.prio
    flags := p.cflags + 8 * boolNat compat
    graphId := g.graphId
    fbId := match g.fallback with
      | some f => f.graphId
      | none => 0#32
    tieBase := p.tieBase
    tieCount := p.tieCount
    deadlineUs := BitVec.ofNat 32 p.deadlineUs
    stallUs := BitVec.ofNat 32 p.stallUs
    coreMask := p.coreMask
    ncore := g.ncore
    sgroup := p.sgroup
    saveBase := BitVec.ofNat 64 p.saveBase
    rkey := rkeyWord s.fwVersion g.ncore compat g.minCreel (max 1 g.job.length) s.dram.det
    nq := g.queues.length
    originSet := g.originSet
    windows := (s.ctx ctx).windows
    img := some g }

/-- Set every tie of a range to 0 (R326). -/
def State.clearTies (s : State) (base count : Nat) : State :=
  { s with ties := sparseFilter (fun t => !(base ≤ t && t < base + count)) s.ties }

/-- GRAPH_LOAD (R368 and the checks it names). -/
def execGraphLoad (pkt : Packet) (img : GraphImage) (s : State) : Result :=
  .next (servePacket 0 0x10 pkt (fun p s =>
    let c := pktCtx p
    let l := loadParams p
    let img := withPrograms img
    match imageCheck s img c l with
    | some st => (s, some st)
    | none =>
      let s := match mergeTables s img c with
        | some t => { s with disp := { s.disp with tables := t } }
        | none => s
      (((s.clearTies l.tieBase l.tieCount).fillEntry c l img).bindIntake c img, some .done)) s)

/-- GRAPH_UNLOAD (R368): the rings close, STATE is FREE and the context's intake streams leave the device. -/
def execGraphUnload (pkt : Packet) (s : State) : Result :=
  .next (servePacket 0 0x11 pkt (fun p s =>
    let c := pktCtx p
    let s := (s.closeRing c).dropIntake c
    (s.modCtx c fun x => { x with
      state := .free
      img := none
      reqs := []
      outcomes := []
      live := []
      saved := []
      downPeers := [] }, some .done)) s)

/-! ### Windows and rings -/

/-- WINDOW_SET (R312, R315, R368). -/
def execWindowSet (pkt : Packet) (s : State) : Result :=
  .next (servePacket 0 0x12 pkt (fun p s =>
    let v : DWord := p.extractLsb' 128 64
    if fieldNat v 3 4 ≠ 0 then (s, some .rejectFormat)
    else (s.modCtx (pktCtx p) fun x => { x with windows := x.windows.setIfInBounds (bytesNat p 8 1) v }, some .done)) s)

/-- Where a ring of `n` lines at a context address lies (R362): host memory, or the hamper. -/
def ringPlace (wins : List DWord) (ca n : Nat) (write : Bool) : Option (Bool × Nat) :=
  let w := wins.getD (caWindow ca) 0#64
  let a := winBase w * 65536 + caOffset ca
  if !rangeInWindow wins ca n [0, 1] write then none
  else if winTarget w = 1 then some (true, a)
  else if hamKey 0 ≤ a / 256 ∧ a / 256 + n ≤ hamKey hamperLines then some (false, a) else none

/-- RING_OPEN (R362, R368). -/
def execRingOpen (pkt : Packet) (s : State) : Result :=
  .next (servePacket 0 0x13 pkt (fun p s =>
    let x := s.ctx (pktCtx p)
    let wins := x.windows.toList
    let sq := bytesNat p 24 1
    let rq := bytesNat p 25 1
    match x.ring, ringPlace wins (bytesNat p 8 8) (2 ^ sq / 4) false, ringPlace wins (bytesNat p 16 8) (2 ^ rq / 8) true with
    | none, some a, some b =>
      let r : Ring :=
        { sqHost := a.1, sqAddr := a.2, rqHost := b.1, rqAddr := b.2, sqLog2 := sq, rqLog2 := rq,
          vector := bytesNat p 26 1, h := 0#32, tail := 0#32, rqHead := 0#32, r := 0#32, waiting := [] }
      (s.setCtx (pktCtx p) { x with ring := some r }, some .done)
    | _, _, _ => (s, some .rejectContext)) s)

/-- RING_CLOSE (R368). -/
def execRingClose (pkt : Packet) (s : State) : Result :=
  .next (servePacket 0 0x14 pkt (fun p s => (s.closeRing (pktCtx p), some .done)) s)

/-! ### Contexts -/

/-- CONTEXT_START (R26, R331, R368): the context runs; its slice group has a holder (R338). -/
def execContextStart (pkt : Packet) (s : State) : Result :=
  .next (servePacket 0 0x15 pkt (fun p s =>
    let c := pktCtx p
    let x := s.ctx c
    let area := match x.img with
      | some g => provOk g x.windows.toList
      | none => false
    if x.ring.isNone || !area then (s, some .rejectContext)
    else
      let s := s.setCtx c { x with state := .run }
      (s.firstSlices.nextFrame c, some .done)) s)

/-- CONTEXT_STOP (R368): at once when no frame runs, else at its end. -/
def execContextStop (pkt : Packet) (s : State) : Result :=
  .next (servePacket 0 0x16 pkt (fun p s =>
    let c := pktCtx p
    let x := s.ctx c
    if x.run.isSome then
      (s.setCtx c { x with
        reqs := []
        waitPkt := x.waitPkt ++ [{ seq := pktSeq p, noirq := pktNoirq p, admin := true, frame := x.frame.toNat,
                                   isAbort := false, silent := false }] }, none)
    else (s.setCtx c { x with state := .loaded, reqs := [], nextReq := x.frame }, some .done)) s)

/-- FRAME_RUN (R347, R368, R369). -/
def execFrameRun (ring : Fin 4096) (pkt : Packet) (s : State) : Result :=
  .next (servePacket ring.val 0x20 pkt (fun p s =>
    let c := ring.val
    let x := s.ctx c
    let path := bytesNat p 12 1
    if !x.step then (s, some .rejectContext)
    else if bytesNat p 8 4 ≠ x.nextReq.toNat then (s, some .rejectLimit)
    else if path ≠ 0xFF ∧ !x.scripted then (s, some .rejectFormat)
    else
      let q : FrameReq := { frame := bytesNat p 8 4, seq := pktSeq p, noirq := pktNoirq p,
                            path := if path = 0xFF then 0 else 1 + path, accepted := s.nowNs }
      ((s.setCtx c { x with reqs := x.reqs ++ [q], nextReq := x.nextReq + 1#32 }).nextFrame c, none)) s)

/-- TIE_ADD (R328, R368). -/
def execTieAdd (ring : Fin 4096) (pkt : Packet) (s : State) : Result :=
  .next (servePacket ring.val 0x21 pkt (fun p s =>
    (s.tieAdd (bytesNat p 8 4) (p.extractLsb' 96 32), some .done)) s)

/-- TIE_SET (R328, R368). -/
def execTieSet (ring : Fin 4096) (pkt : Packet) (s : State) : Result :=
  .next (servePacket ring.val 0x22 pkt (fun p s =>
    (s.tieSet (bytesNat p 8 4) (p.extractLsb' 96 32), some .done)) s)

/-- ABORT (R373). -/
def execAbort (ring : Fin 4096) (pkt : Packet) (s : State) : Result :=
  .next (servePacket ring.val 0x23 pkt (fun p s =>
    let c := pktCtx p
    let x := s.ctx c
    let f := bytesNat p 8 4
    if x.state != .run then (s, some .rejectContext)
    else if f > x.frame.toNat then (s, some .rejectLimit)
    else if f = x.frame.toNat ∧ x.run.isSome then
      (s.setCtx c { x with waitPkt := x.waitPkt ++
        [{ seq := pktSeq p, noirq := pktNoirq p, admin := ring.val == 0, frame := f, isAbort := true, silent := false }] }, none)
    else match x.outcomes.find? (·.1 == f) with
      | some o => (s, some (if o.2 then .doneAbortLate else .aborted))
      | none => (s, some .rejectLimit)) s)

/-! ### ATTEST (R507, R508) -/

/-- FUSED_SVN (R504). -/
def State.fusedSvn (s : State) : Nat :=
  ((List.range 63).filter fun i => s.power.svnFuses.getLsbD i).foldl (fun _ i => i + 1) 0

/-- The signed bytes 0 to 511 of a report. A digest's first byte is its most significant. -/
def State.attestBody (s : State) (nonce : Nat) : List Byte :=
  let hash := match s.power.image with
    | some i => i.hash
    | none => 0#384
  natToBytes 2 1 ++ natToBytes 1 s.self ++ [0#8] ++ natToBytes 4 s.devId ++ natToBytes 16 s.id.uid.toNat ++
  natToBytes 4 s.fwVersion.toNat ++ natToBytes 1 s.power.imageSvn ++ natToBytes 1 s.fusedSvn ++ natToBytes 1 s.power.source ++
  [0#8] ++ (natToBytes 48 hash.toNat).reverse ++ natToBytes 32 nonce ++ natToBytes 8 s.deviceKey.toNat ++
  natToBytes 4 s.evr.hours.toNat ++ natToBytes 4 s.evr.pcycle.toNat ++ natToBytes 97 Config.devEcPub.toNat ++
  List.replicate 7 0#8 ++ natToBytes 56 Config.devLmsPub.toNat ++ natToBytes 4 s.power.lmsLeaf ++ List.replicate 220 0#8

/-- The 4 KiB report. -/
def State.attestReport (s : State) (nonce : Nat) : List Byte :=
  let body := s.attestBody nonce
  let sig := (Config.attestSignature (BitVec.ofNat 4096 (natOfBytes body)) s.power.lmsLeaf).toNat
  body ++ natToBytes 96 sig ++ List.replicate 32 0#8 ++ natToBytes 2828 (sig / 2 ^ 768) ++ List.replicate 628 0#8

/-- ATTEST (R368, R507, R508). -/
def execAttest (pkt : Packet) (s : State) : Result :=
  .next (servePacket 0 0x30 pkt (fun p s =>
    if pktCtx p ≠ 1 then (s, some .rejectContext)
    else if s.power.lmsLeaf ≥ 1048576 then (s, some .rejectLimit)
    else
      let s := s.emit (.hostWrite (bytesNat p 8 8) (s.attestReport (bytesNat p 16 32)))
      ({ s with power := { s.power with lmsLeaf := s.power.lmsLeaf + 1 } }, some .done)) s)

/-! ### The admin ring's enable (R360, R361) -/

/-- An empty ring pair of the admin ring at the addresses of R360. -/
def State.adminRing (s : State) : Ring :=
  { sqHost := true, sqAddr := s.hif.asqHi.toNat * 2 ^ 32 + s.hif.asqLo.toNat, rqHost := true,
    rqAddr := s.hif.arqHi.toNat * 2 ^ 32 + s.hif.arqLo.toNat, sqLog2 := s.hif.asqLog2, rqLog2 := s.hif.arqLog2, vector := 0,
    h := 0#32, tail := 0#32, rqHead := 0#32, r := 0#32, waiting := [] }

/-- A write of HIF_ADMIN_CFG (R360, R361): sizes are ignored while EN = 1 and out of range; EN = 1 resets the counters, EN = 0
closes the ring. -/
def State.writeAdminCfg (s : State) (v : Word) : State :=
  let size := fun (old new : Nat) => if !s.hif.en && within 4 12 new then new else old
  let s := { s with hif := { s.hif with
    asqLog2 := size s.hif.asqLog2 (fieldNat v 0 4)
    arqLog2 := size s.hif.arqLog2 (fieldNat v 4 4)
    en := bitAt v 8 } }
  { s with hif := { s.hif with admin := if bitAt v 8 then some s.adminRing else none } }

/-- ADMIN_ENABLE (R360, R361): masters 0x01 and 0x02 write HIF_ADMIN_CFG. -/
def execAdminEnable (master : Byte) (v : Word) (s : State) : Result :=
  if (master = 1#8 ∨ master = 2#8) ∧ s.reaches master.toNat 0 then .next (s.writeAdminCfg v) else .next s

end Sys2Proof.Machine
end

