-- ==== Sys2Proof/Machine/Images.lean ====
section
/-! DEFINITION. The Protil image (R502, R503): its header, the checks of the boot ROM, the image of the NOR, and an image taken
into use. -/

namespace Sys2Proof.Machine

/-- Reserved bytes of the header: offset and length. -/
def headerReserved : List (Nat × Nat) := [(6, 2), (13, 3), (28, 4), (129, 31), (216, 40), (352, 160), (3180, 916)]

/-- Check 1: MAGIC, FORMAT, reserved bytes, lengths. -/
def headerOk (h : BitVec 32768) : Bool :=
  bytesNat h 0 4 == 0x4C545250 && bytesNat h 4 2 == 1 && headerReserved.all (fun r => bytesNat h r.1 r.2 == 0) &&
  within 1 1572864 (bytesNat h 16 4) && within 1 65536 (bytesNat h 20 4)

/-- CODE_LEN and CFG_LEN. -/
def codeLen (h : BitVec 32768) : Nat := bytesNat h 16 4
@[inherit_doc codeLen] def cfgLen (h : BitVec 32768) : Nat := bytesNat h 20 4

/-- The signed message M (R502), as length and number: header bytes 0 to 255, the code, the configuration. -/
def imageMessage (f : FwImage) : Nat × Nat :=
  (256 + f.code.length + f.cfg.length,
   (beField f.header 0 256 <<< (8 * f.code.length) ||| beNumber f.code) <<< (8 * f.cfg.length) ||| beNumber f.cfg)

/-- SHA-384 of the signed message. -/
def imageHash (f : FwImage) : Nat := sha384 (imageMessage f).1 (imageMessage f).2

/-- Check 2: the keys of a header are those whose hashes are fused. -/
def State.keysOk (s : State) (h : BitVec 32768) : Bool :=
  sha384 97 (beField h 32 97) == s.id.keyHashEc.toNat && sha256 56 (beField h 160 56) == s.id.keyHashLms.toNat

/-- Check 3: EC_SIG verifies under EC_PUB over the digest of M. -/
def imageEcOk (f : FwImage) : Bool :=
  ecdsaOk (beField f.header 32 1) (beField f.header 33 48) (beField f.header 81 48) (beField f.header 256 48)
    (beField f.header 304 48) (imageHash f)

/-- Check 4: LMS_SIG verifies under LMS_PUB over M. -/
def imageLmsOk (f : FwImage) : Bool :=
  lmsOk (fun o n => beField f.header (160 + o) n) (fun o n => beField f.header (512 + o) n) (imageMessage f).1 (imageMessage f).2

/-- The first check that an image fails, as the code of BOOT_STATUS.ERROR (R503). -/
def State.imageError (s : State) (f : FwImage) : Option Nat :=
  if !headerOk f.header || !f.fits || f.code.length != codeLen f.header || f.cfg.length != cfgLen f.header then some 1
  else if !s.keysOk f.header then some 2
  else if !imageEcOk f then some 3
  else if !imageLmsOk f then some 4
  else if bytesNat f.header 12 1 < s.fusedSvn then some 5
  else none

/-- The image in the NOR (R501, R503): what PCIe recovery programmed there, else the one given; the code of BOOT_STATUS.ERROR
where it can not be read or fails a check. -/
def State.readNor (s : State) (nor : Option FwImage) : Except Nat FwImage :=
  match nor with
  | none => .error 7
  | some f =>
    let f := s.power.norImage.getD f
    match s.imageError f with
    | some e => .error e
    | none => .ok f

/-- An image that passed runs from here on: its version, SVN and hash, where it came from, and whether its SVN is to be fused
(R501, R504, R508). -/
def State.runImage (s : State) (f : FwImage) (source : Nat) : State :=
  let svn := bytesNat f.header 12 1
  let run : Running := {
    version := f.header.extractLsb' 64 32
    svn := svn
    entry := f.header.extractLsb' 192 32
    hash := BitVec.ofNat 384 (imageHash f)
    config := f.config }
  { s with power := { s.power with
    image := some run
    imageSvn := svn
    source := source
    svnPending := f.config.commitSvn && decide (s.fusedSvn < svn) } }

/-- The ROM waits for a recovery image (R505, R506). -/
def State.waitRecovery (s : State) (error : Nat) : State :=
  { s with power := { s.power with recovery := true, error := error } }

end Sys2Proof.Machine
end

