-- ==== Sys2Proof/Machine/HostPort.lean ====
section
/-! DEFINITION. The PCI Express endpoint (R302, R355 to R360, R372, R500): hamper access through BAR2, refused accesses,
Function Level Reset, PERST_N, the link, and MSI-X masks. -/

namespace Sys2Proof.Machine

/-! ### BAR2 (R302) -/

/-- A partial line is discarded (R302, R360). -/
def State.dropPartial (s : State) : State := ({ s with hif := { s.hif with bar2 := none } }).hifSticky 2

/-- Put bytes at an offset of a partly collected line. -/
def collect (bs : List (Option Byte)) (off : Nat) (new : List Byte) : List (Option Byte) :=
  bs.take off ++ new.map some ++ bs.drop (off + new.length)

/-- Is the hamper held in reset, so that no BAR2 access reaches it (R436, R447, R461). -/
def State.hamperReset (s : State) : Bool :=
  s.serviceStatus.isSome || (s.hoop.inReset && !s.hoop.recovering) || s.domainHeld

/-- Has the host port a grant in which it reaches a line's slice (R293, R294, R302). -/
def State.hostGrant (s : State) (write : Bool) (line : Nat) : Bool := s.portReaches (0x50 + boolNat write) line

/-- A collected line that is whole is written with a new tag at its grant; without one it waits (R302). -/
def State.putWhole (s : State) : State :=
  match s.hif.bar2 with
  | some (line, bs) =>
    if bs.all Option.isSome && s.hostGrant true line then
      ({ s with hif := { s.hif with bar2 := none } }).putLine (hamKey line) (lineOfBytes (bs.map fun (b : Option Byte) => b.getD 0#8))
    else s
  | none => s

/-- Does a whole line wait for its grant. -/
def State.lineWaits (s : State) : Bool := s.hif.bar2.any fun p => p.2.all Option.isSome

/-- BAR2_WRITE (R302): bytes of one hamper line are collected; the whole line is written with a new tag at the host port's next
grant of its slice. A write to a hamper in reset is dropped, and behind a whole line that waits for a grant one is not taken
(log 83). -/
def execBar2Write (line off : Nat) (bytes : List Byte) (s : State) : Result :=
  if line ≥ hamperLines ∨ off + bytes.length > 256 ∨ s.hamperReset then .next s
  else
    let s := s.putWhole
    if s.lineWaits then .next s
    else
      let s := match s.hif.bar2 with
        | some p => if p.1 = line then s else s.dropPartial
        | none => s
      let old := match s.hif.bar2 with
        | some p => p.2
        | none => List.replicate 256 none
      .next ({ s with hif := { s.hif with bar2 := some (line, collect old off bytes) } }).putWhole

/-- BAR2_READ (R302): the line at the host port's next grant of its slice, or all ones and BAR2_TAG where its tag does not match;
without a grant no data comes. A unit's running command may write the line in a later or an earlier period than its row shows
(R300). What a hamper in reset returns is free (log 83). -/
def execBar2Read (line : Nat) (ups : List Upset) (s : State) : Result :=
  let x := s.seenAs (s.periodReads none ups)
  if line ≥ hamperLines then .next s
  else if s.hamperReset then .next (s.drawLine.2.emit (.readData 1 (toBytes s.drawLine.1 256)))
  else if !s.hostGrant false line then .next s
  else if x.tagOk (hamKey line) then .next (s.emit (.readData 1 (toBytes (x.line (hamKey line)) 256)))
  else .next ((s.emit (.readData 1 (List.replicate 256 0xFF#8))).hifSticky 3)

/-- PARTIAL_DROP (R302): 1 µs without completion. -/
def execPartialDrop (s : State) : Result := if s.hif.bar2.isSome && !s.lineWaits then .next s.dropPartial else .next s

/-! ### Resets and the link -/

/-- A context in RUN stops as by CONTEXT_STOP at the reset; its frame ends aborted without a reply, and the ABORT that waits for
it has lost its ring (R359). -/
def State.stopSilently (s : State) (c : Nat) : State :=
  let x := s.ctx c
  if x.state != .run then s
  else if x.run.isSome then
    (s.setCtx c { x with
      reqs := []
      waitPkt := ((x.waitPkt.filter fun w => w.isAbort).map fun w => { w with silent := true }) ++
        [{ seq := 0#32, noirq := true, admin := true, frame := x.frame.toNat, isAbort := false, silent := true }] }).abortFrame c
  else s.setCtx c { x with state := .loaded, reqs := [], nextReq := x.frame }

/-- A Function Level Reset (R359): rings close with the replies that they keep, contexts stop, the endpoint's registers take their
reset values; what describes the link stays. -/
def State.flr (s : State) : State :=
  let cs := s.ctxs.map (·.1)
  let s := cs.foldl (fun s c => s.stopSilently c) s
  let s := { s with hoop := { s.hoop with abandoned := [] } }
  let s := { s with hif := { HostIf.init with
    linkUp := s.hif.linkUp
    linkWidth := s.hif.linkWidth
    linkSpeed := s.hif.linkSpeed
    perstLow := s.hif.perstLow } }
  cs.foldl (fun s c => s.closeRing c) s

/-- FUNCTION_LEVEL_RESET (R359). -/
def execFunctionLevelReset (s : State) : Result := .next s.flr

/-- PCIE_LINK_DOWN (R360): LINK_UP and the negotiated width and speed clear. -/
def State.linkDown (s : State) : State :=
  { s with hif := { s.hif with linkUp := false, linkWidth := 0, linkSpeed := 0 } }

/-- PERST_N (R500): its fall resets the endpoint as R359; the link retrains after its rise. -/
def execPerstN (level : Bool) (s : State) : Result :=
  if level then .next { s with hif := { s.hif with perstLow := false } }
  else if s.hif.perstLow then .next s
  else
    let s := s.flr.linkDown
    .next { s with hif := { s.hif with perstLow := true } }

/-- PCIE_LINK_DOWN (R360). -/
def execPcieLinkDown (s : State) : Result := .next s.linkDown

/-- PCIE_LINK_UP (R355, R360): 1, 2 or 4 lanes at speed 1 to 5, while PERST_N is high and the link is not powered down. -/
def execPcieLinkUp (width speed : Nat) (s : State) : Result :=
  if s.hif.perstLow || !([1, 2, 4].contains width) || !within 1 5 speed || s.power.st == 5 then .next s
  else .next { s with hif := { s.hif with linkUp := true, linkWidth := width, linkSpeed := speed } }

/-! ### MSI-X (R372) -/

/-- Unmask a vector: a pending message is sent. -/
def State.unmask (s : State) (v : Nat) : State :=
  let b := 1#64 <<< v
  let pend := s.hif.msixPend.getLsbD v
  let s := { s with hif := { s.hif with msixMask := s.hif.msixMask &&& ~~~b, msixPend := s.hif.msixPend &&& ~~~b } }
  if pend then s.emit (.msix v) else s

/-- MSIX_UNMASK (R372): the table lies in BAR0 at 0x2000, which PCIe recovery does not give the host (R356, R506). -/
def execMsixUnmask (v : Fin 64) (s : State) : Result := .next (if s.reaches 0x01 0x2000 then s.unmask v.val else s)

end Sys2Proof.Machine
end

