-- ==== Sys2Proof/Machine/Domain.lean ====
section
/-! DEFINITION. The reset of unit domains and of what runs in them (R257, R289, R447), and the holds that keep the compute domain
in reset (R426, R429, R430). -/

namespace Sys2Proof.Machine

/-- A unit domain after its reset: the register block stays but for BUSY and TALLY_PENDING; the command is gone. -/
def UnitState.reset (x : UnitState) : UnitState :=
  { x with
      run := none
      undo := []
      posts := []
      fence := .open_
      tallyRunning := false
      tallyOld := false
      regs := { x.regs with busy := false, tallyPending := false } }

/-- The work state of a unit inside the state: a core's run, a mover's copy, a half's part of the links. Movers whose accesses
collided in the core's creel end so (R83). -/
def State.clearWork (s : State) (u : UnitId) : State :=
  let s := (s.dropRx u).clearHalf u
  match u with
  | .tc n => s.freeCore n (s.core n).run (s.core n).run.cycle
  | .mv m => { s with copies := s.copies.set m CopyRun.init }
  | _ => s

/-- Where the fence of a unit cuts off its command, how many of its lines were written is free, a DRAM line that was may keep
the tag that its tag line held before, and a post that has left stays sent (R451, R319, log 60). -/
def State.fenceWrites (s : State) (u : UnitId) : State :=
  let s := s.cutWrites u none
  let s := match (s.unit u).run with
    | some p => (s.unit u).posts.foldl (fun (s : State) h => s.sendPost p.ctx h 0) s
    | none => s
  s.modUnit u fun z => { z with undo := [], posts := [] }

/-- Every unit domain is reset; a command that runs is cut off as by its fence (R451, R455). -/
def State.resetUnits (s : State) : State :=
  allUnits.foldl (fun s u =>
    let s := if (s.unit u).undo.isEmpty && (s.unit u).posts.isEmpty then s else s.fenceWrites u
    (s.modUnit u UnitState.reset).clearWork u) s

/-- Every open camera attempt fails (R257); the manual gives that failure no cause code, so the last cause is free (log 18).
A member that had passed already fails with its peers (GROUP_PEER); one that had failed behind another is skipped. -/
def State.failAttempts (s : State) : State :=
  camSlots.foldl (fun s j =>
    let s := (s.cam j.1 j.2).attempts.zipIdx.foldl (fun (s : State) a =>
      match a.1.failed with
      | some c => if a.2 = 0 then s else s.modCam j.1 j.2 fun x => x.skip c
      | none =>
        let cause := if a.1.passed then 0x0A else (Config.freeCycle s.freeCtr).toNat % 256
        ({ s with freeCtr := s.freeCtr + 1 }).modCam j.1 j.2 fun x =>
          { x with fail := satInc x.fail, lastCause := cause }.skip cause) s
    s.modCam j.1 j.2 fun x => { x with attempt := none, next := [] }) s

/-- Open sweeps are lost; the next one delivered is marked with a gap. -/
def State.dropSweeps (s : State) : State :=
  { s with lidars := s.lidars.map fun x => match x.sweep with
      | some w => { x with sweep := none, gapNext := x.gapNext || !w.closed }
      | none => x }

/-- RESET_ENTER goes out once for a reset, at its step 1, also where a hold keeps the domain in reset first (R453, R455, R463). -/
def State.sendEnter (s : State) : State :=
  if s.hoop.inReset && !s.hoop.enterSent && s.fabric.en then
    ({ s with hoop := { s.hoop with enterSent := true } }).notice 0x02 s.self s.hoop.rstCause.toNat
      (if s.fabric.manager == s.self then s.chips else [s.fabric.manager])
  else s

/-- Nothing runs in the compute domain any more: commands, attempts, sweeps and samples are gone (R257, R289, R447). -/
def State.stopDomain (s : State) : State :=
  let s := (s.resetUnits).failAttempts.dropSweeps
  (s.abandonSlots 0).abandonSlots 1

end Sys2Proof.Machine
end

