-- ==== Sys2Proof/Machine/Mailbox.lean ====
section
/-! DEFINITION. Mailbox rings and acknowledges (R375 to R378, R406), fragment acknowledges (R468), the erase request (R483),
and TIE_OP (R329). -/

namespace Sys2Proof.Machine

/-- A write by a master that the channel is not bound to sets FOREIGN (R376). -/
def State.foreignWrite (s : State) (ch : Fin 64) (m : Nat) : State :=
  let b := s.binding ch.val
  if b.1 ≠ 0 ∧ (m = b.1 ∨ m = b.2) then s else s.modChan ch fun x => { x with foreign := true }

/-- A bound master 0x08 that writes to a channel has seen its notice (R378, R432). -/
def State.seen08 (s : State) (ch : Fin 64) (m : Nat) : State :=
  if m = 0x08 then { s with hoop := { s.hoop with notice08 := s.hoop.notice08 &&& ~~~(1#64 <<< ch.val) } } else s

/-- An access out of order is ignored and sets BAD_ORDER (R375, R377). -/
def State.badOrder (s : State) (ch : Fin 64) : State := s.modChan ch fun x => { x with badOrder := true }

/-- Is a master the local sender of a channel; a remote sender's channel is written by the link only (R375, R406). -/
def State.isSender (s : State) (ch : Fin 64) (m : Nat) : Bool :=
  (s.binding ch.val).1 == m && m != 0 && decide (m < 0x10)

/-- Is a master the local receiver of a bound channel. -/
def State.isReceiver (s : State) (ch : Fin 64) (m : Nat) : Bool :=
  (s.binding ch.val).1 != 0 && (s.binding ch.val).2 == m && decide (m < 0x10)

/-- A channel's sender hears of its acknowledge (R378, R406): a remote sender by a MACK flit. -/
def State.ackNotice (s : State) (ch : Fin 64) (code : BitVec 16) : State :=
  let snd := (s.binding ch.val).1
  if 0x10 ≤ snd ∧ snd ≤ 0x17 then
    s.sendRouted (mkFlit tMack s.self (snd - 0x10) 0#32 (natToBytes 1 ch.val ++ [0#8] ++ natToBytes 2 code.toNat))
  else s.notifyMaster ch.val snd

/-- The receiver acknowledges: CODE is written and the channel is ACKED (R375). -/
def State.ackChan (s : State) (ch : Fin 64) (code : BitVec 16) : State :=
  (s.modChan ch fun x => { x with ack := code, st := 2 }).ackNotice ch code

/-- Is the message in a channel a fragment of a fault signature record, and for which receiver. -/
def State.fragmentOn (s : State) (ch : Fin 64) : Option Bool :=
  if ch = fsrChannel true ∧ s.hoop.fragHost then some true
  else if ch = fsrChannel false ∧ s.hoop.fragSafety then some false else none

/-- What an acknowledge lets go on: Hoop, while it runs, sends the next fragment (R426, R468, R499). -/
def State.ackedNext (s : State) (ch : Fin 64) : State :=
  if !s.hoopRuns then s
  else match s.fragmentOn ch with
  | some h => s.fsrAcked h
  | none => s.fsrSend

/-- A ring: the message is frozen and the receiver told, a remote one by a MAIL flit (R377, R378, R406). -/
def State.ringChan (s : State) (ch : Fin 64) : State :=
  let s := s.modChan ch fun x => { x with st := 1 }
  let r := (s.binding ch.val).2
  if 0x10 ≤ r ∧ r ≤ 0x17 then
    if !s.routeActive (r - 0x10) then s.ackChan ch 0x0051#16
    else s.sendRouted (mkFlit tMail s.self (r - 0x10) 0#32 (natToBytes 4 ch.val ++ toBytes (s.chan ch).msg 64))
  else s.ringNotice ch.val r

/-- A write of MB_RING (R375, R377). -/
def State.writeRing (s : State) (m : Nat) (ch : Fin 64) (v : Word) : State :=
  let s := s.seen08 ch m
  if !s.isSender ch m then s.foreignWrite ch m
  else if !bitAt v 0 then s
  else if (s.chan ch).st = 1 then s.badOrder ch
  else s.ringChan ch

/-- A write of MB_ACK (R375). -/
def State.writeAck (s : State) (m : Nat) (ch : Fin 64) (v : Word) : State :=
  let s := s.seen08 ch m
  if !s.isReceiver ch m then s.foreignWrite ch m
  else if (s.chan ch).st ≠ 1 then s.badOrder ch
  else (s.ackChan ch (v.extractLsb' 0 16)).ackedNext ch

/-- MB_RING. -/
def execMbRing (master : Byte) (ch : Fin 64) (v : Word) (s : State) : Result :=
  .next (if s.reaches master.toNat 0x800000 then s.writeRing master.toNat ch v else s)

/-- MB_ACK. -/
def execMbAck (master : Byte) (ch : Fin 64) (v : Word) (s : State) : Result :=
  .next (if s.reaches master.toNat 0x800000 then s.writeAck master.toNat ch v else s)

/-- FSR_FRAGMENT_ACK (R468): the receiver of the fragment in flight acknowledges it with code 0; in Park neither the link nor the
safety port is served, which Hoop serves (R495, R499). -/
def execFsrFragmentAck (toHost : Bool) (s : State) : Result :=
  let ch := fsrChannel toHost
  if s.power.st = 5 || (!toHost && !s.hoopRuns) then .next s
  else if s.fragmentOn ch = some toHost ∧ (s.chan ch).st = 1 then .next ((s.ackChan ch 0#16).ackedNext ch) else .next s

/-- ERASE_REQUEST (R483): Hoop takes a message on a channel whose receiver it is, between records. -/
def execEraseRequest (ch : Fin 64) (s : State) : Result :=
  let m := (s.chan ch).msg
  if (s.binding ch.val).1 = 0 ∨ (s.binding ch.val).2 ≠ 0x03 ∨ (s.chan ch).st ≠ 1 || s.evr.erasing || s.evr.prog.isSome || !s.hoopRuns then .next s
  else if fieldNat m 0 32 ≠ 0x45524153 then .next (s.ackChan ch 0x0010#16)
  else if fieldNat m 32 32 ≠ s.evr.count then .next (s.ackChan ch 0x0100#16)
  else .next { s with evr := { s.evr with erasing := true, eraseCh := ch.val } }

/-- A write of TIE_OP (R328, R329): the Osier cluster and Hoop only. -/
def State.writeTieOp (s : State) (m : Nat) (t : Nat) (v : Word) : State :=
  if m ≠ 0x02 ∧ m ≠ 0x03 then s
  else if bitAt v 31 then s.tieSet t (v &&& 0x7FFFFFFF#32)
  else s.tieAdd t (v &&& 0x7FFFFFFF#32)

/-- TIE_OP_ADD. -/
def execTieOpAdd (master : Byte) (t : Fin 131072) (amount : BitVec 31) (s : State) : Result :=
  .next (s.writeTieOp master.toNat t.val (amount.setWidth 32))

/-- TIE_OP_SET. -/
def execTieOpSet (master : Byte) (t : Fin 131072) (amount : BitVec 31) (s : State) : Result :=
  .next (s.writeTieOp master.toNat t.val (amount.setWidth 32 ||| 0x80000000#32))

end Sys2Proof.Machine
end

