-- ==== Sys2Proof/Machine/RecorderRows.lean ====
section
/-! DEFINITION. The event recorder and Hoop's counters (R433, R478 to R484). -/

namespace Sys2Proof.Machine

/-- An erased slot (R478). -/
def erasedSlot : Packet := BitVec.allOnes 512

/-- The record of an event in slot `n` (R478). -/
def State.record (s : State) (e : Event) (n : Nat) : Packet :=
  let b := [BitVec.ofNat 8 e.source, 0#8] ++ natToBytes 2 e.code ++ natToBytes 4 e.seq.toNat ++
    natToBytes 4 s.evr.hours.toNat ++ natToBytes 4 s.evr.pcycle.toNat ++ natToBytes 12 e.time.toNat ++
    natToBytes 24 e.data.toNat ++ natToBytes 4 n
  BitVec.ofNat 512 (natOfBytes (b ++ natToBytes 4 (crc32c b) ++ natToBytes 4 0x4D16EC01))

/-- A slot of which the first `n` bytes of a record are programmed: bytes 0 to 59 first and COMMIT last (R478). -/
def partSlot (r : Packet) (n : Nat) : Packet :=
  let n := if n < 64 then min n 60 else 64
  erasedSlot <<< (8 * n) ||| r &&& (BitVec.allOnes 512 >>> (512 - 8 * n))

/-- The record in progress is programmed up to byte `n`; with COMMIT the slot counts, and a full partition is FULL (R478, R480,
R483). -/
def Recorder.advance (r : Recorder) (n : Nat) : Recorder :=
  match r.prog with
  | none => r
  | some p =>
    let n := max n p.2
    let r := { r with slots := sparsePut erasedSlot r.slots r.count (partSlot p.1 n) }
    if n < 64 then { r with prog := some (p.1, n) }
    else { r with prog := none, count := r.count + 1, full := r.full || decide (r.cap ≤ r.count + 1) }

/-- An event of Hoop that is recorded without the queue, and the state with its sequence number used. -/
def State.ownEvent (s : State) (k : EventKind) : Event × State :=
  let seq := sparseGet 0#32 s.evr.seqs k.source
  ({ source := k.source, code := k.code, seq := seq, time := s.nowWord, data := 0#192 },
   { s with evr := { s.evr with seqs := sparsePut 0#32 s.evr.seqs k.source (seq + 1#32) } })

/-- Add to EVR_DROP, which stops at its maximum (R480, R484). -/
def addSat (w : Word) (n : Nat) : Word := BitVec.ofNat 32 (min 0xFFFFFFFF (w.toNat + n))

/-- One free slot remains: RECORDER_FULL is what is programmed into it, recording stops, and what waits is not recorded
(R480). -/
def State.recorderFull (s : State) : State :=
  if s.evr.run && !s.evr.full && s.evr.prog.isNone && s.evr.count + 1 = s.evr.cap then
    let x := s.ownEvent .recorderFull
    let r := x.2.evr
    { x.2 with evr := { r with
        prog := some (x.2.record x.1 r.count, 0)
        drop := addSat r.drop r.queue.length
        queue := [] } }
  else s

/-- Hoop acknowledges an erase once RECORDER_ERASED is written (R483). -/
def State.ackErase (s : State) : State :=
  if s.evr.eraseAck && s.evr.prog.isNone then
    let s := { s with evr := { s.evr with eraseAck := false } }
    if h : s.evr.eraseCh < 64 then (s.ackChan ⟨s.evr.eraseCh, h⟩ 0#16).ackedNext ⟨s.evr.eraseCh, h⟩ else s
  else s

/-- EVENT_RECORD (R478 to R480, R483): Hoop takes the oldest event of the queue, or goes on with the record in progress, and has
programmed `upto` bytes of it; 64 are all of it. -/
def execEventRecord (upto : Nat) (s : State) : Result :=
  if !s.hoopRuns || !s.evr.run || s.evr.full || s.evr.erasing || s.evr.count ≥ s.evr.cap then .next s
  else match s.evr.prog, s.evr.queue with
  | some _, _ => .next ({ s with evr := s.evr.advance upto }).ackErase.recorderFull
  | none, e :: rest =>
    let r := { s.evr with queue := rest, prog := some (s.record e s.evr.count, 0) }
    .next ({ s with evr := r.advance upto }).recorderFull
  | none, [] => .next s

/-- ERASE_COMPLETE (R483): the record area is erased, and RECORDER_ERASED is programmed into slot 0 next. -/
def execEraseComplete (s : State) : Result :=
  if !s.evr.erasing || !s.hoopRuns then .next s
  else
    let s := { s with evr := { s.evr with slots := [], count := 0, erasing := false, full := false } }
    let x := s.ownEvent .recorderErased
    .next { x.2 with evr := { x.2.evr with prog := some (x.2.record x.1 0, 0), eraseAck := true } }

/-- EVR_PAGE of a master (R482, R484). -/
def State.evrPage (s : State) (m : Nat) : Nat := (sparseGet 0#8 s.evr.page m).toNat

/-- The DWORD at an offset of the record window of a master (R482): at or beyond EVR_CAP it reads as erased. While an erase runs,
whether a slot is erased yet is free (log 51). -/
def State.evrWindow (s : State) (m off : Nat) : Word :=
  let slot := 512 * s.evrPage m + off / 64
  if slot ≥ s.evr.cap || s.evr.erasing && (Config.freeCycle s.freeCtr).toNat % 2 == 1 then 0xFFFFFFFF#32
  else (sparseGet erasedSlot s.evr.slots slot).extractLsb' (8 * (off % 64 / 4 * 4)) 32

/-- EVR_WINDOW_READ (R482). -/
def execEvrWindowRead (master : Byte) (off : BitVec 15) (s : State) : Result :=
  if !s.reaches master.toNat 0x828000 then .next s
  else .next (({ s with freeCtr := s.freeCtr + 1 }).emit (.readData master.toNat (toBytes (s.evrWindow master.toNat off.toNat) 4)))

/-! ### Counter sectors (R481) -/

/-- A counter entry: HOURS, PCYCLE, sequence number and CRC-32C. -/
def counterEntry (hours pcycle seq : Word) : BitVec 128 :=
  let b := natToBytes 4 hours.toNat ++ natToBytes 4 pcycle.toNat ++ natToBytes 4 seq.toNat
  BitVec.ofNat 128 (natOfBytes (b ++ natToBytes 4 (crc32c b)))

/-- Entries that a 4 KiB sector holds. -/
def sectorEntries : Nat := 256

/-- Append to a sector, erased first when it is full. -/
def sectorAdd (l : List (BitVec 128)) (e : BitVec 128) : List (BitVec 128) := if l.length ≥ sectorEntries then [e] else l ++ [e]

/-- Write a counter entry; the sectors take turns. -/
def Recorder.entry (r : Recorder) : Recorder :=
  let e := counterEntry r.hours r.pcycle r.entrySeq
  let r := if r.entrySeq.getLsbD 0 then { r with sectorB := sectorAdd r.sectorB e } else { r with sectorA := sectorAdd r.sectorA e }
  { r with entrySeq := r.entrySeq + 1#32, entered := r.hours, entryDue := false }

/-- HOURS_ENTRY (R481): the entry of a further 60 s of operating hours. -/
def execHoursEntry (s : State) : Result :=
  if s.hoopRuns && s.evr.entryDue then .next { s with evr := s.evr.entry } else .next s

/-- A second of operating hours has passed (R481): 60 s after the last counter entry the next is due, and is written within the
second. -/
def Recorder.second (r : Recorder) : Recorder :=
  let r := if r.entryDue then r.entry else r
  let h := r.hours + 1#32
  { r with hours := h, entryDue := decide (60 ≤ (h - r.entered).toNat) }

/-! ### Hoop's millisecond (R433, R448, R479, R481) -/

/-- A 1 s window of stretches ends: a DROOP event reports those there were (R479, R489). -/
def State.droopWindow (s : State) : State :=
  if s.power.stretchCount = 0 then s
  else
    let s := s.event .droop (words [s.power.stretchCount, s.power.stretchCycles])
    { s with power := { s.power with stretchCount := 0, stretchCycles := 0 } }

/-- HOOP_ALIVE_TICK: 1 ms of AO_XTAL time. Every 1,000 of them are one second of operating hours and one DROOP window. -/
def execHoopAliveTick (s : State) : Result :=
  if !s.hoopRuns then .next s
  else
    let n := (s.hoop.subSecond + 1) % 1000
    let s := { s with hoop := { s.hoop with
      alive := s.hoop.alive + 1#32
      subSecond := n
      sinceKick := s.hoop.sinceKick + 1
      dozeMs := if s.power.st < 3 then s.hoop.dozeMs else s.hoop.dozeMs + 1 } }
    if n = 0 then .next ({ s with evr := s.evr.second }).droopWindow
    else .next s

end Sys2Proof.Machine
end

