-- ==== Sys2Proof/Machine/Supervision.lean ====
section
/-! DEFINITION. Supply and clock supervision: slowing the clocks (R488 to R491), the clock monitor (R429, R487), rail and
temperature holds (R430, R492, R522), AVSBus telemetry (R493), and lockstep mismatches (R425, R426). -/

namespace Sys2Proof.Machine

/-! ### Slowing the clocks -/

/-- Every command in its count meets a slowed clock (R491), and so does the DRAM window (R310). -/
def State.markSlow (s : State) : State :=
  let s := allUnits.foldl (fun s u => match (s.unit u).run with
    | some p => if p.stage == .running then s.loosenIf u p true else s
    | none => s) s
  { s with dram := { s.dram with slowSeen := true } }

/-- Root cycles of a stretch that a halving takes over: 11 for each nominal tick since it began, where within the two ticks it
began and ended is free (log 85). -/
def State.stretchSoFar (s : State) : Nat :=
  if s.power.stretch then 11 * (s.tu.wall - s.power.stretchAt) + 22 - (Config.freeCycle s.freeCtr).toNat % 45 else 0

/-- The halving begins while PWR_WARN_N is low and the root PLL runs, and takes over a stretch, whose root cycles so far count in
the DROOP event (R488 to R490). -/
def State.halve (s : State) : State :=
  if !s.power.warnLow || !s.rootOn || s.power.halved then s
  else
    let add := s.stretchSoFar
    let s := { s with
      freeCtr := s.freeCtr + 1
      power := { s.power with
        halved := true
        halvedAt := s.tu.wall
        stretch := false
        stretchCycles := s.power.stretchCycles + add }
      tu := { s.tu with halved := true }
      hoop := { s.hoop with halveEdge := true } }
    s.markSlow.event .halveStart []

/-- PWR_WARN_N_FALL (R481, R488): the clocks are halved, and Hoop writes a counter entry. -/
def execPwrWarnNFall (s : State) : Result :=
  let s := ({ s with power := { s.power with warnLow := true } }).halve
  .next (if s.hoopRuns && s.power.phase != .off then { s with evr := s.evr.entry } else s)

/-- PWR_WARN_N_RISE (R488). -/
def execPwrWarnNRise (s : State) : Result := .next { s with power := { s.power with warnLow := false } }

/-- HALVE_END (R488): PWR_WARN_N has been high for 10 µs; the event carries the µs since its fall. In Park PWR_WARN_N is not
served (R499). -/
def execHalveEnd (s : State) : Result :=
  if !s.power.halved || s.power.warnLow || s.power.st == 5 then .next s
  else
    let us := (s.tu.wall - s.power.halvedAt) / 400
    let s := { s with
      power := { s.power with halved := false }
      tu := { s.tu with halved := false }
      hoop := { s.hoop with halveEdge := true } }
    .next (s.event .halveEnd (words [us]))

/-- The VDD_CORE target in µV (R493): 0.750 V until the AVSBus write. -/
def State.coreTarget (s : State) : Nat := if s.power.avsWritten then 725000 + 5000 * s.id.avsCode else 750000

/-- Is VDD_CORE at `uv` µV below the stretch threshold, target × 0.94 (R489, R492). -/
def State.stretchBelow (s : State) (uv : Nat) : Bool := decide (100 * uv < 94 * s.coreTarget)

/-- DROOP (R489, R490): VDD_CORE crosses to `uv` µV, below the stretch threshold. A crossing is counted; outside a halving it
stretches the clocks. -/
def execDroop (uv : Nat) (s : State) : Result :=
  if !s.rootOn || !s.stretchBelow uv then .next s
  else
    let s := { s with power := { s.power with vddLow := true, stretchCount := s.power.stretchCount + 1 } }
    if s.power.halved then .next s
    else .next ({ s with
      power := { s.power with stretch := true, stretchAt := if s.power.stretch then s.power.stretchAt else s.tu.wall }
      hoop := { s.hoop with stretchSeen := true } }).markSlow

/-- DROOP_END (R489): VDD_CORE, at `uv` µV, has been back above the threshold for 64 root cycles; a stretch that a halving took
over has ended already. -/
def execDroopEnd (uv rootCycles : Nat) (s : State) : Result :=
  if s.stretchBelow uv then .next s else
  let add := if s.power.stretch then rootCycles else 0
  .next { s with power := { s.power with
    vddLow := false
    stretch := false
    stretchCycles := s.power.stretchCycles + add } }

/-! ### Holds of the compute domain -/

/-- A rail hold begins (R430, R489). -/
def State.railHolds (s : State) : State :=
  if s.hoop.railHold then s
  else
    let s := ({ s with hoop := { s.hoop with railHold := true } }).stopDomain
    (((s.hoopErr 4).event .railHold []).detectReset 0 none none 4).sendEnter

/-- STRETCH_LIMIT (R489): a stretch of 50 µs becomes a rail hold. -/
def execStretchLimit (s : State) : Result :=
  if s.power.stretch && s.hoopRuns then .next s.railHolds else .next s

/-- Nominal of a rail in µV (R512). -/
def State.railNominal (s : State) : Rail → Nat
  | .core => s.coreTarget
  | .sram => 850000
  | .ao => 800000
  | .ddrq => 500000
  | .ddra => 900000
  | .serdes => 850000
  | .serdesH => 1200000
  | .csi => 1200000
  | .io => 1800000
  | .pll => 900000

/-- Hold thresholds of a rail in µV, below and above (R492). -/
def State.railHold (s : State) (r : Rail) : Nat × Nat :=
  let n := s.railNominal r
  match r with
  | .core => (n * 90 / 100, n * 110 / 100)
  | .sram => (790000, 920000)
  | .ao => (740000, 870000)
  | _ => (n * 93 / 100, n * 107 / 100)

/-- RAIL_THRESHOLD (R430, R492): a rail has been at `uv` µV for the filter time. Below 0.740 V of VDD_AO the hardware path of
R426 asserts ERR_OUT_N (R494). -/
def execRailThreshold (r : Rail) (uv : Nat) (s : State) : Result :=
  let t := s.railHold r
  if t.1 ≤ uv ∧ uv ≤ t.2 || !s.hoopRuns then .next s
  else
    let s := { s with hoop := { s.hoop with railsOut := if s.hoop.railsOut.contains r then s.hoop.railsOut else s.hoop.railsOut ++ [r] } }
    .next s.railHolds

/-- RAIL_RECOVER (R430): rails and temperature have been inside their limits for 1 ms. -/
def execRailRecover (s : State) : Result :=
  if s.hoop.tempOver || s.power.stretch || !s.hoopRuns then .next s
  else .next { s with hoop := { s.hoop with railsOut := [], railHold := false, tempHold := false } }

/-- The field of a reading in quarter degrees (R523): VALID, and TEMP held at its end values. -/
def tempWord (q : Int) : BitVec 16 := BitVec.ofNat 16 (0x8000 + wrapNat 11 (clampInt (-1024) 1023 q))

/-- TEMPERATURE_READ (R430, R522, R523): above 128 °C on any sensor holds the compute domain; at 120 °C or less on every sensor
the temperature is back. -/
def execTemperatureRead (quarterDegrees : List Int) (s : State) : Result :=
  if quarterDegrees.length ≠ 24 ∨ s.hoopRuns = false then .next s
  else
    let s := { s with power := { s.power with temps := Vector.ofFn fun i => tempWord (quarterDegrees.getD i.val 0) } }
    if quarterDegrees.any fun q => decide (512 < q) then
      let s := { s with hoop := { s.hoop with tempOver := true } }
      if s.hoop.tempHold then .next s
      else
        let s := ({ s with hoop := { s.hoop with tempHold := true } }).stopDomain
        .next (((s.hoopErr 5).event .tempHold []).detectReset 0 none none 5).sendEnter
    else if quarterDegrees.all fun q => decide (q ≤ 480) then .next { s with hoop := { s.hoop with tempOver := false } }
    else .next s

/-! ### Clock monitor (R429, R487) -/

/-- A clock fault: its HOOP_ERR bits, and the hold from the first one on. -/
def State.clockFault (s : State) (bits : List Nat) : State :=
  let s := bits.foldl (fun s b => s.hoopErr b) s
  let s := { s with hoop := { s.hoop with goodWindows := 0 } }
  if s.hoop.clockHold then s
  else ((({ s with hoop := { s.hoop with clockHold := true } }).stopDomain).detectReset 0 none none (bits.headD 2)).sendEnter

/-- The HOOP_ERR bits that a window's counts set: 2 for the frequency, 3 for a ratio (R429, R433). -/
def State.windowFaults (s : State) (fclk aclk cclk tclk : Nat) : List Nat :=
  let low := if s.power.halved || s.hoop.halveEdge then 5500 else 11000
  let high := if s.power.halved && !s.hoop.halveEdge then 5500 else 11000
  let stretched := s.power.stretch || s.hoop.stretchSeen
  let off := fun (a b lim : Nat) => decide (max a b - min a b > lim)
  (if fclk * 100 > high * 101 || (fclk * 100 < low * 97 && !stretched) then [2] else []) ++
  (if off aclk (2 * fclk) 2 || off (2 * cclk) fclk 4 || off (11 * tclk) (4 * fclk) 22 then [3] else [])

/-- CLOCK_WINDOW (R429): 250 AO_XTAL cycles end, while the root PLL runs; 100 windows that pass end a clock hold. -/
def execClockWindow (fclk aclk cclk tclk : Nat) (s : State) : Result :=
  if !s.rootOn || !s.hoopRuns then .next s
  else
    let bits := s.windowFaults fclk aclk cclk tclk
    let s := { s with hoop := { s.hoop with halveEdge := false, stretchSeen := s.power.stretch } }
    if !bits.isEmpty then .next (s.clockFault bits)
    else if s.hoop.clockHold then
      let n := s.hoop.goodWindows + 1
      .next { s with hoop := { s.hoop with goodWindows := n, clockHold := decide (n < 100), pllLost := s.hoop.pllLost && decide (n < 100) } }
    else .next s

/-- PLL_LOCK_LOSS (R487): a clock fault at once. -/
def execPllLockLoss (s : State) : Result :=
  if !s.rootOn || !s.hoopRuns then .next s
  else .next (({ s with hoop := { s.hoop with pllLost := true } }).clockFault [2])

/-! ### Lockstep, AVSBus, DRAM windows, ERR_OUT_N -/

/-- OSIER_LOCKSTEP_MISMATCH (R425). -/
def execOsierLockstepMismatch (s : State) : Result :=
  if s.hoopRuns then .next ((s.hoopErr 1).detectReset 1 none none 0) else .next s

/-- HOOP_LOCKSTEP_MISMATCH (R426): the hardware path asserts ERR_OUT_N and holds the compute domain in reset; only a cold boot
clears it. -/
def execHoopLockstepMismatch (s : State) : Result :=
  if s.power.st = 5 then .next s
  else
    let s := (s.hoopErr 0).assertErr 0 true
    .next ({ s with hoop := { s.hoop with hoopLs := true } }).stopDomain

/-- AVS_TELEMETRY (R493): a poll that is not acknowledged, or differs from the on-die monitor by more than 15 mV. Protil polls once
it has made its write, while its clocks run. -/
def execAvsTelemetry (acked : Bool) (telemetryUv monitorUv : Nat) (s : State) : Result :=
  if s.power.phase != .up || 3 ≤ s.power.st || s.hoop.hoopLs then .next s else
  let off := decide (max telemetryUv monitorUv - min telemetryUv monitorUv > 15000)
  .next { s with power := { s.power with avsErr := s.power.avsErr || !acked || off } }

/-- DRAM_WINDOW_END (R310): while the schedule runs. -/
def execDramWindowEnd (s : State) : Result :=
  if !s.dram.ready || s.dram.selfRefresh then .next s
  else .next { s with dram := { s.dram with
    windows := s.dram.windows + 1#32
    clkSlowed := s.dram.clkSlowed || s.dram.slowSeen || s.slowed
    slowSeen := s.slowed } }

/-- ERR_OUT_MIN_HOLD (R428, R499): the 100 µs are over; in Park the pin keeps its level. -/
def execErrOutMinHold (s : State) : Result := if s.power.st = 5 then .next s else .next ({ s with hoop := { s.hoop with minHold := false } }).releaseErr

/-! ### HOOP_KICK (R448, R469) -/

/-- A write of HOOP_KICK: Protil only. -/
def State.writeKick (s : State) (m : Nat) (v : Word) : State :=
  if m = 0x02 ∧ bitAt v 0 then { s with hoop := { s.hoop with sinceKick := 0 } } else s

/-- HOOP_KICK. -/
def execHoopKick (master : Byte) (v : Word) (s : State) : Result := .next (s.writeKick master.toNat v)

end Sys2Proof.Machine
end

