-- ==== Sys2Proof/Machine/Restore.lean ====
section
/-! DEFINITION. What resets, power states and boots share: tally tests that are due again
(R446, R498), the ties and intake streams of a context set from its restart table (R456, R498), and contexts under Protil's
service loop (R436, R461). -/

namespace Sys2Proof.Machine

/-! ### Tally tests -/

/-- Every enabled unit that is not quarantined owes its tally test; Riddle and Skep start theirs (R349, R498). -/
def State.pendTests (s : State) : State :=
  allUnits.foldl (fun s u => s.modUnit u fun x =>
    let on := s.enabled u && !x.regs.quarantine
    { x with
        tallyRunning := on && testsInIdle u && s.slotSeven u
        tallyOld := false
        regs := { x.regs with tallyPending := on } }) s

/-! ### Stores -/

/-- Keep the lines whose key passes `p`. -/
def State.keepLines (s : State) (p : Nat → Bool) : State := { s with mem := sparseFilter p s.mem, tags := sparseFilter p s.tags }

/-- Is a key that of a creel line, of a hamper line. -/
def isCreel (k : Nat) : Bool := 0x110000000 ≤ k && k < 0x110100000
@[inherit_doc isCreel] def isHamper (k : Nat) : Bool := 0x100000000 ≤ k && k < 0x100080000
@[inherit_doc isCreel] def isDram (k : Nat) : Bool := k < 0x10000000

/-! ### Intake (R456, R498) -/

/-- The value of a tie of the restart table for frame `f`. -/
def restartValue (l : List TieLine) (t f : Nat) : Word :=
  match l.find? fun e => e.tie == t with
  | some e => e.e + e.s * BitVec.ofNat 32 f
  | none => 0#32

/-- Set every tie of the range of context `c` for its frame from the restart table, and let its intake streams resume at the
restart values of their TIE_IN (R456, R498). -/
def State.restart (s : State) (c : Nat) : State :=
  let x := s.ctx c
  match x.img with
  | none => s
  | some g =>
    let f := x.frame.toNat
    let s := s.clearTies x.tieBase x.tieCount
    let s := g.restart.foldl (fun s e => if x.ownsTie e.tie then s.tieSet e.tie (restartValue g.restart e.tie f) else s) s
    let s := camSlots.foldl (fun s j => s.modCam j.1 j.2 fun y => match y.desc with
      | some d => if y.ctx = c then { y with n := (restartValue g.restart (camTieIn d) f).toNat, msRead := [] } else y
      | none => y) s
    { s with lidars := s.lidars.map fun y => match y.desc with
        | some d => if y.ctx = c then { y with s := (restartValue g.restart (lidTieIn d) f).toNat } else y
        | none => y }

/-! ### Protil's service loop (R436, R461) -/

/-- A context under the service loop: its ring is closed, its frame is gone, and its graph is out of service (R324). -/
def Ctx.serviceOnly (x : Ctx) : Ctx :=
  { x with
      state := if x.state = .free then .free else .stopped
      ring := none
      run := none
      reqs := []
      waitPkt := []
      prelude := 0
      live := [] }

/-- The device serves its admin ring only: every unit domain is in reset, context rings are closed, and what the admin ring
waits for is answered with a status. -/
def State.serviceOnly (s : State) (st : Status) : State :=
  let waits := s.ctxs.flatMap fun x => (x.2.waitPkt.filter fun w => w.admin && !w.silent).map fun w => (x.1, w)
  let s := s.stopDomain
  let s := { s with
    disp := { s.disp with replays := [], slices := Vector.replicate 16 none }
    hoop := { s.hoop with abandoned := [] } }
  let s := (s.ctxs.map (·.1)).foldl (fun s c => s.modCtx c Ctx.serviceOnly) s
  State.writeWaiting 0 64 (waits.foldl (fun s y =>
    s.queueReply 0 (s.packetReply st.code y.1 y.2.seq (if y.2.isAbort then y.2.frame else 0) y.2.noirq)) s)

end Sys2Proof.Machine
end

