-- ==== Sys2Proof/Machine/Power.lean ====
section
/-! DEFINITION. Power states (R495 to R499): requests, entry step by step, wake events and exits. -/

namespace Sys2Proof.Machine

/-- Does a Skep sample have its bound mover at work (R270): it decodes or is emitted, and waits for nothing. -/
def State.skepMoves (s : State) : Bool :=
  ([0, 1] : List (Fin 2)).any fun i => (s.skep i).slots.toList.any fun o => match o with
    | some x => (x.phase == .decoding || x.phase == .emitting) && !s.slotWaits i x
    | none => false

/-- Is a power-state request refused (R496): a context in RUN, a command queued or running, a mover active, or a link transfer
posted. -/
def State.powerBusy (s : State) : Bool :=
  s.skepMoves ||
  s.ctxs.any (fun x => x.2.state == .run || x.2.prelude != 0) || !s.disp.replays.isEmpty ||
  s.units.toList.any (fun x => x.run.isSome) || s.links.toList.any fun x => !x.posted.isEmpty || x.rx.isSome || !x.xq.isEmpty || x.txOwner.isSome

/-- Protil takes up a request for a state below the present one (R496). -/
def State.powerEnter (s : State) (r : Nat) : State :=
  if s.powerBusy then { s with power := { s.power with refused := true, entering := none } }
  else { s with power := { s.power with entering := some r } }

/-- A write of PWR_CTRL (R496, R497, R509) by master 0x01 or 0x02. A request during an exit waits for Run. -/
def State.writePwrCtrl (s : State) (m : Nat) (v : Word) : State :=
  let r := fieldNat v 0 3
  if (m ≠ 0x01 ∧ m ≠ 0x02) ∨ 5 < r then s
  else
    let s := { s with power := { s.power with req := r } }
    if r = 0 then ({ s with power := { s.power with entering := none } }).wakeUp false
    else if s.power.exiting then { s with power := { s.power with entering := some r } }
    else if r ≤ s.power.st then s
    else s.powerEnter r

/-- PWR_CTRL_REQ. -/
def execPwrCtrlReq (master : Byte) (v : Word) (s : State) : Result := .next (s.writePwrCtrl master.toNat v)

/-! ### Entry -/

/-- The links go OFF (R495, R499). -/
def State.linksOff (s : State) : State :=
  ((List.finRange 6).foldl (fun s l => if (s.link l).st = 0 then s else s.linkLeave l 0) s).refollow

/-- Nap: links OFF, the logic state of the units is lost (R495). -/
def State.enterNap (s : State) : State := s.linksOff.stopDomain

/-- Doze: self-refresh; creels, ties and all of the hamper but slice 0 are lost (R495). -/
def State.enterDoze (s : State) : State :=
  let s := s.keepLines fun k => !isCreel k && !(isHamper k && (k - 0x100000000) % 32 != 0)
  let s := { s with ties := [], dram := { s.dram with selfRefresh := true, ready := false }, hoop := { s.hoop with dozeMs := 0 } }
  (s.ctxs.map (·.1)).foldl (fun s c => s.modCtx c fun x => { x with live := [] }) s

/-- Sleep: the hamper is lost and every context becomes FREE (R495). -/
def State.enterSleep (s : State) : State := s.freeContexts.keepLines fun k => !isHamper k

/-- Park: the PCIe link goes down; without PARK_DRAM the DRAM loses its contents (R495). -/
def State.enterPark (s : State) : State :=
  let keep := match s.power.image with
    | some i => i.config.parkDram
    | none => false
  let s := s.linkDown
  if keep then s
  else
    let s := s.keepLines fun k => !isDram k
    { s with dram := { s.dram with selfRefresh := false } }

/-- POWER_STATE_STEP (R496): one step deeper. -/
def execPowerStateStep (s : State) : Result :=
  match s.power.entering with
  | none => .next s
  | some t =>
    if s.power.exiting || t ≤ s.power.st then .next s
    else if s.power.st ≤ 1 && s.powerBusy then .next (s.powerEnter t)
    else
      let n := s.power.st + 1
      let s := if n = 2 then s.enterNap else if n = 3 then s.enterDoze else if n = 4 then s.enterSleep
        else if n = 5 then s.enterPark else s
      .next { s with power := { s.power with st := n, entering := if n = t then none else some t } }

/-- WAKE_N (R497). -/
def execWakeN (s : State) : Result := .next (s.wakeUp true)

/-! ### Exit -/

/-- The elapsed AO_XTAL time of an exit from Doze or a deeper state, as one pending step (R498). -/
def aoStep (ticks : Nat) : Int × Int := ((ticks * 40 / 1000000000 : Nat), (ticks * 40 % 1000000000 * 2 ^ 32 : Nat))

/-- Operating hours run on in Park while Hoop is stopped (R481, R495): of the AO_XTAL periods since Doze was entered, those that
Hoop's milliseconds have not counted; 25,000 periods are a millisecond, and what is left over waits for the next Park. -/
def State.parkHours (s : State) (aoTicks : Nat) : State :=
  let left : Int := s.hoop.aoRest + aoTicks - 25000 * s.hoop.dozeMs
  let gone := (left / 25000).toNat
  let ms := s.hoop.subSecond + gone
  let h := s.evr.hours + BitVec.ofNat 32 (ms / 1000)
  { s with
      hoop := { s.hoop with subSecond := ms % 1000, aoRest := left - 25000 * gone }
      evr := { s.evr with hours := h, entryDue := s.evr.entryDue || decide (60 ≤ (h - s.evr.entered).toNat) } }

/-- What returns on an exit from state `from_` (R495, R498). -/
def State.exitFrom (s : State) (from_ aoTicks : Nat) : State :=
  let s := if from_ ≥ 2 then
      let s := (List.finRange 6).foldl (fun s l =>
        if (s.link l).en && (s.peerOf l.val).isSome then s.modLink l fun x => { x with st := 1, fails := 0, failed := false } else s) s
      s.pendTests
    else s
  let s := if from_ ≥ 3 then { s with
      dram := { s.dram with selfRefresh := false, ready := s.dram.en && !s.dram.trainFail }
      tu := { s.tu with pending := some (aoStep aoTicks), wall := s.tu.wall + 16 * aoTicks } }
    else s
  let s := if from_ = 3 then
      (s.ctxs.map (·.1)).foldl (fun s c =>
        let s := if (s.ctx c).state = .loaded then s.restart c else s
        s.modCtx c fun x => match x.state, x.img with
          | .loaded, some g => { x with prelude := g.prelude.length }
          | _, _ => x) s
    else s
  (if from_ = 5 then s.parkHours aoTicks else s).halve

/-- POWER_STATE_EXIT (R497, R498): the chip is in Run; a request that arrived during the exit is taken up. -/
def execPowerStateExit (aoTicks : Nat) (s : State) : Result :=
  if !s.power.exiting then .next s
  else
    let from_ := s.power.st
    let s := { s with power := { s.power with st := 0, exiting := false } }
    let s := (s.exitFrom from_ aoTicks).fsrSend
    match s.power.entering with
    | none => .next s
    | some r => .next (s.powerEnter r)

/-! ### JTAG (R517) -/

/-- JTAG_INSTRUCTION: while POR_N is low every instruction, else IDCODE and BYPASS only. IDCODE gives PART and STEPPING. -/
def execJtagInstruction (kind : JtagKind) (ir : Nat) (s : State) : Result :=
  let ok := s.power.porLow || kind != .other
  let s := (if ok then { s with power := { s.power with jtag := ir } } else s).emit (.jtag ok)
  .next (if kind = .idcode then s.emit (.idcode (s.devId / 2 ^ 16) (s.devId / 2 ^ 8 % 16)) else s)

end Sys2Proof.Machine
end

