-- ==== Sys2Proof/Machine/TimeRows.lean ====
section
/-! DEFINITION. The time unit's registers and pins (R470 to R474, R477). -/

namespace Sys2Proof.Machine

/-- May a master write the time unit (R477). -/
def tuMaster (m : Nat) : Bool := m == 0x02 || m == 0x03

/-- The step of TU_STEP_S and TU_STEP_NS, where TU_STEP_NS is in range (R471). -/
def TimeUnit.stagedStep (t : TimeUnit) : Option (Int × Int) :=
  if -999999999 ≤ t.stepNs.toInt ∧ t.stepNs.toInt ≤ 999999999 then some (t.stepS.toInt, t.stepNs.toInt * 4294967296) else none

/-- A write of TU_CTRL (R471, R474, R476, R477): PPS_W of 0 is out of range; clearing PPS_EN cuts a pulse off and leaves the pin at
high impedance, setting it drives the pin low; a step replaces a pending one and is ignored under FOLLOW. -/
def State.writeTuCtrl (s : State) (m : Nat) (v : Word) : State :=
  if !tuMaster m then s
  else
    let t := s.tu
    let en := bitAt v 1
    let step := if bitAt v 0 && !t.follow then t.stagedStep else none
    let t := { t with
      ppsW := if fieldNat v 8 8 = 0 then t.ppsW else fieldNat v 8 8
      ppsEn := en
      ppsHigh := t.ppsHigh && en
      pending := match step with
        | some p => some p
        | none => t.pending }
    { s with tu := t, out := if en == s.tu.ppsEn then s.out else s.out ++ [.pps (if en then some false else none)] }

/-- Is an increment within 1,000 ppm of nominal (R470). -/
def incOk (i : Nat) : Bool := 0x27F5C28F6 ≤ i && i ≤ 0x280A3D70A

/-- A write of TU_INC_FRAC stages its value (R477). -/
def State.writeIncFrac (s : State) (m : Nat) (v : Word) : State :=
  if !tuMaster m || s.tu.follow then s else { s with tu := { s.tu with stagedFrac := v } }

/-- A write of TU_INC_NS applies NS with the staged fraction (R470, R477). -/
def State.writeIncNs (s : State) (m : Nat) (v : Word) : State :=
  let i := fieldNat v 0 4 * 2 ^ 32 + s.tu.stagedFrac.toNat
  if !tuMaster m || s.tu.follow || !incOk i then s else { s with tu := { s.tu with inc := i, incP := i } }

/-- TU_CTRL_STEP. -/
def execTuCtrlStep (master : Byte) (v : Word) (s : State) : Result := .next (s.writeTuCtrl master.toNat v)

/-- TU_INC_NS. -/
def execTuIncNs (master : Byte) (v : Word) (s : State) : Result := .next (s.writeIncNs master.toNat v)

/-- TU_INC_FRAC. -/
def execTuIncFrac (master : Byte) (v : Word) (s : State) : Result := .next (s.writeIncFrac master.toNat v)

/-- A read of TU_NOW_FRAC latches the rest of the time for the reading master (R477). -/
def State.latchNow (s : State) (m : Nat) : State :=
  { s with tu := { s.tu with shadow := sparsePut 0#96 s.tu.shadow m s.nowWord } }

/-- TU_NOW_FRAC. -/
def execTuNowFrac (master : Byte) (s : State) : Result :=
  if !s.reaches master.toNat 0x810000 then .next s
  else .next ((s.latchNow master.toNat).emit (.readData master.toNat (toBytes s.tu.frac 4)))

/-! ### Seconds and pins -/

/-- The time unit `n` ticks later, where none of them crosses a second boundary and no step is pending. -/
def TimeUnit.skip (t : TimeUnit) (n : Nat) : TimeUnit :=
  let q := t.ns * 2 ^ 32 + t.frac.toNat + n * (if t.halved then 2 * t.inc else t.inc)
  { t with ns := q / 2 ^ 32, frac := BitVec.ofNat 32 q, ticks := t.ticks + n }

/-- Ticks before the one that crosses the next second boundary. -/
def TimeUnit.ticksLeft (t : TimeUnit) : Nat :=
  let inc := if t.halved then 2 * t.inc else t.inc
  (1000000000 * 2 ^ 32 - 1 - (t.ns * 2 ^ 32 + t.frac.toNat)) / max 1 inc

/-- What the block does when no command waits: one TCLK tick, while TCLK runs. A frame whose first command was released within
the tick that ends notes it (R371). -/
def idleTick (s : State) : State := if s.rootOn then s.noteReleases.tickTime else s

/-- SECOND_CARRY (R470, R474): TCLK runs up to and with the tick that crosses the next second boundary; a pending step is
applied by the first tick. -/
def execSecondCarry (s : State) : Result :=
  if !s.rootOn then .next s
  else
    let s := s.noteReleases
    let s := if s.tu.pending.isSome then s.tickTime else s
    let n := s.tu.ticksLeft
    .next ({ s with tu := { s.tu.skip n with wall := s.tu.wall + n * s.tickWall } }).tickTime

/-- PPS_OUT_END (R474). -/
def execPpsOutEnd (s : State) : Result :=
  if s.tu.ppsHigh then .next (({ s with tu := { s.tu with ppsHigh := false } }).emit (.pps (some false))) else .next s

/-- PPS_IN (R473, R474): the rising edge is captured while TCLK runs (R495); one less than 1 µs, 400 nominal ticks, after the last
taken is ignored. -/
def execPpsIn (phase : Nat) (s : State) : Result :=
  if !s.rootOn then .next s else
  let q := s.stampQ phase
  let now := 80 * s.tu.wall + phase * s.tickWall
  let near := match s.tu.ppsinAt with
    | some p => decide (now - p < 32000)
    | none => false
  if near then .next s
  else
    let st := stampOf q
    .next { s with tu := { s.tu with
      ppsinNew := true
      ppsinAt := some now
      ppsinFrac := BitVec.ofNat 32 st.frac
      ppsinNs := BitVec.ofNat 32 st.ns
      ppsinSec := BitVec.ofNat 48 st.sec } }

end Sys2Proof.Machine
end

