-- ==== Sys2Proof/Machine/Training.lean ====
section
/-! DEFINITION. Enabling and training a link (R384, R385, R388, R412). -/

namespace Sys2Proof.Machine

/-- May a master write the link, time and safety registers that only the Osier cluster and Hoop write (R412, R477). -/
def osierOrHoop (master : Byte) : Bool := master == 0x02#8 || master == 0x03#8

/-- A write of LNK_CTRL (R384, R412): EN cleared turns the link OFF, EN set on an OFF link of the topology starts its
training, RETRAIN takes it down and trains it from DETECT. A link that the topology does not use stays OFF. -/
def State.writeLnkCtrl (s : State) (l : Fin 6) (v : Word) : State :=
  let en := bitAt v 0
  let s := s.modLink l fun x => { x with en := en }
  if !en then (if (s.link l).st = 0 then s else (s.linkLeave l 0).modLink l fun x => { x with fails := 0, failed := false })
  else if (s.peerOf l.val).isNone then s
  else if (s.link l).st = 0 ∨ bitAt v 1 then
    (s.linkLeave l 1).modLink l fun x => { x with fails := 0, failed := false }
  else s

/-- RETRAIN (R384, R400, R412): LNK_CTRL written with RETRAIN = 1. -/
def execRetrain (master : Byte) (l : Fin 6) (v : Word) (s : State) : Result :=
  if osierOrHoop master && bitAt v 1 then .next (s.writeLnkCtrl l v).tryHalves else .next s

/-- LINK_ENABLE (R384, R412): LNK_CTRL written with RETRAIN = 0. -/
def execLinkEnable (master : Byte) (l : Fin 6) (v : Word) (s : State) : Result :=
  if osierOrHoop master && !bitAt v 1 then .next (s.writeLnkCtrl l v).tryHalves else .next s

/-- Is a link in one of its training states, and neither held nor failed. -/
def LinkState.training (x : LinkState) : Bool := 1 ≤ x.st && x.st ≤ 4 && !x.wiring && !x.failed

/-- TRAINING_TIMEOUT (R384): back to DETECT; the third failed attempt leaves the link down. -/
def execTrainingTimeout (l : Fin 6) (s : State) : Result :=
  let x := s.link l
  if !x.training then .next s
  else
    let n := x.fails + 1
    let s := s.modLink l fun y => { y with st := 1, fails := n, failed := decide (n ≥ 3) }
    if n ≥ 3 then .next (s.event (.linkDown l.val) []) else .next s

/-- TRAINING_STATE_EXIT (R384, R385, R388): the exit condition of the state is met. In IDENT the peer's values must be
those of the wiring; otherwise the link is held there with WIRING set. -/
def execTrainingStateExit (l : Fin 6) (peer : Ident) (s : State) : Result :=
  let x := s.link l
  if !x.training then .next s
  else if x.st < 4 then .next (s.modLink l fun y => { y with st := y.st + 1 })
  else
    let ok := s.peerOf l.val = some (peer.chip.toNat, peer.link) ∧ peer.topo = s.fabric.topo ∧ peer.nm1 = s.fabric.nm1
    let s := s.modLink l fun y => { y with peer := peer.chip.toNat }
    if ok then .next ((s.modLink l fun y => { y with st := 5, fails := 0 }).refollow)
    else .next (s.modLink l fun y => { y with wiring := true })

end Sys2Proof.Machine
end

