-- ==== Sys2Proof/Machine/Registers.lean ====
section
/-! DEFINITION. The register space (R10, R11, R19, R20): what each register reads as, and what a write to it does. Reserved bits
and unassigned offsets read 0 and ignore writes; a field of a locked block and a value out of range keep their value. -/

namespace Sys2Proof.Machine

/-! ### Reads -/

/-- Status bits 2 to 0 of a unit's status register (R101). -/
def UnitRegs.flags (r : UnitRegs) : Nat := 4 * boolNat r.unverified + 2 * boolNat r.tallyPending + boolNat r.busy

/-- A status register with LAST_STATUS (R101, R204, R233, R323). -/
def UnitRegs.status (r : UnitRegs) : Word := BitVec.ofNat 32 (r.lastStatus % 256 * 2 ^ 24 + r.flags) ||| r.sticky

/-- The registers that every command-running unit has, +0x00 to +0x1C. -/
def UnitRegs.read (r : UnitRegs) (o : Nat) : Word :=
  match o with
  | 0x00 => BitVec.ofNat 32 (boolNat r.quarantine)
  | 0x04 => r.status
  | 0x08 => r.cmd
  | 0x0C => r.decl
  | 0x10 => r.used
  | 0x14 => r.fault
  | 0x18 => r.faultAddr
  | 0x1C => r.stat
  | 0x20 => r.ahi
  | _ => 0#32

/-- A tensor core's block (R100, R101). -/
def State.readTc (s : State) (n : Fin 16) (o : Nat) : Word :=
  if !s.enabled (.tc n) then 0#32
  else match o with
    | 0x1C => (s.core n).rim
    | 0x20 => (s.core n).satInfo
    | _ => (s.unit (.tc n)).regs.read o

/-- The bits `p i`, for `i < n`, as a number. -/
def bitsWord (n : Nat) (p : Nat → Bool) : Nat := (List.range n).foldl (fun v i => v + boolNat (p i) * 2 ^ i) 0

/-- A Riddle block (R261). -/
def State.readRid (s : State) (i : Fin 2) (o : Nat) : Word :=
  let r := (s.unit (.rid i)).regs
  if o = 0 then BitVec.ofNat 32 (boolNat r.quarantine)
  else if o = 4 then
    BitVec.ofNat 32 (bitsWord 12 (fun k => if h : k < 12 then (s.cam i ⟨k, h⟩).enabled else false) * 2 ^ 12 +
      4 * boolNat r.unverified + 2 * boolNat r.tallyPending) ||| r.sticky
  else if h : 0x100 ≤ o ∧ (o - 0x100) / 16 < 12 then
    let x := s.cam i ⟨(o - 0x100) / 16, h.2⟩
    match o % 16 with
    | 0 => x.good
    | 4 => x.fail
    | 8 => BitVec.ofNat 32 (x.lastCause % 256 * 2 ^ 24 + x.corr % 2 ^ 16)
    | 12 => x.roi
    | _ => 0#32
  else 0#32

/-- A Skep block (R291). -/
def State.readSkp (s : State) (i : Fin 2) (o : Nat) : Word :=
  let r := (s.unit (.skp i)).regs
  let x := s.skep i
  let busy := bitsWord 8 fun k => (x.slots.toList.getD k none).isSome
  match o with
  | 0x000 => BitVec.ofNat 32 (boolNat r.quarantine)
  | 0x004 => BitVec.ofNat 32 (busy * 2 ^ 16 + 4 * boolNat r.unverified + 2 * boolNat r.tallyPending + boolNat (busy != 0)) ||| r.sticky
  | 0x100 => x.done
  | 0x104 => x.fail
  | 0x108 => x.hit
  | 0x10C => x.cbad
  | _ => 0#32

/-- An engine of R20, by index. -/
def engineOf (i : Nat) : Option UnitId := allUnits.find? fun u => engIndex u == some i

/-- An engine's block. -/
def State.readEngine (s : State) (i o : Nat) : Word :=
  match engineOf i with
  | some (.rid n) => s.readRid n o
  | some (.skp n) => s.readSkp n o
  | some u => if o = 0x20 then 0#32 else (s.unit u).regs.read o
  | none => 0#32

/-- A link's block (R412). -/
def State.readLink (s : State) (l : Fin 6) (o : Nat) : Word :=
  let x := s.link l
  match o with
  | 0x00 => BitVec.ofNat 32 (boolNat x.en)
  | 0x04 => BitVec.ofNat 32 (boolNat x.downEvent * 2 ^ 10 + boolNat x.replaySeen * 2 ^ 9 + boolNat x.crcSeen * 2 ^ 8 +
      boolNat x.wiring * 2 ^ 7 + boolNat x.failed * 2 ^ 6 + x.peer % 8 * 2 ^ 3 + x.st % 8)
  | 0x08 => x.replay
  | 0x0C => x.crcErr
  | 0x10 => x.digest
  | 0x14 => x.refused
  | 0x18 => x.delay
  | _ =>
    if l.val ≠ 0 then 0#32
    else match o with
      | 0x800 => BitVec.ofNat 32 (s.fabric.nm1 % 8 * 2 ^ 4 + s.fabric.topo % 4 * 2 ^ 2 + boolNat s.fabric.en)
      | 0x804 => BitVec.ofNat 32 (boolNat s.fabric.lock)
      | 0x808 => BitVec.ofNat 32 (bitsWord 6 (fun k => if h : k < 6 then (s.link ⟨k, h⟩).active else false) * 2 ^ 8 +
          bitsWord 6 (fun k => (s.peerOf k).isSome) * 2 ^ 2 + 2 * boolNat s.timeLocked + boolNat s.formed)
      | _ => 0#32

/-- The DRAM controller (R310). -/
def State.readDdr (s : State) (o : Nat) : Word :=
  let d := s.dram
  match o with
  | 0x0 => BitVec.ofNat 32 (boolNat d.det * 32 + boolNat d.ranks * 16 + d.density % 4 * 4 + boolNat d.rate * 2 + boolNat d.en)
  | 0x4 => BitVec.ofNat 32 (boolNat d.clkSlowed * 8 + boolNat d.trainFail * 4 + boolNat d.selfRefresh * 2 + boolNat d.ready)
  | 0x8 => BitVec.ofNat 32 (boolNat d.lock)
  | 0xC => d.windows
  | _ => 0#32

/-- Bytes 0 to 255 of a context-table entry (R312, R324). -/
def Ctx.bytes (x : Ctx) : List Byte :=
  natToBytes 1 x.state.code ++ natToBytes 1 x.cls ++ natToBytes 1 x.prio ++ natToBytes 1 x.flags ++ natToBytes 4 x.graphId.toNat ++
  natToBytes 4 x.fbId.toNat ++ natToBytes 4 x.frame.toNat ++ natToBytes 4 x.tieBase ++ natToBytes 4 x.tieCount ++
  natToBytes 4 x.deadlineUs.toNat ++ natToBytes 4 x.stallUs.toNat ++ natToBytes 2 x.coreMask.toNat ++ natToBytes 1 x.ncore ++
  natToBytes 1 x.sgroup ++ natToBytes 4 x.owed.toNat ++ natToBytes 8 x.saveBase.toNat ++ natToBytes 8 x.rkey.toNat ++
  natToBytes 8 x.origin.toNat ++ natToBytes 1 x.nq ++ natToBytes 1 x.ckptLast ++ natToBytes 2 x.path ++
  natToBytes 4 x.nFallback.toNat ++ natToBytes 4 x.nUnverified.toNat ++ natToBytes 4 x.originSet.toNat ++ List.replicate 48 0#8 ++
  x.windows.toList.flatMap fun w => natToBytes 8 w.toNat

/-- A mailbox channel (R375, R376): only its two masters read the message and the code. -/
def State.readMbox (s : State) (m : Nat) (ch : Fin 64) (o : Nat) : Word :=
  let x := s.chan ch
  let b := s.binding ch.val
  let mine := b.1 != 0 && (m == b.1 || m == b.2)
  if o < 0x40 then (if mine then x.msg.extractLsb' (8 * o) 32 else 0#32)
  else match o with
    | 0x44 => if mine then x.ack.setWidth 32 else 0#32
    | 0x48 => BitVec.ofNat 32 (boolNat x.foreign * 8 + boolNat x.badOrder * 4 + x.st % 4)
    | 0x4C => BitVec.ofNat 32 (b.2 % 256 * 256 + b.1 % 256)
    | _ => 0#32

/-- The time unit (R477). -/
def State.readTu (s : State) (m o : Nat) : Word :=
  let t := s.tu
  let sh := sparseGet 0#96 t.shadow m
  match o with
  | 0x00 => BitVec.ofNat 32 (t.ppsW % 256 * 256 + boolNat t.ppsEn * 2)
  | 0x04 => BitVec.ofNat 32 (t.ptpDrop % 2 ^ 16 * 2 ^ 16 + boolNat t.incClamp * 16 + boolNat t.stepped * 8 + boolNat t.ppsinNew * 4 +
      boolNat t.halved * 2 + boolNat t.follow)
  | 0x08 => BitVec.ofNat 32 t.inc
  | 0x0C => BitVec.ofNat 32 (t.inc / 2 ^ 32 % 16)
  | 0x10 => t.stepNs
  | 0x14 => t.stepS
  | 0x18 => t.frac
  | 0x1C => sh.extractLsb' 0 32
  | 0x20 => sh.extractLsb' 32 32
  | 0x24 => (sh.extractLsb' 64 16).setWidth 32
  | 0x28 => t.ppsinFrac
  | 0x2C => t.ppsinNs
  | 0x30 => t.ppsinSec.setWidth 32
  | 0x34 => (t.ppsinSec.extractLsb' 32 16).setWidth 32
  | _ => 0#32

/-- The recorder (R482, R484). -/
def State.readEvr (s : State) (m o : Nat) : Word :=
  let r := s.evr
  if 0x8000 ≤ o then s.evrWindow m (o - 0x8000)
  else match o with
    | 0x00 => BitVec.ofNat 32 (min 0xFF r.queue.length * 256 + boolNat r.erasing * 4 + boolNat r.full * 2 + boolNat (r.run && !r.full))
    | 0x04 => BitVec.ofNat 32 r.count
    | 0x08 => BitVec.ofNat 32 r.cap
    | 0x0C => r.drop
    | 0x10 => BitVec.ofNat 32 (s.evrPage m)
    | _ => 0#32

/-- Quarantine of the units of a kind, as bits (R433). -/
def State.quarBits (s : State) (f : UnitId → Option Nat) : Nat :=
  (allUnits.filterMap fun u => if (s.unit u).regs.quarantine then f u else none).foldl (fun v i => v ||| 2 ^ i) 0

/-- Hoop (R433, R469). -/
def State.readHoop (s : State) (o : Nat) : Word :=
  let h := s.hoop
  match o with
  | 0x00 => h.err
  | 0x04 => BitVec.ofNat 32 (boolNat h.errOut * 2 ^ 31 + boolNat h.persist * 2 ^ 30 + h.cause % 32)
  | 0x08 => h.alive
  | 0x0C => h.copyOk.setWidth 32
  | 0x10 => BitVec.ofNat 32 (s.quarBits fun u => match u with
      | .tc n => some n.val
      | _ => none)
  | 0x14 => BitVec.ofNat 32 (s.quarBits fun u => match u with
      | .mv m => some (16 + m.val)
      | _ => engIndex u)
  | 0x20 => h.rstCause
  | 0x24 => BitVec.ofNat 32 (h.rstTotal % 2 ^ 16 * 2 ^ 16 + h.rstInWindow % 16)
  | 0x28 => match h.table2 with
      | some t => t &&& 0xFFFF000F#32
      | none => 0#32
  | 0x2C => h.rstLast
  | 0x30 => h.rstReturn
  | 0x34 => BitVec.ofNat 32 (h.fsrDropped % 2 ^ 16 * 2 ^ 16 + h.fsrs.length % 128)
  | _ => 0#32

/-- Power and clocks (R509, R523). -/
def State.readPwr (s : State) (o : Nat) : Word :=
  let p := s.power
  match o with
  | 0x0 => BitVec.ofNat 32 p.req
  | 0x4 => BitVec.ofNat 32 (s.id.avsCode % 16 * 2 ^ 16 + boolNat p.avsErr * 128 + boolNat p.refused * 64 + boolNat p.stretch * 32 +
      boolNat p.halved * 16 + p.st % 8)
  | 0x8 => BitVec.ofNat 32 (s.fusedSvn % 64 * 2 ^ 26 + p.imageSvn % 64 * 2 ^ 20 + p.bootMode % 4 * 2 ^ 18 + p.source % 4 * 2 ^ 16 +
      p.error % 256 * 256 + boolNat p.recovery)
  | _ => if 0x100 ≤ o ∧ o < 0x160 then (p.temps.toList.getD ((o - 0x100) / 4) 0#16).setWidth 32 else 0#32

/-- The Ethernet block (R268). -/
def State.readEth (s : State) (o : Nat) : Word :=
  if h : o < 0x400 then
    let x := s.macs[(⟨o / 0x100, by omega⟩ : Fin 4)]
    match o % 0x100 with
    | 0x0 => BitVec.ofNat 32 (x.fec % 4 * 4 + boolNat x.speed * 2 + boolNat x.en)
    | 0x4 => BitVec.ofNat 32 (boolNat x.fecUncorr * 16 + boolNat x.linkLost * 8 + boolNat x.blockLock * 2 + boolNat x.link)
    | 0x8 => x.fcs
    | 0xC => x.mgmtDrop
    | _ => 0#32
  else if o = 0x800 then BitVec.ofNat 32 (boolNat s.ethLock)
  else if h : 0x1000 ≤ o ∧ (o - 0x1000) / 0x40 < 8 then
    let x := s.lidars[(⟨(o - 0x1000) / 0x40, h.2⟩ : Fin 8)]
    match o % 0x40 with
    | 0x00 => x.sweeps
    | 0x04 => x.format
    | 0x08 => x.checksum
    | 0x0C => x.dup
    | 0x10 => x.late
    | 0x14 => x.overrun
    | _ => 0#32
  else 0#32

/-- The global block (R20, R354, R356, R360). -/
def State.readGlobal (s : State) (o : Nat) : Word :=
  match o with
  | 0x00 => BitVec.ofNat 32 s.devId
  | 0x04 => BitVec.ofNat 32 (s.id.creelMib % 256)
  | 0x08 => s.deviceKey.extractLsb' 0 32
  | 0x0C => s.deviceKey.extractLsb' 32 32
  | 0x10 => s.id.tcEn.setWidth 32
  | 0x14 => s.id.chip.setWidth 32
  | 0x20 => BitVec.ofNat 32 (s.disp.sliceUs % 2 ^ 16 * 2 ^ 16 + s.disp.diagUs % 2 ^ 16)
  | 0x24 => BitVec.ofNat 32 (s.disp.diagCtx % 4096)
  | 0x28 => BitVec.ofNat 32 (boolNat s.disp.lock)
  | 0x1000 => BitVec.ofNat 32 (s.hif.linkWidth % 16 * 2 ^ 20 + s.hif.linkSpeed % 16 * 2 ^ 16 + 2 * boolNat s.adminReady +
      boolNat s.hif.linkUp) ||| s.hif.sticky
  | 0x1004 => BitVec.ofNat 32 (boolNat s.hif.en * 256 + s.hif.arqLog2 % 16 * 16 + s.hif.asqLog2 % 16)
  | 0x1008 => s.hif.asqLo
  | 0x100C => s.hif.asqHi
  | 0x1010 => s.hif.arqLo
  | 0x1014 => s.hif.arqHi
  | 0x3000 => s.hif.msixPend.extractLsb' 0 32
  | 0x3004 => s.hif.msixPend.extractLsb' 32 32
  | _ =>
    if 0x2000 ≤ o ∧ o < 0x2400 then
      let v := (o - 0x2000) / 16
      match o % 16 with
      | 0x0 => (s.hif.msixAddr.toList.getD v 0#64).extractLsb' 0 32
      | 0x4 => (s.hif.msixAddr.toList.getD v 0#64).extractLsb' 32 32
      | 0x8 => s.hif.msixData.toList.getD v 0#32
      | 0xC => BitVec.ofNat 32 (boolNat (s.hif.msixMask.getLsbD v))
      | _ => 0#32
    else 0#32

/-- What a master reads at a DWORD-aligned offset of the register space (R19, R20). -/
def State.readReg (s : State) (m o : Nat) : Word :=
  let low := o % 0x10000
  let blk := o / 0x10000
  if o < 0x10000 then s.readGlobal o
  else if 0x10 ≤ blk ∧ blk < 0x20 then s.readTc (Fin.ofNat 16 blk) low
  else if 0x20 ≤ blk ∧ blk ≤ 0x2D then s.readEngine (blk - 0x20) low
  else if 0x30 ≤ blk ∧ blk < 0x38 then (s.unit (.mv (Fin.ofNat 8 blk))).regs.read low
  else if 0x40 ≤ blk ∧ blk < 0x46 then s.readLink (Fin.ofNat 6 (blk - 0x40)) low
  else if blk = 0x50 then s.readDdr low
  else if 0x60 ≤ blk ∧ blk < 0x70 then
    BitVec.ofNat 32 (natOfBytes (((s.ctx ((o - 0x600000) / 256)).bytes.drop (o % 256)).take 4))
  else if 0x70 ≤ blk ∧ blk < 0x80 then (if o % 8 = 0 then s.tieVal ((o - 0x700000) / 8) else 0#32)
  else if 0x800000 ≤ o ∧ o < 0x804000 then s.readMbox m (Fin.ofNat 64 ((o - 0x800000) / 0x100)) (o % 0x100)
  else if blk = 0x81 then s.readTu m low
  else if blk = 0x82 then s.readEvr m low
  else if blk = 0x83 then s.readHoop low
  else if blk = 0x84 then s.readPwr low
  else if blk = 0x85 then s.readEth low
  else 0#32

/-- What a read changes: TU_NOW_FRAC latches the time (R477), and the safety controller has seen a channel's notice (R378). -/
def State.readEffect (s : State) (m o : Nat) : State :=
  if o = 0x810018 then s.latchNow m
  else if 0x800000 ≤ o ∧ o < 0x804000 then s.seen08 (Fin.ofNat 64 ((o - 0x800000) / 0x100)) m
  else if 0x828000 ≤ o ∧ o < 0x830000 then { s with freeCtr := s.freeCtr + 1 }
  else s

end Sys2Proof.Machine
end

