-- ==== Sys2Proof/Machine/RegisterWrites.lean ====
section
/-! DEFINITION. Writes to the register space (R10, R11, R19, R20) and the safety port (R431). -/

namespace Sys2Proof.Machine

/-- May a master write the blocks of the Osier cluster and Hoop (R100, R204, R233, R261, R291, R310, R323, R412, R477). -/
def blockMaster (m : Nat) : Bool := m == 0x02 || m == 0x03

/-- A W1C count: writing 1 to any bit clears it (R261). -/
def w1cWord (old v : Word) : Word := if v = 0#32 then old else 0#32

/-! ### Blocks of units -/

/-- CTRL, and the sticky bits of a status register. -/
def UnitRegs.write (r : UnitRegs) (o : Nat) (v : Word) : UnitRegs :=
  if o = 0 then { r with quarantine := bitAt v 0 }
  else if o = 4 then { r with sticky := r.sticky &&& ~~~v }
  else r

/-- A write to a tensor core's block (R100, R101): the rim and saturation records go with their sticky bits. -/
def State.writeTc (s : State) (n : Fin 16) (o : Nat) (v : Word) : State :=
  if !s.enabled (.tc n) then s
  else
    let s := s.modRegs (.tc n) fun r => r.write o v
    if o = 4 then
      let c := s.core n
      s.setCore n { c with
        rim := if bitAt v 6 then 0#32 else c.rim
        satInfo := if bitAt v 5 then 0#32 else c.satInfo }
    else s

/-- A write to a Riddle block (R261). -/
def State.writeRid (s : State) (i : Fin 2) (o : Nat) (v : Word) : State :=
  if h : 0x100 ≤ o ∧ (o - 0x100) / 16 < 12 then
    s.modCam i ⟨(o - 0x100) / 16, h.2⟩ fun x =>
      match o % 16 with
      | 0 => { x with good := w1cWord x.good v }
      | 4 => { x with fail := w1cWord x.fail v }
      | 8 => { x with corr := if fieldNat v 0 16 = 0 then x.corr else 0 }
      | 12 => { x with roi := w1cWord x.roi v }
      | _ => x
  else s.modRegs (.rid i) fun r => r.write o v

/-- A write to a Skep block (R291). -/
def State.writeSkp (s : State) (i : Fin 2) (o : Nat) (v : Word) : State :=
  match o with
  | 0x100 => s.modSkep i fun x => { x with done := w1cWord x.done v }
  | 0x104 => s.modSkep i fun x => { x with fail := w1cWord x.fail v }
  | 0x108 => s.modSkep i fun x => { x with hit := w1cWord x.hit v }
  | 0x10C => s.modSkep i fun x => { x with cbad := w1cWord x.cbad v }
  | _ => s.modRegs (.skp i) fun r => r.write o v

/-- PLT_QSTAT: each half clears on a 1 in it (R204). -/
def w1cHalves (old v : Word) : Word :=
  let hi := if fieldNat v 16 16 = 0 then fieldNat old 16 16 else 0
  let lo := if fieldNat v 0 16 = 0 then fieldNat old 0 16 else 0
  BitVec.ofNat 32 (hi * 2 ^ 16 + lo)

/-- A write to an engine's block (R204, R233, R261, R291). -/
def State.writeEngine (s : State) (i o : Nat) (v : Word) : State :=
  match engineOf i with
  | some (.rid n) => s.writeRid n o v
  | some (.skp n) => s.writeSkp n o v
  | some (.plt n) => s.modRegs (.plt n) fun r => if o = 0x1C then { r with stat := w1cHalves r.stat v } else r.write o v
  | some u => s.modRegs u fun r => if o = 0x1C then { r with stat := w1cWord r.stat v } else r.write o v
  | none => s

/-! ### Other blocks -/

/-- Is a FAB_CFG combination one of R386. -/
def fabOk (nm1 topo : Nat) : Bool := (topo == 0 && within 1 7 nm1) || (topo == 1 && nm1 == 3) || (topo == 2 && nm1 == 7)

/-- A write of FAB_CFG (R386, R412). A changed value turns the links OFF; those that the new topology uses train where their
LNK_CTRL.EN is set (log 86). -/
def State.writeFabCfg (s : State) (v : Word) : State :=
  let new := { s.fabric with nm1 := fieldNat v 4 3, topo := fieldNat v 2 2, en := bitAt v 0 }
  if s.fabric.lock || !fabOk (fieldNat v 4 3) (fieldNat v 2 2) || new == s.fabric then s
  else
    let s := (List.finRange 6).foldl (fun s l => if (s.link l).st = 0 then s else s.linkLeave l 0) s
    let s := { s with fabric := { s.fabric with nm1 := new.nm1, topo := new.topo, en := new.en } }
    let s := s.usedLinks.foldl (fun s l => if (s.link l).en then s.modLink l fun x => { x with st := 1, fails := 0, failed := false }
      else s) s
    s.refollow

/-- A write to a link's block (R384, R412). -/
def State.writeLink (s : State) (l : Fin 6) (o : Nat) (v : Word) : State :=
  match o with
  | 0x00 => (s.writeLnkCtrl l v).tryHalves
  | 0x04 => s.modLink l fun x => { x with
      downEvent := x.downEvent && !bitAt v 10
      replaySeen := x.replaySeen && !bitAt v 9
      crcSeen := x.crcSeen && !bitAt v 8 }
  | 0x08 => s.modLink l fun x => { x with replay := w1cWord x.replay v }
  | 0x0C => s.modLink l fun x => { x with crcErr := w1cWord x.crcErr v }
  | 0x10 => s.modLink l fun x => { x with digest := w1cWord x.digest v }
  | 0x14 => s.modLink l fun x => { x with refused := w1cWord x.refused v }
  | 0x800 => if l = 0 then (s.writeFabCfg v).tryHalves else s
  | 0x804 => if l = 0 then { s with fabric := { s.fabric with lock := s.fabric.lock || bitAt v 0 } } else s
  | _ => s

/-- A value of DDR_CFG; a reserved DENSITY keeps the field (R11, R310). -/
def DramState.config (d : DramState) (v : Word) : DramState :=
  { d with
      det := bitAt v 5
      ranks := bitAt v 4
      density := if fieldNat v 2 2 < 2 then fieldNat v 2 2 else d.density
      rate := bitAt v 1
      en := bitAt v 0 }

/-- A write to the DRAM controller (R310). -/
def State.writeDdr (s : State) (o : Nat) (v : Word) : State :=
  match o with
  | 0x0 => if s.dram.lock then s else { s with dram := s.dram.config v }
  | 0x4 => { s with dram := { s.dram with clkSlowed := s.dram.clkSlowed && !bitAt v 3 } }
  | 0x8 => { s with dram := { s.dram with lock := s.dram.lock || bitAt v 0 } }
  | _ => s

/-- A write of the Osier cluster to DWORD `i` of a context-table entry (R312, R324): reserved bits of the key and of the windows
stay 0 (R10, R351). -/
def Ctx.write (x : Ctx) (i : Nat) (v : Word) : Ctx :=
  let st := match fieldNat v 0 8 with
    | 0 => CtxState.free
    | 1 => .loaded
    | 2 => .run
    | 3 => .stopped
    | _ => x.state
  match i with
  | 0 => { x with state := st, cls := fieldNat v 8 8, prio := fieldNat v 16 8, flags := fieldNat v 24 4 }
  | 1 => { x with graphId := v }
  | 2 => { x with fbId := v }
  | 3 => { x with frame := v }
  | 4 => { x with tieBase := fieldNat v 0 17 }
  | 5 => { x with tieCount := v.toNat }
  | 6 => { x with deadlineUs := v }
  | 7 => { x with stallUs := v }
  | 8 => { x with coreMask := v.extractLsb' 0 16, ncore := fieldNat v 16 8, sgroup := fieldNat v 24 8 }
  | 9 => { x with owed := v }
  | 10 => { x with saveBase := setField x.saveBase 0 32 v.toNat }
  | 11 => { x with saveBase := setField x.saveBase 32 32 v.toNat }
  | 12 => { x with rkey := setField x.rkey 0 32 (v &&& 0xFFFFF800#32).toNat }
  | 13 => { x with rkey := setField x.rkey 32 32 v.toNat }
  | 14 => { x with origin := setField x.origin 0 32 v.toNat }
  | 15 => { x with origin := setField x.origin 32 32 v.toNat }
  | 16 => { x with nq := fieldNat v 0 8, ckptLast := fieldNat v 8 8, path := fieldNat v 16 16 }
  | 17 => { x with nFallback := v }
  | 18 => { x with nUnverified := v }
  | 19 => { x with originSet := v }
  | _ =>
    if 32 ≤ i ∧ i < 64 then
      let w := setField (x.windows.toList.getD ((i - 32) / 2) 0#64) (32 * (i % 2)) 32
        (if i % 2 = 0 then v &&& 0xFFFFFF87#32 else v).toNat
      { x with windows := x.windows.setIfInBounds ((i - 32) / 2) w }
    else x

/-- A write to a mailbox channel (R375 to R377). -/
def State.writeMbox (s : State) (m : Nat) (ch : Fin 64) (o : Nat) (v : Word) : State :=
  if 0x50 ≤ o then s
  else if o = 0x40 then s.writeRing m ch v
  else if o = 0x44 then s.writeAck m ch v
  else
    let s := (s.seen08 ch m).foreignWrite ch m
    if o < 0x40 then
      if !s.isSender ch m then s
      else if (s.chan ch).st = 1 then s.badOrder ch
      else s.modChan ch fun x => { x with msg := setField x.msg (8 * o) 32 v.toNat }
    else if o = 0x48 ∧ ((s.binding ch.val).1 = m ∨ (s.binding ch.val).2 = m) ∧ (s.binding ch.val).1 ≠ 0 then
      s.modChan ch fun x => { x with foreign := x.foreign && !bitAt v 3, badOrder := x.badOrder && !bitAt v 2 }
    else s

/-- A write to the time unit (R471, R474, R477). -/
def State.writeTu (s : State) (m o : Nat) (v : Word) : State :=
  if !tuMaster m then s
  else match o with
    | 0x00 => s.writeTuCtrl m v
    | 0x04 => { s with tu := { s.tu with
        ptpDrop := if fieldNat v 16 16 = 0 then s.tu.ptpDrop else 0
        incClamp := s.tu.incClamp && !bitAt v 4
        stepped := s.tu.stepped && !bitAt v 3
        ppsinNew := s.tu.ppsinNew && !bitAt v 2 } }
    | 0x08 => s.writeIncFrac m v
    | 0x0C => s.writeIncNs m v
    | 0x10 => { s with tu := { s.tu with stepNs := v } }
    | 0x14 => { s with tu := { s.tu with stepS := v } }
    | _ => s

/-- A write to the recorder (R484). -/
def State.writeEvr (s : State) (m o : Nat) (v : Word) : State :=
  if o = 0x10 then { s with evr := { s.evr with page := sparsePut 0#8 s.evr.page m (v.extractLsb' 0 8) } }
  else if o = 0x0C ∧ (m = 0x03 ∨ m = 0x08) then { s with evr := { s.evr with drop := w1cWord s.evr.drop v } }
  else s

/-- A write to Hoop's block (R433, R469). -/
def State.writeHoop (s : State) (m o : Nat) (v : Word) : State :=
  if o = 0x38 then s.writeKick m v
  else if m ≠ 0x03 ∧ m ≠ 0x08 then s
  else if o = 0x00 then { s with hoop := { s.hoop with err := s.hoop.err &&& ~~~v } }
  else if o = 0x34 ∧ fieldNat v 16 16 ≠ 0 then { s with hoop := { s.hoop with fsrDropped := 0 } }
  else s

/-- A write to power and clocks (R509). BOOT_RECOV has its row. -/
def State.writePwr (s : State) (m o : Nat) (v : Word) : State :=
  if o = 0 then s.writePwrCtrl m v
  else if o = 4 ∧ blockMaster m then
    { s with power := { s.power with
        avsErr := s.power.avsErr && !bitAt v 7
        refused := s.power.refused && !bitAt v 6 } }
  else s

/-- A value of ETH_MCFG: FEC 3 is reserved, and 2 is for 25 Gb/s only (R11, R268). -/
def MacState.config (x : MacState) (v : Word) : MacState :=
  let fec := fieldNat v 2 2
  { x with
      fec := if fec = 3 ∨ (fec = 2 ∧ !bitAt v 1) then x.fec else fec
      speed := bitAt v 1
      en := bitAt v 0 }

/-- A write to the Ethernet block (R268). -/
def State.writeEth (s : State) (o : Nat) (v : Word) : State :=
  if h : o < 0x400 then
    let m : Fin 4 := ⟨o / 0x100, by omega⟩
    match o % 0x100 with
    | 0x0 => if s.ethLock then s else s.modMac m fun x => x.config v
    | 0x4 => s.modMac m fun x => { x with fecUncorr := x.fecUncorr && !bitAt v 4, linkLost := x.linkLost && !bitAt v 3 }
    | 0x8 => s.modMac m fun x => { x with fcs := w1cWord x.fcs v }
    | 0xC => s.modMac m fun x => { x with mgmtDrop := w1cWord x.mgmtDrop v }
    | _ => s
  else if o = 0x800 then { s with ethLock := s.ethLock || bitAt v 0 }
  else if h : 0x1000 ≤ o ∧ (o - 0x1000) / 0x40 < 8 then
    s.modLidar ⟨(o - 0x1000) / 0x40, h.2⟩ fun x =>
      match o % 0x40 with
      | 0x00 => { x with sweeps := w1cWord x.sweeps v }
      | 0x04 => { x with format := w1cWord x.format v }
      | 0x08 => { x with checksum := w1cWord x.checksum v }
      | 0x0C => { x with dup := w1cWord x.dup v }
      | 0x10 => { x with late := w1cWord x.late v }
      | 0x14 => { x with overrun := w1cWord x.overrun v }
      | _ => x
  else s

/-- Values of DSP_CFG0 and DSP_CFG1: out of range keeps the field (R354). -/
def Dispatcher.config0 (d : Dispatcher) (v : Word) : Dispatcher :=
  { d with
      sliceUs := if within 100 50000 (fieldNat v 16 16) then fieldNat v 16 16 else d.sliceUs
      diagUs := if within 10000 33300 (fieldNat v 0 16) then fieldNat v 0 16 else d.diagUs }

/-- A write to an entry of the MSI-X table (R356, R372). -/
def State.writeMsix (s : State) (v o : Nat) (w : Word) : State :=
  let a := s.hif.msixAddr.toList.getD v 0#64
  match o with
  | 0x0 => { s with hif := { s.hif with msixAddr := s.hif.msixAddr.setIfInBounds v (setField a 0 32 (w.toNat / 4 * 4)) } }
  | 0x4 => { s with hif := { s.hif with msixAddr := s.hif.msixAddr.setIfInBounds v (setField a 32 32 w.toNat) } }
  | 0x8 => { s with hif := { s.hif with msixData := s.hif.msixData.setIfInBounds v w } }
  | 0xC => if bitAt w 0 then { s with hif := { s.hif with msixMask := s.hif.msixMask ||| (1#64 <<< v) } } else s.unmask v
  | _ => s

/-- A write to the host endpoint registers (R360). -/
def State.writeHif (s : State) (o : Nat) (v : Word) : State :=
  let free := !s.hif.en
  match o with
  | 0x1000 => { s with hif := { s.hif with sticky := s.hif.sticky &&& ~~~v } }
  | 0x1004 => s.writeAdminCfg v
  | 0x1008 => if free then { s with hif := { s.hif with asqLo := v &&& 0xFFFFF000#32 } } else s
  | 0x100C => if free then { s with hif := { s.hif with asqHi := v &&& 0xFFFF#32 } } else s
  | 0x1010 => if free then { s with hif := { s.hif with arqLo := v &&& 0xFFFFF000#32 } } else s
  | 0x1014 => if free then { s with hif := { s.hif with arqHi := v &&& 0xFFFF#32 } } else s
  | _ => s

/-- A write to the global block. -/
def State.writeGlobal (s : State) (m o : Nat) (v : Word) : State :=
  if 0x1000 ≤ o ∧ o < 0x1018 then (if m = 0x01 ∨ m = 0x02 then s.writeHif o v else s)
  else if 0x2000 ≤ o ∧ o < 0x2400 then s.writeMsix ((o - 0x2000) / 16) (o % 16) v
  else if m ≠ 0x02 then s
  else match o with
    | 0x20 => if s.disp.lock then s else { s with disp := s.disp.config0 v }
    | 0x24 => if s.disp.lock then s else { s with disp := { s.disp with diagCtx := fieldNat v 0 12 } }
    | 0x28 => { s with disp := { s.disp with lock := s.disp.lock || bitAt v 0 } }
    | _ => s

/-! ### The register bus -/

/-- A write of a master at an offset of the register space (R9, R10, R506). -/
def State.writeReg (s : State) (m o : Nat) (v : Word) : State :=
  let low := o % 0x10000
  let blk := o / 0x10000
  if o % 4 ≠ 0 ∨ s.reaches m o = false then s
  else if o < 0x10000 then s.writeGlobal m o v
  else if 0x10 ≤ blk ∧ blk < 0x20 then (if blockMaster m then s.writeTc (Fin.ofNat 16 blk) low v else s)
  else if 0x20 ≤ blk ∧ blk ≤ 0x2D then (if blockMaster m then s.writeEngine (blk - 0x20) low v else s)
  else if 0x30 ≤ blk ∧ blk < 0x38 then (if blockMaster m then s.modRegs (.mv (Fin.ofNat 8 blk)) (fun r => r.write low v) else s)
  else if 0x40 ≤ blk ∧ blk < 0x46 then (if blockMaster m then s.writeLink (Fin.ofNat 6 (blk - 0x40)) low v else s)
  else if blk = 0x50 then (if blockMaster m then s.writeDdr low v else s)
  else if 0x60 ≤ blk ∧ blk < 0x70 then
    (if m = 0x02 then s.modCtx ((o - 0x600000) / 256) (fun x => x.write (o % 256 / 4) v) else s)
  else if 0x70 ≤ blk ∧ blk < 0x80 then (if o % 8 = 4 then s.writeTieOp m ((o - 0x700000) / 8) v else s)
  else if 0x800000 ≤ o ∧ o < 0x804000 then s.writeMbox m (Fin.ofNat 64 ((o - 0x800000) / 0x100)) (o % 0x100) v
  else if blk = 0x81 then s.writeTu m low v
  else if blk = 0x82 then s.writeEvr m low v
  else if blk = 0x83 then s.writeHoop m low v
  else if blk = 0x84 then s.writePwr m low v
  else if blk = 0x85 then s.writeEth low v
  else s

/-- REGISTER_WRITE. -/
def execRegisterWrite (master : Byte) (off : BitVec 24) (v : Word) (s : State) : Result :=
  .next (s.writeReg master.toNat off.toNat v)

/-- BAR0_BAD (R356, R357, R363): an access of the host to `len` bytes at an offset of BAR0 or BAR4. One that is not one aligned
DWORD is refused and flagged; one that is acts as such an access does (log 93). -/
def execBar0Bad (bar4 isWrite : Bool) (off len : Nat) (v : Word) (s : State) : Result :=
  if len ≠ 4 ∨ off % 4 ≠ 0 then .next ((if isWrite then s else s.emit .unsupported).hifSticky 4)
  else if off ≥ (if bar4 then 0x10000 else 0x1000000) then .next s
  else if isWrite then .next (if bar4 then s.writeBar4 off v else s.writeReg 0x01 off v)
  else
    let hidden := bar4 || !s.reaches 0x01 off
    let x := if bar4 then bar4Read off else if hidden then 0#32 else s.readReg 0x01 off
    .next ((if hidden then s else s.readEffect 0x01 off).emit (.readData 1 (toBytes x 4)))

/-! ### The safety port (R431, R432) -/

/-- Byte `i` of a transaction, first byte first. -/
def spiByte (r : BitVec 72) (i : Nat) : Nat := fieldNat r (8 * (8 - i)) 8

/-- The offset of a request. -/
def spiOffset (r : BitVec 72) : Nat := fieldNat r 40 24

/-- The data of a request. -/
def spiData (r : BitVec 72) : Word := r.extractLsb' 8 32

/-- Bytes 0 to 7 of a transaction, first byte first. -/
def spiBody (r : BitVec 72) : List Byte := (List.range 8).map fun i => BitVec.ofNat 8 (spiByte r i)

/-- A response: RSTAT, offset and data, with its CRC-8. -/
def spiResponse (alert : Bool) (code off : Nat) (data : Word) : BitVec 72 :=
  let body : BitVec 64 := BitVec.ofNat 64 ((boolNat alert * 128 + code % 128) * 2 ^ 56 + off % 2 ^ 24 * 2 ^ 32 + data.toNat)
  let bytes := (List.range 8).map fun i => body.extractLsb' (8 * (7 - i)) 8
  BitVec.ofNat 72 (body.toNat * 256 + crc8 bytes)

/-- Does an offset lie in a block of the compute domain (R431, R447): units, context table, tie array. -/
def computeBlock (o : Nat) : Bool := (0x100000 ≤ o && o < 0x380000) || (0x600000 ≤ o && o < 0x800000)

/-- Is the compute domain in reset. -/
def State.computeInReset (s : State) : Bool :=
  (s.hoop.inReset && !s.hoop.recovering) || s.hoop.outOfService || s.hoop.divergent || s.hoop.cfgNone || s.hoop.hoopLs

/-- May the port write an offset (R431): HOOP_ERR, FSR_STAT, EVR_DROP, and the channels bound to 0x08. -/
def State.spiWritable (s : State) (o : Nat) : Bool :=
  o == 0x830000 || o == 0x830034 || o == 0x82000C ||
  (0x800000 ≤ o && o < 0x804000 &&
    (let b := s.binding ((o - 0x800000) / 0x100)
     b.1 != 0 && (b.1 == 0x08 || b.2 == 0x08)))

/-- One transaction: the response to the previous request goes out, and the request is executed; its answer waits. -/
def State.spi (s : State) (op : Nat) (r : BitVec 72) (act : State → State × Nat × Word) : State :=
  let out := spiResponse s.alert (spiByte s.hoop.resp 0) (spiOffset s.hoop.resp) (spiData s.hoop.resp)
  let s := s.emit (.readData 0x08 (toBytes out 9).reverse)
  let done := fun (s : State) (code : Nat) (data : Word) =>
    { s with hoop := { s.hoop with resp := spiResponse false code (spiOffset r) data } }
  if crc8 (spiBody r) ≠ spiByte r 8 then done s 1 0#32
  else if spiByte r 0 ≠ op then done s 3 0#32
  else
    let x := act s
    done x.1 x.2.1 x.2.2

/-- Does the safety port take the transaction: Hoop serves it. A request whose OP has a row of its own is that row's. -/
def State.spiMine (s : State) (op : Nat) (r : BitVec 72) : Bool :=
  s.hoopRuns && (spiByte r 0 == op || (op == 0 && 2 < spiByte r 0) || crc8 (spiBody r) != spiByte r 8)

/-- SAFETY_SPI_READ. -/
def execSafetySpiRead (req : BitVec 72) (s : State) : Result :=
  if !s.spiMine 1 req then .next s
  else .next (s.spi 1 req fun s =>
    let o := spiOffset req
    if o % 4 ≠ 0 then (s, 3, 0#32)
    else if computeBlock o && s.computeInReset then (s, 4, 0#32)
    else (s.readEffect 0x08 o, 0, s.readReg 0x08 o))

/-- SAFETY_SPI_WRITE. -/
def execSafetySpiWrite (req : BitVec 72) (s : State) : Result :=
  if !s.spiMine 2 req then .next s
  else .next (s.spi 2 req fun s =>
    let o := spiOffset req
    if o % 4 ≠ 0 then (s, 3, 0#32)
    else if !s.spiWritable o then (s, 2, 0#32)
    else (s.writeReg 0x08 o (spiData req), 0, 0#32))

/-- SAFETY_SPI_NONE: OP 0x00 collects the response; an undefined OP is answered 0x03. -/
def execSafetySpiNone (req : BitVec 72) (s : State) : Result :=
  if !s.spiMine 0 req then .next s else .next (s.spi 0 req fun s => (s, 0, 0#32))

end Sys2Proof.Machine
end

