-- ==== Sys2Proof/Machine/Reset.lean ====
section
/-! DEFINITION. Hangs, fences and unit resets (R447 to R452), the triplicated tables (R434 to R436), and the compute-domain reset
(R453 to R461). -/

namespace Sys2Proof.Machine

/-! ### Hangs and fences -/

/-- ACLK cycle at which a unit's hang timer expires (R448). -/
def hangCycle (decl : Nat) : Nat := 2 * (ceilDiv decl 2 + 4096)

/-- The first line from `j` on, of a mover's `total`, that touches the creel of core `n`, with the target there. -/
def State.creelLine (s : State) (n : Fin 16) (p : Placed) (j total : Nat) : Option (Nat × Target) :=
  ((List.range total).drop j).findSome? fun k =>
    ((s.moverTargets p k).find? fun t => (creelOf t).any (·.1 == n)).map fun t => (k, t)

/-- A COPY that has worked its lines and not reported its end is still at work when a core is fenced: it ends FENCED at the first
line of that core's creel that it had not moved by then. How many it had moved is free (R320, R452, log 119). -/
def State.fenceCopy (s : State) (n : Fin 16) (m : Fin 8) (p : Placed) : State :=
  let total := (copyHdr p.hdr).total
  let t := { s with freeCtr := s.freeCtr + 1 }
  match s.creelLine n p ((Config.freeCycle s.freeCtr).toNat % (total + 1)) total with
  | some (k, a) =>
    (((t.mvFault (.mv m) (hdrDecl p.hdr) (p.fin.bind (·.bound)) .fenced 0#32 k (mvAddr a)).unwrite (.mv m) fun w => k ≤ w.index)).modUnit
      (.mv m) fun x => { x with posts := x.posts.filter fun h => h.index < k }
  | none => t

/-- A SEND whose flits have not all left when a core is fenced ends FENCED at the first line of that core's creel that it had not
read by then: the lines of the flits that have left are read, and how many more is free (R396, R452, log 119). Flits of lines read
still leave; before the HEAD none does (R398). -/
def State.fenceSend (s : State) (n : Fin 16) (m : Fin 8) (l : Fin 6) (p : Placed) : State :=
  let nl := bytesNat p.hdr 36 4
  let x := s.link l
  let left := dataFlits nl + 2 - x.xq.length
  let read := 240 * (left - 1) / 256
  let t := { s with freeCtr := s.freeCtr + 1 }
  match s.creelLine n p (read + (Config.freeCycle s.freeCtr).toNat % (nl + 1 - read)) nl with
  | some (k, a) =>
    let keep := if left = 0 ∧ k < min 16 nl then 0 else 1 + 256 * k / 240 - left
    (t.modLink l fun y => { y with xq := y.xq.take keep, txOwner := none }).halfFault (.mv m) .fenced (some (mvAddr a)) k
  | none => t

/-- A fence of a core begins: the movers that are at work on its creel meet it (R452). -/
def State.meetFence (s : State) (u : UnitId) : State :=
  match u with
  | .tc n => (List.finRange 8).foldl (fun s m => match (s.unit (.mv m)).run with
    | some p =>
      let op := bytesNat p.hdr 12 1
      if op = 1 ∧ p.fin.any (·.status == .done) then s.fenceCopy n m p
      else if op = 2 ∧ p.fin.isNone then
        match (List.finRange 6).find? fun l => (s.link l).txOwner == some (.mv m) with
        | some l => s.fenceSend n m l p
        | none => s
      else s
    | none => s) s
  | _ => s

/-- A unit that hangs in a command (R449, R450): the command ends INTERNAL, a tally test fails (R445), and the unit is fenced, which
movers at work on its creel meet (R452). -/
def State.hangUnit (s : State) (u : UnitId) (p : Placed) : State :=
  let det := hangCycle (hdrDecl p.hdr)
  let kvs := s.fsrCommand u .internal (some p.ref) det []
  let s := (s.fenceWrites u).clearWork u
  let s := if p.origin = .tally then
      (s.modUnit u fun x => { x with
        run := none
        tallyRunning := false
        tallyOld := false
        regs := endRegs .internal (det + 1) det 0#32 x.regs }).tallyFail u .internal (some p.ref) det
    else s.endCommand u { status := .internal, used := det + 1, det := det, sticky := 0#32, ties := [], bounded := false, hang := true }
  ((s.fsr 2 kvs).meetFence u).modUnit u fun x => { x with fence := .fencing }

/-- Does the hang timer of the Osier cluster run: from boot on, while the root PLL clocks the cluster, Hoop supervises it and no
hold keeps it in reset; in Hold and Nap, and after a detection, as in Run (R448, R453, R495). -/
def State.osierTimed (s : State) : Bool :=
  s.power.phase == .up && s.power.st < 3 && s.hoopRuns && !s.held

/-- HANG_TIMER_EXPIRY (R448 to R450): of the Osier cluster, a Skep slot, a Riddle stream, or a unit with a running command
that reports no uncounted wait. -/
def execHangTimerExpiry (u : Option UnitId) (slot : Fin 12) (s : State) : Result :=
  match u with
  | none => if 4 ≤ s.hoop.sinceKick ∧ s.osierTimed then .next (s.detectReset 2 none none 0) else .next s
  | some u =>
    if !s.computeUp then .next s
    else match u with
    | .skp i =>
      if h : slot.val < 8 then
        (match (s.skep i).slots[slot.val] with
         | some x => if s.slotWaits i x then .next s
             else .next ((s.fsr 2 (s.fsrStream (0x50 + 8 * i.val + slot.val) ((s.skep i).descs[x.desc]?.map (·.ctx)))).hangSlot i
                 ⟨slot.val, h⟩)
         | none => .next s)
      else .next s
    | .rid i =>
      if (s.cam i slot).open_.isSome then
        .next ((s.fsr 2 (s.fsrStream (unitCode (.rid i)) (some (s.cam i slot).ctx))).failOpen i slot 0x0B) else .next s
    | u =>
      match (s.unit u).run with
      | some p => if p.stage = .running ∧ (s.unit u).fence = .open_ ∧ !s.halfWaits u then .next (s.hangUnit u p).checkReturn else .next s
      | none => .next s

/-- FENCE_COMPLETE (R449, R451): nothing of the unit is outstanding, and its reset is asserted. -/
def execFenceComplete (u : UnitId) (s : State) : Result :=
  if (s.unit u).fence = .fencing then
    .next ((s.modUnit u fun x => { x.reset with fence := .resetting }).clearWork u)
  else .next s

/-- UNIT_RESET_END (R449): the fence lifts, and the unit awaits its tally test. -/
def execUnitResetEnd (u : UnitId) (s : State) : Result :=
  if (s.unit u).fence = .resetting then
    .next (s.modUnit u fun x => { x with
      fence := .open_
      regs := { x.regs with tallyPending := !x.regs.quarantine } })
  else .next s

/-- FENCE_TIMEOUT (R452, R453). -/
def execFenceTimeout (u : UnitId) (s : State) : Result :=
  if (s.unit u).fence = .fencing then .next (s.detectReset 5 none (some u) 0) else .next s

/-! ### Triplicated tables (R434, R435) -/

/-- Bytes of a table: disabled-unit map, mailbox binding, reset escalation. -/
def tableLen : Fin 3 → Nat
  | 0 => 2
  | 1 => 128
  | 2 => 4

/-- A copy written with its CRC (R434). -/
def writeCopy (t : Fin 3) (v : BitVec 1024) : TableCopy := ⟨v, BitVec.ofNat 32 (crc32c (toBytes v (tableLen t)))⟩

/-- Does a copy pass its CRC. -/
def copyPasses (t : Fin 3) (c : TableCopy) : Bool := c.crc == (writeCopy t c.val).crc

/-- A bit of a copy upset: of its contents, then of its CRC. -/
def flipCopy (t : Fin 3) (b : Nat) (c : TableCopy) : TableCopy :=
  if b < 8 * tableLen t then { c with val := c.val ^^^ (1#1024 <<< b) }
  else if b < 8 * tableLen t + 32 then { c with crc := c.crc ^^^ (1#32 <<< (b - 8 * tableLen t)) }
  else c

/-- Change a copy. -/
def State.modCopy (s : State) (t k : Fin 3) (f : TableCopy → TableCopy) : State :=
  { s with hoop := { s.hoop with tables := s.hoop.tables.set t (s.hoop.tables[t].set k (f s.hoop.tables[t][k])) } }

/-- Upsets of copies. -/
def State.flipCopies (s : State) (bs : List CopyBit) : State :=
  bs.foldl (fun s b => s.modCopy b.table b.copy (flipCopy b.table b.bit)) s

/-- Write a table three times, with the bits that go wrong before the CRC is formed (R434, R435). -/
def State.writeTable (s : State) (t : Fin 3) (v : BitVec 1024) (wrong : List CopyBit) : State :=
  (List.finRange 3).foldl (fun s k =>
    let bad := (wrong.filter fun b => b.table = t ∧ b.copy = k ∧ b.bit < 8 * tableLen t).foldl (fun v b => v ^^^ (1#1024 <<< b.bit)) v
    s.modCopy t k fun _ => writeCopy t bad) s

/-- What a check finds of a table. -/
inductive TableResult where
  | whole | repair (v : BitVec 1024) | divergent | none
deriving DecidableEq, Repr

/-- The check of R435 over one table. -/
def State.checkTable (s : State) (t : Fin 3) : TableResult :=
  let cs := s.hoop.tables[t].toList
  match cs.filter (copyPasses t) with
  | [] => .none
  | c :: rest =>
    if !rest.all (fun d => d.val == c.val) then .divergent
    else if rest.length = 2 then .whole else .repair c.val

/-- The value that a check of a table takes into use: that of its first copy that passes (R435). -/
def State.passing (s : State) (t : Fin 3) : Option (BitVec 1024) :=
  (s.hoop.tables[t].toList.find? (copyPasses t)).map (·.val)

/-- Take a table's value into use (R4, R376, R435, R458). -/
def State.useTable (s : State) (t : Fin 3) (v : BitVec 1024) : State :=
  match t with
  | 0 => { s with
      id := { s.id with tcEn := ~~~v.setWidth 16 }
      hoop := { s.hoop with table0 := some (v.setWidth 16) } }
  | 1 => { s with hoop := { s.hoop with table1 := some v } }
  | 2 => { s with hoop := { s.hoop with table2 := some (v.setWidth 32) } }

/-- Tables that have been written and locked (R434, R501). -/
def State.lockedTables (s : State) : List (Fin 3) :=
  match s.power.phase with
  | .off => []
  | .recovery => [0]
  | .up => [0, 1, 2]

/-- The reaction to CONFIG_DIVERGENT, or to no intact copy (R435, R436): no table has a value, every unit and the hamper are held
in reset, and Protil serves its admin ring only. -/
def State.enterDivergent (s : State) (none : Bool) : State :=
  let st := if none then Status.internal else .configDivergent
  let s := (s.hoopErr (if none then 12 else 11)).assertErr (if none then 12 else 11) true
  let s := if none then s else s.event .configDivergent []
  let s := s.fsr 6 []
  ({ s with
      id := { s.id with tcEn := 0#16 }
      hoop := { s.hoop with
        divergent := s.hoop.divergent || !none
        cfgNone := s.hoop.cfgNone || none
        table0 := Option.none
        table1 := Option.none
        table2 := Option.none
        inReset := false
        recovering := false } }).serviceOnly st

/-- Hoop checks every copy (R435). -/
def State.checkTables (s : State) : State :=
  let ts := s.lockedTables
  let ok := ts.foldl (fun v t => (List.finRange 3).foldl (fun v k =>
    if copyPasses t s.hoop.tables[t][k] then v ||| (1#9 <<< (3 * t.val + k.val)) else v) v) 0#9
  let rs := ts.map fun t => (t, s.checkTable t)
  let s := { s with hoop := { s.hoop with copyOk := ok } }
  if s.hoop.divergent || s.hoop.cfgNone then s
  else
    let s := rs.foldl (fun s r => match r.2 with
      | .repair v =>
        (((s.writeTable r.1 v []).hoopErr 10).event .cfgRepaired []).fsr 6 []
      | _ => s) s
    if rs.any fun r => r.2 == .divergent then s.enterDivergent false
    else if rs.any fun r => r.2 == .none then s.enterDivergent true
    else ts.foldl (fun s t => match s.passing t with
      | some v => s.useTable t v
      | none => s) s

/-- CONFIG_CHECK (R435): the copies as the upsets leave them are checked. -/
def execConfigCheck (flips : List CopyBit) (s : State) : Result :=
  if s.hoopRuns then .next (s.flipCopies flips).checkTables else .next s

/-! ### The compute-domain reset (R453 to R461) -/

/-- Sticky bits that follow R101 clear on a compute-domain reset. -/
def State.clearSticky (s : State) : State :=
  { s with
      units := s.units.map fun x => { x with regs := { x.regs with sticky := 0#32 } }
      cores := s.cores.map fun c => { c with rim := 0#32, satInfo := 0#32 }
      macs := s.macs.map fun x => { x with fecUncorr := false, linkLost := false }
      links := s.links.map fun x => { x with downEvent := false, replaySeen := false, crcSeen := false, sent := [] }
      tu := { s.tu with incClamp := false, stepped := false, ppsinNew := false } }

/-- The tally test of a unit at boot or after a reset (R446). -/
def State.bootTest (s : State) (fails : List (UnitId × TallyResult)) (u : UnitId) : State :=
  if !s.enabled u || (s.unit u).regs.quarantine then s
  else
    let res := match fails.find? (·.1 == u) with
      | some f => f.2
      | none => { faults := [], missed := false, digestOk := true }
    let st := tallyStatus res
    let s := s.modUnit u fun x => { x with regs :=
      { (if (unitClass u).isSome then endRegs st (tallyCycles u) (tallyDet res) 0#32 (startRegs 0 (tallyCmd u).hdr x.regs) else x.regs) with
        tallyPending := false
        unverified := x.regs.unverified && !tallyPassed res } }
    let s := s.tallyCount u (tallyPassed res)
    if tallyPassed res then s
    else s.tallyFail u st (if (unitClass u).isSome then some { ctx := 0, frame := 0, hdr := (tallyCmd u).hdr } else none) (tallyDet res)

/-- Every enabled unit is tested. -/
def State.bootTests (s : State) (fails : List (UnitId × TallyResult)) : State := allUnits.foldl (fun s u => s.bootTest fails u) s

/-- The replies of a context whose frame a reset abandons, and of the packets Protil had read (R456). -/
def State.abandonReplies (s : State) (c : Nat) (x : Ctx) : List (Nat × Reply) :=
  let frame := match x.run with
    | some f =>
      let rep : Reply := {
        status := Status.aborted.code
        typ := 1
        ctx := c
        seq := (f.req.map (·.seq)).getD 0xFFFFFFFF#32
        frame := x.frame.toNat
        time := s.nowWord
        cycles := 0
        noirq := (f.req.map (·.noirq)).getD false
        frameEnd := false }
      if x.replied || x.hushed then [] else [(c, rep)]
    | none => []
  frame ++ (x.waitPkt.filter fun w => !w.silent).map fun w =>
    (if w.admin then 0 else c, s.packetReply Status.fenced.code c w.seq (if w.isAbort then w.frame else 0) w.noirq)

/-- A context-table entry after the reset (R447, R456): a frame that ran is gone and FRAME is the next one's. -/
def Ctx.afterReset (x : Ctx) : Ctx :=
  let frame := if x.state = .run then (if x.run.isSome then x.frame + 1#32 else x.frame) else 0#32
  let sent := match x.ring with
    | some r => (r.waiting.find? fun (rep : Reply) => rep.frameEnd).map fun (rep : Reply) => rep.status != Status.aborted.code
    | none => none
  { x with
      state := if x.state = .run && x.waitPkt.any (·.silent) then .loaded else x.state
      frame := frame
      nextReq := if x.state = .run then x.nextReq else 0#32
      origin := 0#64
      ckptLast := 0
      path := 0
      owed := 0#32
      run := none
      waitPkt := []
      live := []
      saved := []
      outcomes := if x.run.isSome then ((x.frame.toNat, sent.getD false) :: x.outcomes).take 256 else x.outcomes
      ring := x.ring.bind fun r =>
        if r.sqHost && r.rqHost then some { r with waiting := r.waiting.map fun y => { y with frameEnd := false } } else none
      prelude := match x.img with
        | some g => if x.state = .run || x.state = .loaded then g.prelude.length else 0
        | none => 0 }

/-- A context whose frames had not begun starts its intake streams again at 0, as its ties are. -/
def State.zeroIntake (s : State) (c : Nat) : State :=
  let s := camSlots.foldl (fun s j => s.modCam j.1 j.2 fun y =>
    if y.desc.isSome && y.ctx == c then { y with n := 0, msRead := [] } else y) s
  { s with lidars := s.lidars.map fun y => if y.desc.isSome && y.ctx == c then { y with s := 0 } else y }

/-- Step 8 for one context (R456). -/
def State.restoreContext (s : State) (c : Nat) : State :=
  let x := s.ctx c
  let lost := match x.ring with
    | some r => !(r.sqHost && r.rqHost)
    | none => false
  let reps := if x.state = .run then s.abandonReplies c x else []
  let ran := x.state == .run
  let s := { s with hoop := { s.hoop with abandoned := s.hoop.abandoned ++ reps } }
  let s := s.setCtx c x.afterReset
  let s := if lost then s.event .ringLost (words [c]) else s
  if ran then s.restart c else s.zeroIntake c

/-- OUT_OF_SERVICE (R460, R461, R466). -/
def State.enterOutOfService (s : State) : State :=
  let s := (s.resetFsr).fsr 5 [(16, .uint s.hoop.rstCause.toNat), (17, .uint s.hoop.rstInWindow)]
  let s := (s.event .outOfService []).assertErr 0x1D true
  let s := { s with hoop := { s.hoop with outOfService := true, inReset := false, recovering := false } }
  let s := if s.fabric.en then s.notice 0x04 s.self s.hoop.rstCause.toNat s.chips else s
  s.serviceOnly .outOfService

/-- The reset is counted (R459, R460, R469). -/
def State.countReset (s : State) : State :=
  let s := { s with hoop := { s.hoop with resets := (s.evr.hours.toNat :: s.hoop.resets).take 15 } }
  { s with hoop := { s.hoop with
      rstTotal := min 0xFFFF (s.hoop.rstTotal + 1)
      rstInWindow := s.resetsInWindow
      rstLast := s.evr.hours } }

/-- RESET_MAX of the table in use (R458); 0 is outside its range and takes the default (log 84). -/
def State.resetMax (s : State) : Nat := match s.hoop.table2 with
  | some t => if fieldNat t 0 4 = 0 then 3 else fieldNat t 0 4
  | none => 3

/-- Steps 1 to 3 (R455): the notice, the fence and the reset of every unit domain. -/
def State.resetDomain (s : State) : State :=
  let s := (s.event .domainReset (words [s.hoop.rstCause.toNat])).sendEnter
  let s := s.stopDomain.clearSticky
  { s with disp := { s.disp with replays := [], slices := Vector.replicate 16 none } }

end Sys2Proof.Machine
end

