-- ==== Sys2Proof/Machine/Boot.lean ====
section
/-! DEFINITION. Power-on reset and boot (R494, R500 to R507, R516): the boot steps, PCIe recovery and the anti-rollback fuses. -/

namespace Sys2Proof.Machine

/-! ### Power-on reset -/

/-- The always-on island takes a power-on reset (R494, R500): every register returns to its reset value. Fuses and straps, the
NOR, the level of the pins, the waiting commands and what has left the chip stay; PPS_OUT is at high impedance (R515). -/
def State.powerOnReset (s : State) : State :=
  { State.reset with
      id := s.id
      evr := { Recorder.init with
        slots := s.evr.slots
        sectorA := s.evr.sectorA
        sectorB := s.evr.sectorB }
      power := { PowerState.init with
        norImage := s.power.norImage
        svnFuses := s.power.svnFuses
        lmsLeaf := s.power.lmsLeaf
        warnLow := s.power.warnLow
        porLow := s.power.porLow }
      hif := { HostIf.init with perstLow := s.hif.perstLow }
      pending := s.pending
      out := if s.tu.ppsEn then s.out ++ [.pps none] else s.out
      freeCtr := s.freeCtr }

/-- VDD_AO_LOSS (R494). -/
def execVddAoLoss (s : State) : Result := .next s.powerOnReset

/-- POR_N (R500, R515, R517): low for 10 µs takes the reset; the boot begins at its release. -/
def execPorN (level : Bool) (s : State) : Result :=
  if level then .next { s with power := { s.power with porLow := false } }
  else
    let s := s.powerOnReset
    .next { s with power := { s.power with porLow := true } }

/-! ### Steps 1 and 2 -/

/-- The fields of a counter entry (R481). -/
def entryHours (e : BitVec 128) : Word := e.extractLsb' 0 32
@[inherit_doc entryHours] def entryPcycle (e : BitVec 128) : Word := e.extractLsb' 32 32
@[inherit_doc entryHours] def entrySeqOf (e : BitVec 128) : Word := e.extractLsb' 64 32

/-- The valid entry with the highest sequence number (R481). -/
def Recorder.lastEntry (r : Recorder) : Option (BitVec 128) :=
  ((r.sectorA ++ r.sectorB).filter fun e => e == counterEntry (entryHours e) (entryPcycle e) (entrySeqOf e)).foldl (fun m e =>
    match m with
    | none => some e
    | some b => if (entrySeqOf b).toNat < (entrySeqOf e).toNat then some e else some b) none

/-- Operating hours are restored and a new entry written (R481); a blank NOR starts from 0 (log 12). -/
def Recorder.powerOn (r : Recorder) : Recorder :=
  let r := match r.lastEntry with
    | some e => { r with hours := entryHours e, pcycle := entryPcycle e + 1#32, entrySeq := entrySeqOf e + 1#32 }
    | none => { r with hours := 0#32, pcycle := 1#32, entrySeq := 0#32 }
  r.entry

/-- A block of 1,024 leaves that was begun before the power loss is not used again (R507). -/
def roundLeaf (n : Nat) : Nat := (n + 1023) / 1024 * 1024

/-- Steps 1 and 2 (R501, R516): hours, the disabled-unit map, the straps, the root PLL. -/
def State.bootStart (s : State) (i : BootInput) : State :=
  let s := s.writeTable 0 (s.id.disabledFuse.setWidth 1024) i.miswrites
  let s := { s with
    evr := s.evr.powerOn
    id := { s.id with chip := s.id.strapChip, tcEn := ~~~s.id.disabledFuse }
    hoop := { s.hoop with table0 := some s.id.disabledFuse }
    power := { s.power with phase := .recovery, bootMode := s.id.strapBoot.toNat, lmsLeaf := roundLeaf s.power.lmsLeaf } }
  s.event .powerOn []

/-! ### Steps 5 to 7 -/

/-- The binding table as its 128 bytes (R376). -/
def bindingTable (l : List (Nat × Nat)) : BitVec 1024 :=
  BitVec.ofNat 1024 (natOfBytes (l.flatMap fun b => [BitVec.ofNat 8 b.1, BitVec.ofNat 8 b.2]))

/-- The reset-escalation table, laid out as RST_CFG (R458, R469); a parameter outside its range takes its default (log 84). -/
def escalationTable (c : SignedConfig) : BitVec 32 :=
  let max := if within 1 15 c.resetMax then c.resetMax else 3
  let window := if within 1 65535 c.resetWindowS then c.resetWindowS else 60
  BitVec.ofNat 32 (window * 2 ^ 16 + max)

/-- The signed configuration is applied to its registers and locked (R501); DRAM is trained. -/
def State.applyConfig (s : State) (c : SignedConfig) (i : BootInput) : State :=
  let s := s.emit (.avs (725000 + 5000 * s.id.avsCode))
  let s := { s with power := { s.power with avsWritten := i.avsAck, avsErr := s.power.avsErr || !i.avsAck } }
  let d := s.dram.config c.ddrCfg
  let s := { s with dram := { d with lock := true, ready := d.en && i.trainOk, trainFail := d.en && !i.trainOk } }
  let s := s.writeFabCfg c.fabCfg
  let s := { s with
    fabric := { s.fabric with lock := true }
    disp := { s.disp.config0 c.dspCfg0 with diagCtx := fieldNat c.dspCfg1 0 12, lock := true } }
  let s := (List.finRange 4).foldl (fun s m => s.modMac m fun x => x.config (c.ethCfg.getD m.val 0#32)) s
  let s := { s with ethLock := true }
  let s := (s.writeTable 1 (bindingTable c.binding) i.miswrites).writeTable 2 ((escalationTable c).setWidth 1024) i.miswrites
  { s with hoop := { s.hoop with table1 := some (bindingTable c.binding), table2 := some (escalationTable c) } }

/-- The event partition is found (R478, R483); what waits for a full one is not recorded (R480). -/
def Recorder.find (r : Recorder) (cap : Nat) : Recorder :=
  let slots := sparseFilter (fun k => decide (k < cap)) r.slots
  let count := slots.foldl (fun n e => if e.1 = n then n + 1 else n) 0
  let r := { r with cap := cap, run := true, slots := slots, count := count }
  if cap ≤ count then { r with full := true, drop := addSat r.drop r.queue.length, queue := [] } else r

/-- The links of the topology are enabled and train (R384, R501). -/
def State.trainLinks (s : State) : State :=
  s.usedLinks.foldl (fun s l => s.modLink l fun x => { x with en := true, st := 1 }) s

/-- Steps 5 to 7 (R501): the image runs. -/
def State.bootImage (s : State) (f : FwImage) (i : BootInput) (source : Nat) : State :=
  let s := s.runImage f source
  let s := { s with power := { s.power with
    recovery := false
    phase := .up } }
  let s := (s.applyConfig f.config i).checkTables
  let s := { s with
    evr := s.evr.find f.config.evrSlots
    hoop := { s.hoop with startupDone := true, minHold := false, sinceKick := 0 } }
  if s.hoop.divergent || s.hoop.cfgNone then s.recorderFull
  else ((s.bootTests i.tallyFails).trainLinks.recorderFull.releaseErr).fsrSend.halve

/-- COLD_BOOT (R501, R505): from the power-on reset of the always-on island, with POR_N high. -/
def execColdBoot (i : BootInput) (s : State) : Result :=
  if s.power.phase ≠ .off || s.power.porLow then .next s
  else
    let s := s.bootStart i
    if s.power.bootMode = 1 ∨ s.power.bootMode = 2 then .next (s.waitRecovery 0)
    else match s.readNor i.nor with
      | .error e => .next (s.waitRecovery e)
      | .ok f => .next (s.bootImage f i 0)

/-! ### PCIe recovery (R506) -/

/-- The first `n` hamper lines as one number, the first byte the least significant. -/
def State.hamperNat (s : State) (n : Nat) : Nat := (s.lines (hamKey 0) n).foldr (fun l a => l.toNat + 2 ^ 2048 * a) 0

/-- The header of the image in the hamper. -/
def State.hamperHeader (s : State) : BitVec 32768 := BitVec.ofNat 32768 (s.hamperNat 16)

/-- The image in the first `n` hamper lines; what its configuration says, and whether it fits the NOR, is given. -/
def State.hamperImage (s : State) (n : Nat) (img : FwImage) : FwImage :=
  let h := s.hamperHeader
  { img with
      header := h
      code := natToBytes (codeLen h) (s.hamperNat n / 2 ^ 32768)
      cfg := natToBytes (cfgLen h) (s.hamperNat n / 2 ^ (32768 + 8 * codeLen h)) }

/-- BOOT_RECOV (R505, R506, R509): the host starts the verification of the image in the hamper. -/
def execBootRecov (master : Byte) (v : Word) (img : FwImage) (i : BootInput) (s : State) : Result :=
  if master ≠ 0x01#8 || !s.power.recovery || !bitAt v 31 then .next s
  else
    let n := fieldNat v 0 16
    let f := s.hamperImage n img
    let len := 4096 + codeLen f.header + cfgLen f.header
    if !within 17 6416 n then .next (s.waitRecovery 1)
    else match s.imageError { f with fits := f.fits && ceilDiv len 256 == n } with
      | some e => .next (s.waitRecovery e)
      | none =>
        if s.power.bootMode = 2 then .next (({ s with power := { s.power with norImage := some f } }).bootImage f i 2)
        else .next (s.bootImage f i 1)

/-! ### Anti-rollback (R504) -/

/-- SVN_FUSE_WRITE: after the first ADMIN_READY, while PWR_WARN_N is high. -/
def execSvnFuseWrite (s : State) : Result :=
  if !s.power.svnPending || !s.adminReady || s.power.warnLow then .next s
  else .next { s with power := { s.power with
    svnPending := false
    svnFuses := s.power.svnFuses ||| (1#63 <<< (s.power.imageSvn - 1)) } }

end Sys2Proof.Machine
end

