-- ==== Sys2Proof/Machine/DomainReset.lean ====
section
/-! DEFINITION. The compute-domain reset as a whole (R453, R455 to R457, R460). -/

namespace Sys2Proof.Machine

/-- The NOR gives no image that passes: as at a cold boot, the chip waits in PCIe recovery, with the endpoint brought up anew, the
links OFF, no context, and ERR_OUT_N low until an image has booted (R428, R455, R505, R506, log 120). -/
def State.recoveryBoot (s : State) (error : Nat) : State :=
  let s := s.flr.freeContexts.linksOff
  ({ s with
      hoop := { s.hoop with inReset := false, recovering := false, startupDone := false }
      power := { s.power with phase := .recovery, image := none } }).waitRecovery error

/-- Protil's image fails its check at step 5: it is reloaded from the NOR as at cold boot, where BOOT_MODE takes the NOR (R455,
R505); its configuration stays locked (log 120). -/
def State.reloadImage (s : State) (nor : Option FwImage) : Except Nat State :=
  if s.power.bootMode = 1 then .error 0 else (s.readNor nor).map fun f => s.runImage f 0

/-- Steps 6 to 9 (R455 to R457): stores are cleared, units tested, contexts restored, preludes run. -/
def State.recover (s : State) (i : ResetInput) : State :=
  let s := { s.keepLines isDram with ties := [] }
  let s := s.bootTests i.tallyFails
  let s := ((s.ctxs.map (·.1)).foldl (fun s c => s.restoreContext c) s).firstSlices
  ({ s with hoop := { s.hoop with recovering := true, returnUs := i.us, sinceKick := 0, minHold := s.hoop.minHold && i.us < 100 } }).checkReturn

/-- COMPUTE_DOMAIN_RESET (R455): runs once no hold stands (R453). -/
def execComputeDomainReset (i : ResetInput) (s : State) : Result :=
  if !s.hoop.inReset || s.hoop.recovering || s.held || !s.hoopRuns then .next s
  else
    let s := (s.resetDomain.flipCopies i.flips).checkTables
    if s.hoop.divergent || s.hoop.cfgNone then .next s
    else
      let s := s.countReset
      if s.resetMax ≤ s.hoop.rstInWindow then .next s.enterOutOfService
      else if i.imageOk then .next (s.recover i)
      else
        let s := s.event .fwReload []
        match s.reloadImage i.nor with
        | .ok t => .next (t.recover i)
        | .error e => .next (s.recoveryBoot e)

end Sys2Proof.Machine
end

