-- ==== Sys2Proof/Machine/Dispatch.lean ====
section
/-! DEFINITION. The meaning of every command: one arm per constructor of `Instr`. -/

namespace Sys2Proof.Machine

open Sys2Proof

/-- The effect of a command on everything but the queue. -/
def exec (i : Instr) (s : State) : Host.Outcome State Fault Refusal :=
  match i with
  | .seta tc ups => Sys2Proof.Machine.execSeta tc ups s
  | .sets tc ups => Sys2Proof.Machine.execSets tc ups s
  | .loop tc ups => Sys2Proof.Machine.execLoop tc ups s
  | .idle tc ups => Sys2Proof.Machine.execIdle tc ups s
  | .fence tc ups => Sys2Proof.Machine.execFence tc ups s
  | .check tc ups => Sys2Proof.Machine.execCheck tc ups s
  | .tie tc ups => Sys2Proof.Machine.execTie tc ups s
  | .endProg tc ups => Sys2Proof.Machine.execEndProg tc ups s
  | .setd tc ups => Sys2Proof.Machine.execSetd tc ups s
  | .loadw tc ups => Sys2Proof.Machine.execLoadw tc ups s
  | .pass tc ups => Sys2Proof.Machine.execPass tc ups s
  | .conv tc ups => Sys2Proof.Machine.execConv tc ups s
  | .lbf tc ups => Sys2Proof.Machine.execLbf tc ups s
  | .drain tc ups => Sys2Proof.Machine.execDrain tc ups s
  | .vec tc ups => Sys2Proof.Machine.execVec tc ups s
  | .vld tc ups => Sys2Proof.Machine.execVld tc ups s
  | .vst tc ups => Sys2Proof.Machine.execVst tc ups s
  | .vtab tc ups => Sys2Proof.Machine.execVtab tc ups s
  | .cmpcnt tc ups => Sys2Proof.Machine.execCmpcnt tc ups s
  | .move tc ups => Sys2Proof.Machine.execMove tc ups s
  | .commandEnd u => Sys2Proof.Machine.execCommandEnd u s
  | .declCyclesExpiry u => Sys2Proof.Machine.execDeclCyclesExpiry u s
  | .commandPlace u => Sys2Proof.Machine.execCommandPlace u s
  | .headerCheckEnd u => Sys2Proof.Machine.execHeaderCheckEnd u s
  | .programCopyEnd tc => Sys2Proof.Machine.execProgramCopyEnd tc s
  | .commandStart u => Sys2Proof.Machine.execCommandStart u s
  | .abortDelivery u cycle => Sys2Proof.Machine.execAbortDelivery u cycle s
  | .replay => Sys2Proof.Machine.execReplay s
  | .frameEnd ctx => Sys2Proof.Machine.execFrameEnd ctx s
  | .deadlineLimit ctx => Sys2Proof.Machine.execDeadlineLimit ctx s
  | .intakeStall ctx => Sys2Proof.Machine.execIntakeStall ctx s
  | .diagnosticIntervalStart => Sys2Proof.Machine.execDiagnosticIntervalStart s
  | .sliceBoundary group => Sys2Proof.Machine.execSliceBoundary group s
  | .sliceSwitch group overrun => Sys2Proof.Machine.execSliceSwitch group overrun s
  | .append p ups => Sys2Proof.Machine.execAppend p ups s
  | .feed p ups => Sys2Proof.Machine.execFeed p ups s
  | .stage p ups => Sys2Proof.Machine.execStage p ups s
  | .rotate p ups => Sys2Proof.Machine.execRotate p ups s
  | .sample e ups => Sys2Proof.Machine.execSample e ups s
  | .voxel e ups => Sys2Proof.Machine.execVoxel e ups s
  | .scatter e ups => Sys2Proof.Machine.execScatter e ups s
  | .topk e ups => Sys2Proof.Machine.execTopk e ups s
  | .nms2d e ups => Sys2Proof.Machine.execNms2d e ups s
  | .nmsbev e ups => Sys2Proof.Machine.execNmsbev e ups s
  | .copy m ups => Sys2Proof.Machine.execCopy m ups s
  | .send m ups => Sys2Proof.Machine.execSend m ups s
  | .recv m ups => Sys2Proof.Machine.execRecv m ups s
  | .tiemsg m => Sys2Proof.Machine.execTiemsg m s
  | .csi2FrameStart port vc fn corrected => Sys2Proof.Machine.execCsi2FrameStart port vc fn corrected s
  | .csi2LongPacket port vc dt payload crcOk headerOk corrected ups => Sys2Proof.Machine.execCsi2LongPacket port vc dt payload crcOk headerOk corrected ups s
  | .csi2FrameEnd port vc fn corrected => Sys2Proof.Machine.execCsi2FrameEnd port vc fn corrected s
  | .feTimeout inst slot => Sys2Proof.Machine.execFeTimeout inst slot s
  | .groupMissing ctx group => Sys2Proof.Machine.execGroupMissing ctx group s
  | .memorySourceAttempt inst slot ups => Sys2Proof.Machine.execMemorySourceAttempt inst slot ups s
  | .streamDisable inst slot => Sys2Proof.Machine.execStreamDisable inst slot s
  | .ethernetFrameReceive mac bytes phase fecUncorr => Sys2Proof.Machine.execEthernetFrameReceive mac bytes phase fecUncorr s
  | .tsweepTimeout slot => Sys2Proof.Machine.execTsweepTimeout slot s
  | .requestAccept inst => Sys2Proof.Machine.execRequestAccept inst s
  | .decodeComplete inst slot run => Sys2Proof.Machine.execDecodeComplete inst slot run s
  | .emission inst slot => Sys2Proof.Machine.execEmission inst slot s
  | .recordWrite inst slot => Sys2Proof.Machine.execRecordWrite inst slot s
  | .budgetExpiry inst slot => Sys2Proof.Machine.execBudgetExpiry inst slot s
  | .sqTail ring v => Sys2Proof.Machine.execSqTail ring v s
  | .rqHead ring v => Sys2Proof.Machine.execRqHead ring v s
  | .replyWrite ring => Sys2Proof.Machine.execReplyWrite ring s
  | .replyStall ring => Sys2Proof.Machine.execReplyStall ring s
  | .nop ring pkt => Sys2Proof.Machine.execNop ring pkt s
  | .graphLoad pkt img => Sys2Proof.Machine.execGraphLoad pkt img s
  | .graphUnload pkt => Sys2Proof.Machine.execGraphUnload pkt s
  | .windowSet pkt => Sys2Proof.Machine.execWindowSet pkt s
  | .ringOpen pkt => Sys2Proof.Machine.execRingOpen pkt s
  | .ringClose pkt => Sys2Proof.Machine.execRingClose pkt s
  | .contextStart pkt => Sys2Proof.Machine.execContextStart pkt s
  | .contextStop pkt => Sys2Proof.Machine.execContextStop pkt s
  | .frameRun ring pkt => Sys2Proof.Machine.execFrameRun ring pkt s
  | .tieAdd ring pkt => Sys2Proof.Machine.execTieAdd ring pkt s
  | .tieSet ring pkt => Sys2Proof.Machine.execTieSet ring pkt s
  | .abort ring pkt => Sys2Proof.Machine.execAbort ring pkt s
  | .attest pkt => Sys2Proof.Machine.execAttest pkt s
  | .adminEnable master v => Sys2Proof.Machine.execAdminEnable master v s
  | .bar2Write line off bytes => Sys2Proof.Machine.execBar2Write line off bytes s
  | .bar2Read line ups => Sys2Proof.Machine.execBar2Read line ups s
  | .partialDrop => Sys2Proof.Machine.execPartialDrop s
  | .bar0Bad bar4 isWrite off len v => Sys2Proof.Machine.execBar0Bad bar4 isWrite off len v s
  | .functionLevelReset => Sys2Proof.Machine.execFunctionLevelReset s
  | .perstN level => Sys2Proof.Machine.execPerstN level s
  | .msixUnmask v => Sys2Proof.Machine.execMsixUnmask v s
  | .mbRing master ch v => Sys2Proof.Machine.execMbRing master ch v s
  | .mbAck master ch v => Sys2Proof.Machine.execMbAck master ch v s
  | .eraseRequest ch => Sys2Proof.Machine.execEraseRequest ch s
  | .tieOpAdd master t amount => Sys2Proof.Machine.execTieOpAdd master t amount s
  | .tieOpSet master t amount => Sys2Proof.Machine.execTieOpSet master t amount s
  | .registerWrite master off v => Sys2Proof.Machine.execRegisterWrite master off v s
  | .retrain master l v => Sys2Proof.Machine.execRetrain master l v s
  | .linkEnable master l v => Sys2Proof.Machine.execLinkEnable master l v s
  | .trainingTimeout l => Sys2Proof.Machine.execTrainingTimeout l s
  | .trainingStateExit l peer => Sys2Proof.Machine.execTrainingStateExit l peer s
  | .idleFlit l f => Sys2Proof.Machine.execIdleFlit l f s
  | .head l f => Sys2Proof.Machine.execHead l f s
  | .data l f => Sys2Proof.Machine.execData l f s
  | .tail l f => Sys2Proof.Machine.execTail l f s
  | .ready l f => Sys2Proof.Machine.execReady l f s
  | .refuse l f => Sys2Proof.Machine.execRefuse l f s
  | .tieFlit l f => Sys2Proof.Machine.execTieFlit l f s
  | .mail l f => Sys2Proof.Machine.execMail l f s
  | .mack l f => Sys2Proof.Machine.execMack l f s
  | .beacon l f phase => Sys2Proof.Machine.execBeacon l f phase s
  | .delayReq l f phase => Sys2Proof.Machine.execDelayReq l f phase s
  | .delayResp l f phase => Sys2Proof.Machine.execDelayResp l f phase s
  | .ackTimeout l => Sys2Proof.Machine.execAckTimeout l s
  | .transferGapTimeout l sending => Sys2Proof.Machine.execTransferGapTimeout l sending s
  | .beaconSend => Sys2Proof.Machine.execBeaconSend s
  | .delayMeasure => Sys2Proof.Machine.execDelayMeasure s
  | .timeHoldover => Sys2Proof.Machine.execTimeHoldover s
  | .heartbeat l f => Sys2Proof.Machine.execHeartbeat l f s
  | .heartbeatSend => Sys2Proof.Machine.execHeartbeatSend s
  | .heartbeatMissing chip => Sys2Proof.Machine.execHeartbeatMissing chip s
  | .resetEnter l f => Sys2Proof.Machine.execResetEnter l f s
  | .resetReturn l f => Sys2Proof.Machine.execResetReturn l f s
  | .outOfService l f => Sys2Proof.Machine.execOutOfService l f s
  | .peerDown l f => Sys2Proof.Machine.execPeerDown l f s
  | .peerUp l f => Sys2Proof.Machine.execPeerUp l f s
  | .peerLost l f => Sys2Proof.Machine.execPeerLost l f s
  | .manager l f => Sys2Proof.Machine.execManager l f s
  | .clockWindow fclk aclk cclk tclk => Sys2Proof.Machine.execClockWindow fclk aclk cclk tclk s
  | .pllLockLoss => Sys2Proof.Machine.execPllLockLoss s
  | .railThreshold r uv => Sys2Proof.Machine.execRailThreshold r uv s
  | .railRecover => Sys2Proof.Machine.execRailRecover s
  | .temperatureRead quarterDegrees => Sys2Proof.Machine.execTemperatureRead quarterDegrees s
  | .osierLockstepMismatch => Sys2Proof.Machine.execOsierLockstepMismatch s
  | .hoopLockstepMismatch => Sys2Proof.Machine.execHoopLockstepMismatch s
  | .configCheck flips => Sys2Proof.Machine.execConfigCheck flips s
  | .hangTimerExpiry u slot => Sys2Proof.Machine.execHangTimerExpiry u slot s
  | .fenceComplete u => Sys2Proof.Machine.execFenceComplete u s
  | .fenceTimeout u => Sys2Proof.Machine.execFenceTimeout u s
  | .unitResetEnd u => Sys2Proof.Machine.execUnitResetEnd u s
  | .hoopKick master v => Sys2Proof.Machine.execHoopKick master v s
  | .computeDomainReset inp => Sys2Proof.Machine.execComputeDomainReset inp s
  | .fsrFragmentAck toHost => Sys2Proof.Machine.execFsrFragmentAck toHost s
  | .safetySpiRead req => Sys2Proof.Machine.execSafetySpiRead req s
  | .safetySpiWrite req => Sys2Proof.Machine.execSafetySpiWrite req s
  | .safetySpiNone req => Sys2Proof.Machine.execSafetySpiNone req s
  | .errOutMinHold => Sys2Proof.Machine.execErrOutMinHold s
  | .pwrWarnNFall => Sys2Proof.Machine.execPwrWarnNFall s
  | .halveEnd => Sys2Proof.Machine.execHalveEnd s
  | .droop uv => Sys2Proof.Machine.execDroop uv s
  | .droopEnd uv rootCycles => Sys2Proof.Machine.execDroopEnd uv rootCycles s
  | .stretchLimit => Sys2Proof.Machine.execStretchLimit s
  | .vddAoLoss => Sys2Proof.Machine.execVddAoLoss s
  | .coldBoot inp => Sys2Proof.Machine.execColdBoot inp s
  | .porN level => Sys2Proof.Machine.execPorN level s
  | .bootRecov master v img inp => Sys2Proof.Machine.execBootRecov master v img inp s
  | .svnFuseWrite => Sys2Proof.Machine.execSvnFuseWrite s
  | .avsTelemetry acked telemetryUv monitorUv => Sys2Proof.Machine.execAvsTelemetry acked telemetryUv monitorUv s
  | .pwrCtrlReq master v => Sys2Proof.Machine.execPwrCtrlReq master v s
  | .powerStateStep => Sys2Proof.Machine.execPowerStateStep s
  | .wakeN => Sys2Proof.Machine.execWakeN s
  | .powerStateExit aoTicks => Sys2Proof.Machine.execPowerStateExit aoTicks s
  | .hoursEntry => Sys2Proof.Machine.execHoursEntry s
  | .hoopAliveTick => Sys2Proof.Machine.execHoopAliveTick s
  | .tuCtrlStep master v => Sys2Proof.Machine.execTuCtrlStep master v s
  | .tuIncNs master v => Sys2Proof.Machine.execTuIncNs master v s
  | .tuIncFrac master v => Sys2Proof.Machine.execTuIncFrac master v s
  | .tuNowFrac master => Sys2Proof.Machine.execTuNowFrac master s
  | .secondCarry => Sys2Proof.Machine.execSecondCarry s
  | .ppsOutEnd => Sys2Proof.Machine.execPpsOutEnd s
  | .ppsIn phase => Sys2Proof.Machine.execPpsIn phase s
  | .eventRecord upto => Sys2Proof.Machine.execEventRecord upto s
  | .flitCrcError l w => Sys2Proof.Machine.execFlitCrcError l w s
  | .ethBlockLockLost mac fecUncorr => Sys2Proof.Machine.execEthBlockLockLost mac fecUncorr s
  | .ethBlockLockAcquired mac => Sys2Proof.Machine.execEthBlockLockAcquired mac s
  | .pcieLinkDown => Sys2Proof.Machine.execPcieLinkDown s
  | .pcieLinkUp width speed => Sys2Proof.Machine.execPcieLinkUp width speed s
  | .hostReadCompletion m line err ups => Sys2Proof.Machine.execHostReadCompletion m line err ups s
  | .completionTimeout m => Sys2Proof.Machine.execCompletionTimeout m s
  | .tallyTestComplete u result => Sys2Proof.Machine.execTallyTestComplete u result s
  | .eraseComplete => Sys2Proof.Machine.execEraseComplete s
  | .evrWindowRead master off => Sys2Proof.Machine.execEvrWindowRead master off s
  | .dramWindowEnd => Sys2Proof.Machine.execDramWindowEnd s
  | .pwrWarnNRise => Sys2Proof.Machine.execPwrWarnNRise s
  | .jtagInstruction kind ir => Sys2Proof.Machine.execJtagInstruction kind ir s
  | .ethernetFrameTransmit mac bytes phase => Sys2Proof.Machine.execEthernetFrameTransmit mac bytes phase s

end Sys2Proof.Machine
end

