-- ==== Sys2Proof/Safety.lean ====
section
/-! DEFINITION. What counts as a well-formed state, and the predicates over states and commands in which the statements are
made. -/

namespace Sys2Proof.Machine

/-- The canonical form of the line memory: line indices strictly rising, no listed line that equals an unlisted one
(0, R455 step 6), no listed tag that equals an unlisted one (good). -/
def Memory.wf (s : State) : Bool := sparseWf 0#2048 s.mem && sparseWf none s.tags

/-- Ties and contexts are canonical too. -/
def State.storesWf (s : State) : Bool :=
  Memory.wf s && sparseWf 0#32 s.ties && sparseWf Ctx.init s.ctxs

end Sys2Proof.Machine

open Sys2Proof Sys2Proof.Machine

namespace Sys2Proof.Claims

/-- Core `n` runs the command `p`, whose next word is `w` with opcode `op`, and that word issues in cycle `t` (R109,
R110); `y` and `r` are the state and the run once the core has worked every cycle up to `t`, and no fault is noted by
then. -/
structure Issues (s : State) (n : Fin 16) (op : Nat) (p : Placed) (w : TcWord) (t : Nat) (y : State) (r : CoreRun) :
    Prop where
  running : (s.unit (.tc n)).run = some p
  started : p.stage = .running
  notEnded : (s.core n).run.ended = false
  word : p.prog[(s.core n).run.pc]? = some w
  opcode : tcOpcode w = op
  cycle : issueCycle (s.core n).run w = some t
  worked : coreRunTo n t (s, (s.core n).run) = (y, r)
  quiet : firstFault r = none

/-- `y` with another run on core `n`: everything else is as in `y`. -/
def withRun (y : State) (n : Fin 16) (r : CoreRun) : State := y.setCore n { y.core n with run := r }

/-- The registers of a run (R108): address, scalar, vector, predicate registers and tables. -/
def regsOf (r : CoreRun) : List AddrReg × List Word × List Line × List DWord × List ActTable :=
  (r.areg, r.sreg, r.vreg, r.preg, r.tabs)

/-- The control flow after an issue in cycle `t` (R109, R119). -/
def issued (r r' : CoreRun) (t : Nat) : Prop :=
  (r'.pc, r'.loops) = loopFlow (r.pc + 1) r.loops ∧ r'.lastIssue = some t


/-- Of the faults that core `n` detects up to cycle `t`, where it finds one with status `st` at the issue, that one is the only
one; `y` and `r` are state and run before the issue. -/
def onlyFault (n : Fin 16) (y : State) (r : CoreRun) (t : Nat) (st : Status) (sticky : Word) : Prop :=
  let z := (coreRunTo n (t + 1) (y, r.fault t st .none sticky)).2
  firstFault z = some t ∧ z.faults.filter (·.cycle == t) = [{ cycle := t, status := st, info := .none, sticky := sticky }]

/-- The command of core `n` has ended in cycle `k` with status `st`, and no tie has changed. -/
def endedIn (n : Fin 16) (k : Nat) (st : Status) (s t : State) : Prop :=
  (t.unit (.tc n)).run = none ∧ (t.unit (.tc n)).regs.lastStatus = st.code ∧
  (t.unit (.tc n)).regs.used = BitVec.ofNat 32 (k + 1) ∧ t.ties = s.ties

/-- May a drain of set `i` with setup `u`, issued in cycle `t`, read its first row in column 0 in cycle `d` (R140). -/
def drainMay (r : CoreRun) (i : Nat) (u : Setup) (t d : Nat) : Prop :=
  t < d ∧ u.ready < d ∧ (∀ c, (r.planOf i).lastAcc = some c → c < d) ∧ (∀ c, r.lastDrainRead = some c → c < d)

/-- Node `i` of a level of SUM's tree over the lanes of a register (R92). -/
def sumNode (v : Line) : Nat → Nat → Word
  | 0, i => lane v i
  | k + 1, i => f32Add (sumNode v k (2 * i)) (sumNode v k (2 * i + 1))

/-- The write that closes the line which the vector unit's assembler holds open, where a store issued in cycle `t` goes to
another line (R144). -/
def closingWrite (r : CoreRun) (t line : Nat) : List CreelWrite :=
  match r.asmVec with
  | some (l, bs) =>
    if l = line then []
    else [{ bank := t + 3, port := 1, serial := r.serial, line := l, data := asmLine bs, tag := none }]
  | none => []

/-- The bytes that the vector unit's assembler holds of a line (R84). -/
def openBytes (r : CoreRun) (line : Nat) : List (Option Byte) :=
  match r.asmVec with
  | some (l, bs) => if l = line then bs else List.replicate 256 none
  | none => List.replicate 256 none

/-- What a list of adds gives tie `x`, modulo 2^32. -/
def addsTo (adds : List (Nat × Nat)) (x : Nat) : Word := BitVec.ofNat 32 ((adds.filter (·.1 == x)).map (·.2)).sum

/-- The adds of a command that ends DONE (R104, R440): none where it is only refetched. -/
def endAdds (p : Placed) (ties : List (Nat × Nat)) : List (Nat × Nat) :=
  if p.origin matches .replay _ true then [] else hdrSignals p.hdr ++ ties

/-- A head leaves its queue of the current frame, primary or fall-back, which goes on behind it; the other queues stay (R330). -/
def headLeaves (s t : State) (h : HeadRef) : Prop :=
  ∃ f f', (s.ctx h.ctx).run = some f ∧ (t.ctx h.ctx).run = some f' ∧
    h.pos = (if f.fallback then f.fbHeads else f.heads).getD h.q 0 ∧
    f'.heads = (if f.fallback then f.heads else f.heads.set h.q (h.pos + 1)) ∧
    f'.fbHeads = (if f.fallback then f.fbHeads.set h.q (h.pos + 1) else f.fbHeads)

/-- Memory, tags and ties are the same in two states. -/
def sameStores (s t : State) : Prop := t.mem = s.mem ∧ t.tags = s.tags ∧ t.ties = s.ties

/-- Of two states around the stop of unit `u` in cycle `k` of its command: no tie differs, and no line but one that the unit may
still have had to write then: one whose write begins in a later cycle, or in a cycle that the rules do not fix (R150, R151). -/
def stoppedBy (u : UnitId) (k : Nat) (s t : State) : Prop :=
  t.ties = s.ties ∧ ∀ l, (∀ w ∈ (s.unit u).undo, w.key = l → ∃ b, w.cycle = some b ∧ b ≤ k) → t.line l = s.line l

/-- Every other unit runs what it ran. -/
def otherRuns (u : UnitId) (s t : State) : Prop := ∀ v, v ≠ u → (t.unit v).run = (s.unit v).run

/-- Every other context's entry is the same. -/
def otherCtxs (c : Nat) (s t : State) : Prop := ∀ d, d ≠ c → t.ctx d = s.ctx d

/-- The recorder takes the next event: it runs, and its queue has room (R480). -/
def recorderOpen (s : State) : Prop := s.evr.stopped = false ∧ s.evr.queue.length < 256

/-- One event of a kind was queued, with the data given; no other (R478, R479). -/
def oneEvent (s t : State) (k : EventKind) (data : List Byte) : Prop :=
  ∃ e : Event, t.evr.queue = s.evr.queue ++ [e] ∧ e.source = k.source ∧ e.code = k.code ∧
    e.data = BitVec.ofNat 192 (natOfBytes (data.take 24)) ∧ e.time = s.nowWord

/-- The work of the command on `u`, `p`, has ended without fault after `used` cycles by the unit's own count, to be
reported by COMMAND_END (R202, R207, R316). -/
def worked (u : UnitId) (p : Placed) (used : Nat) (t : State) : Prop :=
  ∃ e : RunEnd, (t.unit u).run = some { p with fin := some e } ∧ e.status = .done ∧ e.used = used ∧ e.bound = none

/-- Nothing but memory and the registers and the command of unit `u` differs: no tie, context, ring, link, or register of
another unit. -/
def onlyUnit (u : UnitId) (s t : State) : Prop :=
  (∀ v, v ≠ u → t.unit v = s.unit v) ∧ t.ties = s.ties ∧ t.ctxs = s.ctxs ∧ t.links = s.links ∧ t.cores = s.cores ∧
  t.hif = s.hif ∧ t.mbox = s.mbox ∧ t.hoop = s.hoop ∧ t.evr = s.evr ∧ t.out = s.out ∧ t.tu = s.tu ∧ t.power = s.power

/-- The records that an APPEND touches: block and head, block-major. -/
def appendRecs (h : PlaitHdr) (k : KvDesc) : List (Nat × Nat) :=
  ((List.range ((k.len + h.p2 - 1) / 64 - k.len / 64 + 1)).map (k.len / 64 + ·)).flatMap fun b =>
    (List.range h.nhead).map fun e => (b, e)

/-- The store keys of the records of an APPEND. -/
def appendKeys (h : PlaitHdr) (k : KvDesc) : List Nat :=
  (appendRecs h k).flatMap fun x => (List.range k.rs).map fun i => k.recKey h.layer (h.head0 + x.2) x.1 + i

/-- The lines that a STAGE moves: from and to (R198). -/
def stageMoves (h : PlaitHdr) (k : KvDesc) : List (Nat × Nat) :=
  (List.range h.p1).flatMap fun n => (List.range h.nhead).flatMap fun e => (List.range k.rs).map fun i =>
    (k.recKey h.layer (h.head0 + e) (h.p0 + n * h.p4) + i, hamKey (h.p2 + (n * h.nhead + e) * k.rs + i))

/-- What a Waling command leaves (R227, R230 to R232): of the valid candidates its selection takes as many as K, each no better than
the one before it and none worse than one left out; the candidates kept come from it in its order, all of them under TOPK, at most
MAXOUT otherwise; the output lines hold them, and nothing else is written. -/
def walingLeaves (e : Fin 2) (c : Placed) (h : WalHdr) (s t : State) : Prop :=
  let valid := s.walValid h h.n
  let sel := walSelect h.k valid
  let kept := walKeep h sel
  let out := walOutput h sel kept valid.length
  worked (.wal e) c (2 * walOcc h) t ∧
    sel.length = min h.k valid.length ∧ (∀ a ∈ sel, a ∈ valid) ∧
    (∀ j a b, sel[j]? = some a → sel[j + 1]? = some b → fpLt a.score b.score = false) ∧
    (∀ a ∈ valid, a ∉ sel → ∀ b ∈ sel, fpLt b.score a.score = false) ∧
    kept.Sublist sel ∧ (h.op = 1 → kept = sel) ∧ (h.op ≠ 1 → kept.length ≤ h.maxout) ∧
    (∀ j, j < ceilDiv out.length 256 →
      t.line (hamKey (h.out + j)) = (linesOfBytes (ceilDiv out.length 256) out).getD j 0#2048 ∧
      t.tagOk (hamKey (h.out + j)) = true) ∧
    (∀ i a, kept[i]? = some a → t.bytesAt (hamKey h.out) (32 * i) 32 = walRecord a) ∧
    (∀ k, k < hamKey h.out ∨ hamKey h.out + ceilDiv out.length 256 ≤ k → t.line k = s.line k ∧ t.tag k = s.tag k) ∧
    (t.unit (.wal e)).regs.stat = statAdd (s.unit (.wal e)).regs.stat (h.n - valid.length) ∧ onlyUnit (.wal e) s t

/-- The clock of a COPY on mover `m` once lines 0 to `k - 1` are written (R317), line `j` from device line `src j` to device line
`dst j`; none where a grant of one of them never comes. -/
def clockAfter (s : State) (m : Fin 8) (wins : List DWord) (c : CopyHdr) (src dst : Nat → Nat) : Nat → Option CopyClock
  | 0 => some (s.copyClock m wins c)
  | k + 1 => (clockAfter s m wins c src dst k).bind fun x => (s.copyTimes m wins c k (src k) (dst k) x).map fun y => y.2

/-- A host read of mover `m` has ended its command `p` at line `k` (R320): WINDOW_FAULT with HOST_ERR, and no line is written. -/
def hostReadFailed (m : Fin 8) (p : Placed) (s t : State) : Prop :=
  ∃ e, (t.unit (.mv m)).run = some { p with fin := some e } ∧ e.status = .windowFault ∧
    e.sticky = mvHostErr ||| mvWindow ∧ e.stat = BitVec.ofNat 32 (s.copies[m]).k ∧ t.mem = s.mem ∧ t.tags = s.tags ∧
    onlyUnit (.mv m) s t

/-- Every line outside a hamper range of `n` lines from line `l` is the same. -/
def outside (l n : Nat) (s t : State) : Prop := ∀ k, k < hamKey l ∨ hamKey l + n ≤ k → t.line k = s.line k ∧ t.tag k = s.tag k

/-- No half of a link command is under way on this chip. -/
def noHalves (s : State) : Prop := ∀ u p, s.working u = some p → p.begun = false

/-- Lidar slot `k` holds an enabled stream of MAC `m` that has the frame's source address (R264). -/
def lidarSource (s : State) (m : Fin 4) (b : List Byte) (k : Fin 8) : Prop :=
  ∃ d, (s.lidars[k]).desc = some d ∧ (s.lidars[k]).enabled = true ∧ lidMac d = m.val ∧ slice b.toArray 6 6 = lidSmac d

/-- A good frame arrives at MAC `m` (R264) that carries the UDP packet `u` of stream `k`, whose descriptor is `d`, and of no other
stream's source, with room for its sequence number. -/
structure LidarArrives (s : State) (m : Fin 4) (b : List Byte) (k : Fin 8) (d : Line) (u : Udp) : Prop where
  on : (s.macs[m]).en = true ∧ (s.macs[m]).link = true ∧ s.intakeUp = true
  good : fcsOk b = true ∧ etherType b.toArray ≠ 0x88F7
  desc : (s.lidars[k]).desc = some d
  source : ∀ j, lidarSource s m b j ↔ j = k
  packet : streamCheck d b.toArray = some (some u) ∧ u.sumOk = true
  from_ : u.sip = lidSip d ∧ u.sport = lidSport d ∧ u.dport = lidDport d
  long : lidSeqoff d + (if lidSeq32 d then 4 else 2) ≤ u.payload.length

/-- The sequence number of a packet (R265), which is little-endian or big-endian. -/
def lidarSeq (d : Line) (u : Udp) : Nat :=
  let n := if lidSeq32 d then 4 else 2
  if lidSeqBe d then beNat u.payload.toArray (lidSeqoff d) n else natOfBytes (slice u.payload.toArray (lidSeqoff d) n)

/-- The slot of a packet in a sweep (R265): its distance from the sweep's base, modulo the range of sequence numbers. -/
def lidarSlot (d : Line) (w : Sweep) (u : Udp) : Nat :=
  let r := if lidSeq32 d then 2 ^ 32 else 2 ^ 16
  (lidarSeq d u + r - w.base % r) % r

/-- The receive time of a frame in nanoseconds, 64 bits (R266). -/
def rxNs (s : State) (phase : Nat) : Nat := ((s.stamp phase).sec * 1000000000 + (s.stamp phase).ns) % 2 ^ 64

/-- Packet `u` stands in slot `j` of the sweep that stream `k` delivers next (R266): header and payload in its lines, and no
other line, tie or unit differs. -/
def lidarPlaced (s t : State) (phase : Nat) (k : Fin 8) (d : Line) (u : Udp) (j : Nat) : Prop :=
  let key := lidSlotKey d (s.lidars[k]).s j
  let rx := rxNs s phase
  let bytes := slotHeader u.payload.length (s.packetState d u.payload rx) rx (lidarSeq d u) ++
    u.payload.take (lidSlotl d * 256 - 64)
  (s.storesWf = true → ∀ i, i < lidSlotl d → t.line (key + i) = (linesOfBytes (lidSlotl d) bytes).getD i 0#2048 ∧
    t.tagOk (key + i) = true) ∧
  (∀ i, i < key ∨ key + lidSlotl d ≤ i → t.line i = s.line i ∧ t.tag i = s.tag i) ∧
  t.ties = s.ties ∧ t.units = s.units ∧ t.macs = s.macs ∧ t.mgmtQ = s.mgmtQ ∧ t.ptpQ = s.ptpQ ∧ t.ctxs = s.ctxs

/-- The next flit of link `l` arrives with a type (R392): the link is ACTIVE and sends nothing else now. -/
structure Arrives (s : State) (l : Fin 6) (f : Flit) (typ : Byte) : Prop where
  kind : f.typ = typ
  active : (s.link l).active = true
  next : f.fseq = (s.link l).rxNext
  noNack : f.nack = false
  idle : (s.link l).txq = []
  noSend : (s.link l).xq = []

/-- The link layer has accepted a flit (R392): the next sequence number is awaited. -/
def acceptedOn (l : Fin 6) (s t : State) : Prop :=
  (t.link l).rxNext = (s.link l).rxNext + 1#16 ∧ (t.link l).accepted = true ∧ (t.link l).nacked = false

/-- A notice older than the highest EPOCH seen is accepted by the link layer and changes nothing else (R463). -/
def noticeIgnored (l : Fin 6) (s t : State) : Prop :=
  acceptedOn l s t ∧ t.fabric = s.fabric ∧ t.units = s.units ∧ sameStores s t

/-- Unit `u` runs the only half under way, a posted receive half of mover command `p` on link `l`, whose peer is there. -/
structure Receiving (s : State) (l : Fin 6) (u : UnitId) (p : Placed) : Prop where
  only : ∀ v q, s.working v = some q → q.begun = true → v = u
  works : s.working u = some p
  begun : p.begun = true
  posted : p.posted = true
  half : recvLink u p.hdr = some l.val
  noSend : sendLink u p.hdr = none
  peer : ∃ x, s.peerOf l.val = some x ∧ s.fabric.lost.getLsbD x.1 = false ∧ s.fabric.down.getLsbD x.1 = false
  active : (s.link l).active = true

/-- Link `l` has begun its training, in DETECT (R384, R385): it holds no flit and counts from FSEQ 0. -/
def inDetect (l : Fin 6) (t : State) : Prop :=
  (t.link l).st = 1 ∧ (t.link l).en = true ∧ (t.link l).fails = 0 ∧ (t.link l).failed = false ∧
  (t.link l).out = [] ∧ (t.link l).txNext = 0#16 ∧ (t.link l).rxNext = 0#16

/-- No flit waits on any link for its turn (R393). -/
def linksIdle (s : State) : Prop := ∀ l, (s.link l).txq = [] ∧ (s.link l).xq = []

/-- A link that sends what it is given at once: ACTIVE, nothing waiting, room in the replay buffer (R392). -/
def sendsNow (s : State) (l : Fin 6) : Prop :=
  (s.link l).active = true ∧ (s.link l).txq = [] ∧ (s.link l).xq = [] ∧ (s.link l).out.length < 128

/-- The HEARTBEAT notice that chip `s` sends now (R463): from it to the manager, about itself, with EPOCH, the next NSEQ and
TIME. -/
def isHeartbeat (s : State) (g : Flit) : Prop :=
  g.typ = 0x13#8 ∧ g.src = BitVec.ofNat 3 s.self ∧ g.dst = BitVec.ofNat 3 s.fabric.manager ∧
  fieldNat g.payload 0 8 = 0x01 ∧ fieldNat g.payload 8 8 = s.self ∧ fieldNat g.payload 16 16 = s.fabric.epoch % 2 ^ 16 ∧
  fieldNat g.payload 32 32 = s.fabric.nseq.toNat ∧ fieldNat g.payload 64 32 = 0 ∧ g.payload.extractLsb' 96 96 = s.nowWord

/-- Unit `u` of Skep instance `i`: slot `j` holds `x`, whose descriptor is `d` (R269, R272). -/
def SkepHolds (s : State) (i : Fin 2) (j : Fin 8) (x : SkepSlot) (d : SkepDesc) : Prop :=
  (s.skep i).slots[j] = some x ∧ (s.skep i).descs[x.desc]? = some d

/-- Only slot `j` of Skep instance `i` differs, if any slot does. -/
def otherSlots (i : Fin 2) (j : Fin 8) (s t : State) : Prop :=
  (∀ k, k ≠ j → (t.skep i).slots[k] = (s.skep i).slots[k]) ∧ ∀ n, n ≠ i → t.skep n = s.skep n

/-- Protil may read packet `p` on ring `ring`, whose ring pair `r` lies in host memory and waits for no reply, and `p`
passes the checks of R367 for its opcode `op`. -/
structure Serves (s : State) (ring : Nat) (r : Ring) (p : Packet) (op : Nat) : Prop where
  open_ : s.ringOf ring = some r
  host : r.sqHost = true ∧ r.rqHost = true
  empty : r.waiting = [] ∧ r.room = true
  reads : s.mayRead ring r = true
  turn : s.ringTurn ring = true
  service : s.serviceStatus = none
  code : pktOp p = op
  legal : packetCheck s ring r.h p = none

/-- The packet is read and waits for its answer: h of its ring is one more (R364). -/
def consumed (s t : State) (ring : Nat) : Prop :=
  ∃ r, s.ringOf ring = some r ∧ t.ringOf ring = some { r with h := r.h + 1#32 }

/-- The packet is read and answered with a status (R364, R365, R370, R371): the 32 bytes of its reply go to the place of
reply number r + 1 on the reply ring. -/
def answered (s t : State) (ring : Nat) (p : Packet) (st : Status) : Prop :=
  ∃ r rep, s.ringOf ring = some r ∧ t.ringOf ring = some { r with h := r.h + 1#32, r := r.r + 1#32 } ∧
    (r.rqAddr + 32 * (r.r.toNat % 2 ^ r.rqLog2) < 2 ^ 48 →
      Out.hostWrite (r.rqAddr + 32 * (r.r.toNat % 2 ^ r.rqLog2)) (replyBytes rep (r.r + 1#32)) ∈ t.out) ∧
    rep.status = st.code ∧ rep.typ = 0 ∧ rep.seq = pktSeq p ∧ rep.ctx = pktCtx p ∧ rep.time = s.nowWord

/-- No reply waits on a context's ring. -/
def noneWaits (s : State) (c : Nat) : Prop := ∀ r, (s.ctx c).ring = some r → r.waiting = []

/-- A cause of a compute-domain reset is captured, the first since the last reset (R453, R469): RST_CAUSE, HOOP_ERR bit 6, and
ERR_OUT_N is low. -/
def resetCaptured (s t : State) (source code unit detail : Nat) : Prop :=
  t.hoop.inReset = true ∧
  t.hoop.rstCause = BitVec.ofNat 32 (source * 2 ^ 21 + code * 2 ^ 13 + unit * 2 ^ 5 + detail) ∧
  bitAt t.hoop.err 6 = true ∧ t.hoop.errOut = true ∧ sameStores s t ∧ t.ctxs = s.ctxs

/-- No command of this chip has writes in progress. -/
def noWrites (s : State) : Prop := ∀ u, (s.unit u).undo = [] ∧ (s.unit u).posts = []

/-- The compute domain stops (R447): no unit runs a command, no tie differs, and where no command had writes in progress, neither
does memory, nor a context. -/
def domainStopped (s t : State) : Prop :=
  (∀ u, (t.unit u).run = none) ∧ t.ties = s.ties ∧ (noWrites s → sameStores s t ∧ t.ctxs = s.ctxs)

/-- A hold with HOOP_ERR bit `detail` begins (R429, R430, R453, R469): the cause of a compute-domain reset is captured, and the
compute domain stops. -/
def holdBegins (s t : State) (detail : Nat) : Prop :=
  t.hoop.inReset = true ∧ t.hoop.rstCause = BitVec.ofNat 32 (0xFF * 2 ^ 5 + detail) ∧ bitAt t.hoop.err detail = true ∧
  bitAt t.hoop.err 6 = true ∧ t.hoop.errOut = true ∧ domainStopped s t

/-- The values of the triplicated tables in use are those of their copies (R435). -/
def tablesInUse (s : State) : Prop := ∀ x ∈ s.lockedTables, ∀ v, s.passing x = some v → s.useTable x v = s

/-- A compute-domain reset runs and comes to the check of the image (R455): no hold stands, the tables are intact and in use, and
RESET_MAX is not met. -/
def resetGoesOn (s : State) (i : ResetInput) : Prop :=
  s.hoop.inReset = true ∧ s.hoop.recovering = false ∧ s.held = false ∧ s.hoopRuns = true ∧ s.power.phase = .up ∧ i.flips = [] ∧
  s.hoop.divergent = false ∧ s.hoop.cfgNone = false ∧ s.hoop.outOfService = false ∧ (∀ x, s.checkTable x = .whole) ∧
  tablesInUse s ∧ s.countReset.hoop.rstInWindow < s.resetMax

/-- FRAME of a context after a compute-domain reset (R456): in RUN that behind an abandoned frame, or of the next one to begin. -/
def frameAfterReset (x : Ctx) : Word :=
  if x.state = .run then (if x.run.isSome then x.frame + 1#32 else x.frame) else 0#32

/-- The nine bytes that a transaction of the safety port sends: the response that waits, with the alert bit as it is now (R431). -/
def spiSent (s : State) : List Byte :=
  (toBytes (spiResponse s.alert (spiByte s.hoop.resp 0) (spiOffset s.hoop.resp) (spiData s.hoop.resp)) 9).reverse

/-- The transaction has sent those bytes before anything else. -/
def spiFirst (s t : State) : Prop := ∃ more, t.out = s.out ++ Out.readData 0x08 (spiSent s) :: more

/-- A request of the safety port with a bad CRC is answered 0x01 and does nothing else (R431, R432). -/
def requestRefused (req : BitVec 72) (s t : State) : Prop :=
  t.hoop.resp = spiResponse false 1 (spiOffset req) 0#32 ∧ spiFirst s t ∧ t.hoop.err = s.hoop.err ∧ t.mbox = s.mbox ∧ t.evr = s.evr ∧
  t.units = s.units ∧ sameStores s t

/-- Chip DST accepts a TIE flit (R405): its tie is 1,024 or higher and lies in the range of its context, the context is LOADED
or RUN, and the context's graph image names the sender's chip in its job. -/
def tieAdmitted (s : State) (f : Flit) : Prop :=
  let c := fieldNat f.payload 0 16
  let x := fieldNat f.payload 32 32
  c < 4096 ∧ 1024 ≤ x ∧ (s.ctx c).tieBase ≤ x ∧ x < (s.ctx c).tieBase + (s.ctx c).tieCount ∧
  ((s.ctx c).state = .loaded ∨ (s.ctx c).state = .run) ∧ ∃ g, (s.ctx c).img = some g ∧ f.src.toNat ∈ g.job

/-- Nothing but IDLE flits of the link layer leaves the chip. -/
def onlyIdles (s t : State) : Prop := ∀ o ∈ t.out, o ∈ s.out ∨ ∃ m g, o = Out.flit m (flitWire g) ∧ g.typ = 0x00#8
end Sys2Proof.Claims
end

