-- ==== Sys2Proof/WellFormed.lean ====
section
/-! DEFINITION. What the manual requires of a command's operands beyond their types. An ill-formed command describes
nothing that can strike the chip; a meaning leaves the state as it is for one. -/

namespace Sys2Proof

/-- A master identity of the register bus (R376): 0x01 to 0x17, but the debug master 0x04, which production parts lack (R517). -/
def masterOk (m : Byte) : Bool := 1 ≤ m.toNat && m.toNat ≤ 0x17 && m != 0x04#8

/-- An interpolated phase (R473): 0 to 79 steps of 31.25 ps. -/
def phaseOk (p : Nat) : Bool := p < 80

/-- A disturbance strikes a place that exists: a row of a pass, a column of R67 (0 to 129), a line. -/
def Upset.wf : Upset → Bool
  | .array row col _ => row < 65535 && col < 130
  | .feed row => row < 65535
  | .special row col => row < 65535 && col < 128
  | .adder row col => row < 65535 && col < 128
  | .residue row col bit => row < 32 && col < 128 && bit < 32
  | .weightFeed row => row < 128
  | .weightPrep row => row < 128
  | .lineBuffer row => row < 65535
  | .meet _ _ => true
  | .meetMover _ _ _ => true
  | .tagRace line => line < 0x10000000
  | .early line => line < 524288
  | .late line _ _ => line < 524288
  | .vector _ => true
  | .layout => true
  | .store => true
  | .overrun => true
  | .buffer _ => true
  | .extraCycles n => 0 < n

/-- A slot-plan merge names an owner for every position and period, and a phase below the round (R294 to R296). -/
def SlotTables.wf (t : SlotTables) : Bool :=
  t.slots.length == 1024 && t.slots.all (· < 256) && t.phases.length == 22 && t.phases.all (· < 32) &&
  t.dram.length == 1584 && t.dram.all (· < 256) && t.dramPhases.length == 8 && t.dramPhases.all (· < 2048)

/-- A graph image's plan names positions, periods and channels that exist, its slot tables, where its plan fits, are whole, and a
region list has its three lines (R250). -/
def GraphImage.wf (g : GraphImage) : Bool :=
  g.plan.grants.all (fun x => x.position < 32 && x.period < 32) &&
  g.plan.dram.all (fun x => x.channel < 16 && x.offset < 2048) &&
  g.roi.all (fun l => l.isEmpty || l.length == 3) &&
  match g.tables with
  | none => true
  | some t => t.wf

/-- A temperature reading covers the 24 sensors (R522). -/
def tempsOk (ts : List Int) : Bool := ts.length == 24

/-- A BAR2 write: bytes of one hamper line (R302, R356). -/
def bar2Ok (line off : Nat) (bytes : List Byte) : Bool :=
  line < 524288 && off + bytes.length ≤ 256 && !bytes.isEmpty

/-- Well-formed commands. -/
def Instr.wf : Instr → Bool
  | .seta _ ups | .sets _ ups | .loop _ ups | .idle _ ups | .fence _ ups | .tie _ ups | .endProg _ ups
  | .check _ ups | .setd _ ups | .loadw _ ups | .pass _ ups | .conv _ ups | .lbf _ ups | .drain _ ups
  | .vec _ ups | .vld _ ups | .vst _ ups | .vtab _ ups | .cmpcnt _ ups | .move _ ups => ups.all Upset.wf
  | .append _ ups | .feed _ ups | .stage _ ups | .rotate _ ups | .sample _ ups | .voxel _ ups | .scatter _ ups
  | .topk _ ups | .nms2d _ ups | .nmsbev _ ups | .copy _ ups | .send _ ups | .recv _ ups => ups.all Upset.wf
  | .csi2LongPacket _ _ _ payload _ _ _ _ => payload.length < 65536
  | .ethernetFrameReceive _ _ phase _ => phaseOk phase
  | .ethernetFrameTransmit _ _ phase => phaseOk phase
  | .graphLoad _ img => img.wf
  | .adminEnable m _ => masterOk m
  | .bar2Write line off bytes => bar2Ok line off bytes
  | .bar2Read line ups => line < 524288 && ups.all Upset.wf
  | .mbRing m _ _ | .mbAck m _ _ => masterOk m
  | .tieOpAdd m _ _ | .tieOpSet m _ _ => masterOk m
  | .registerWrite m _ _ => masterOk m
  | .retrain m _ _ | .linkEnable m _ _ => masterOk m
  | .beacon _ _ phase => phaseOk phase
  | .delayReq _ _ phase => phaseOk phase
  | .delayResp _ _ phase => phaseOk phase
  | .temperatureRead ts => tempsOk ts
  | .droopEnd _ n => 64 ≤ n
  | .eventRecord n => 0 < n && n ≤ 64
  | .hoopKick m _ => masterOk m
  | .bootRecov m _ _ _ => masterOk m
  | .pwrCtrlReq m _ => masterOk m
  | .tuCtrlStep m _ | .tuIncNs m _ | .tuIncFrac m _ => masterOk m
  | .tuNowFrac m => masterOk m
  | .ppsIn phase => phaseOk phase
  | .pcieLinkUp width speed => (width == 1 || width == 2 || width == 4) && 1 ≤ speed && speed ≤ 5
  | .evrWindowRead m _ => masterOk m
  | _ => true

end Sys2Proof
end

