-- ==== Sys2Proof/Certificates/Slice0/Obligations.lean ====
section
/-! DEFINITION. The statements for the provers, about the commands of spec/opcode_table.json family by family. The
predicates that their hypotheses use stand in Sys2Proof/Safety.lean. -/

open Sys2Proof Sys2Proof.Machine

open Sys2Proof.Claims

/-! ### The queue -/

/-- A step with a command in front of the queue is the command's meaning on the state with the queue's rest. The queue is the
model's own (log 1); with an empty one a step is a tick of the time unit (R470). -/
def Obligations.StepRunsTheFrontCommand : Prop :=
  ∀ (s : State) (c : Instr) (rest : List Instr), s.pending = c :: rest →
    step s = exec c { s with pending := rest }

/-- No command of the table stops the machine: whatever the operands and the state, exec answers a next state. A fault of a unit
ends its command (R85), and a refused access or packet is answered (R357, R367). -/
def Obligations.EveryCommandCompletes : Prop := ∀ (c : Instr) (s : State), ∃ t : State, exec c s = .next t
/-! ### The sequencer of a tensor core (04) -/

/-- SETA gives an address register its base and strides (R115), and no other register changes. -/
def Sys2Proof.Claims.SetaLoadsBaseAndStrides : Prop :=
  ∀ (s : State) (n : Fin 16) (p : Placed) (w : TcWord) (t : Nat) (y : State) (r : CoreRun),
    Issues s n 0x01 p w t y r → fieldNat w 80 5 = 0 → fieldNat w 116 4 ≠ 0 →
    ∃ r', exec (.seta n []) s = .next (withRun y n r') ∧
      r'.areg = r.areg.set (fieldNat w 116 4)
        { base := w.extractLsb' 80 32
          strides := [fieldInt w 8 18, fieldInt w 26 18, fieldInt w 44 18, fieldInt w 62 18] } ∧
      (regsOf r').2 = (regsOf r).2 ∧ r'.pendRegs = r.pendRegs ∧ r'.jobs = r.jobs ∧ r'.writes = r.writes ∧
      issued r r' t

/-- SETS: once the register writes of the next cycle have landed the scalar register holds the value (R118), and no
other register differs from what it would hold without the SETS. -/
def Sys2Proof.Claims.SetsLandsInTheNextCycle : Prop :=
  ∀ (s : State) (n : Fin 16) (p : Placed) (w : TcWord) (t : Nat) (y : State) (r : CoreRun),
    Issues s n 0x02 p w t y r →
    ∃ r', exec (.sets n []) s = .next (withRun y n r') ∧
      (landRegs (t + 1) r').sreg = (landRegs (t + 1) r).sreg.set (fieldNat w 112 3) (w.extractLsb' 0 32) ∧
      (landRegs (t + 1) r').areg = (landRegs (t + 1) r).areg ∧ (landRegs (t + 1) r').vreg = (landRegs (t + 1) r).vreg ∧
      (landRegs (t + 1) r').preg = (landRegs (t + 1) r).preg ∧ (landRegs (t + 1) r').tabs = (landRegs (t + 1) r).tabs ∧
      r'.sreg = r.sreg ∧ r'.jobs = r.jobs ∧ r'.writes = r.writes ∧ issued r r' t

/-- LOOP enters its body (R119): the next instruction is the first of the body, whose last is BODY instructions later, and
COUNT 0 means 65,536. -/
def Sys2Proof.Claims.LoopEntersItsBody : Prop :=
  ∀ (s : State) (n : Fin 16) (p : Placed) (w : TcWord) (t : Nat) (y : State) (r : CoreRun),
    Issues s n 0x03 p w t y r → fieldNat w 84 12 ≠ 0 →
    ∃ r', exec (.loop n []) s = .next (withRun y n r') ∧
      r'.pc = r.pc + 1 ∧
      r'.loops = { first := r.pc + 1, last := r.pc + 1 + fieldNat w 84 12,
                   count := if fieldNat w 96 16 = 0 then 65536 else fieldNat w 96 16, iter := 0 } :: r.loops ∧
      regsOf r' = regsOf r ∧ r'.pendRegs = r.pendRegs ∧ r'.jobs = r.jobs ∧ r'.writes = r.writes ∧
      r'.lastIssue = some t

/-- IDLE (R120): whatever the next instruction is, it issues N cycles later at the earliest; with N = 0 the instruction does not
issue, and the command ends REJECT_FORMAT in that cycle, where no other fault is detected by then. -/
def Obligations.IdleDelaysTheNextIssue : Prop :=
  (∀ (s : State) (n : Fin 16) (p : Placed) (w : TcWord) (t : Nat) (y : State) (r : CoreRun),
    Issues s n 0x04 p w t y r → fieldNat w 96 16 ≠ 0 →
    ∃ r', exec (.idle n []) s = .next (withRun y n r') ∧
      (∀ w' u, issueCycle r' w' = some u → t + fieldNat w 96 16 ≤ u) ∧
      regsOf r' = regsOf r ∧ r'.pendRegs = r.pendRegs ∧ r'.jobs = r.jobs ∧ r'.writes = r.writes ∧ issued r r' t) ∧
  (∀ (s : State) (n : Fin 16) (p : Placed) (w : TcWord) (t : Nat) (y : State) (r : CoreRun),
    Issues s n 0x04 p w t y r → fieldNat w 96 16 = 0 → onlyFault n y r t .rejectFormat 0#32 → p.origin ≠ .tally →
    s.hoop.inReset = false → ∃ z, exec (.idle n []) s = .next z ∧ endedIn n t .rejectFormat s z)

/-- FENCE (R121) issues after the completion of each unit it names, and leaves every register. -/
def Sys2Proof.Claims.FenceIssuesAfterTheNamedUnits : Prop :=
  ∀ (s : State) (n : Fin 16) (p : Placed) (w : TcWord) (t : Nat) (y : State) (r : CoreRun),
    Issues s n 0x05 p w t y r →
    (∀ i c, i < 7 → bitAt w (112 + i) = true → (s.core n).run.complete.getD i none = some c → c < t) ∧
    ∃ r', exec (.fence n []) s = .next (withRun y n r') ∧
      regsOf r' = regsOf r ∧ r'.pendRegs = r.pendRegs ∧ r'.jobs = r.jobs ∧ r'.writes = r.writes ∧ issued r r' t

/-- CHECK (R122): issued in the cycle of its value it only goes on; in any other cycle it ends the command CYCLE_FAULT in that
cycle, where no other fault is detected by then. -/
def Obligations.CheckEndsACommandOutOfItsCycle : Prop :=
  (∀ (s : State) (n : Fin 16) (p : Placed) (w : TcWord) (t : Nat) (y : State) (r : CoreRun),
    Issues s n 0x06 p w t y r → fieldNat w 80 32 = t →
    ∃ r', exec (.check n []) s = .next (withRun y n r') ∧
      regsOf r' = regsOf r ∧ r'.pendRegs = r.pendRegs ∧ r'.jobs = r.jobs ∧ r'.writes = r.writes ∧ issued r r' t) ∧
  (∀ (s : State) (n : Fin 16) (p : Placed) (w : TcWord) (t : Nat) (y : State) (r : CoreRun),
    Issues s n 0x06 p w t y r → fieldNat w 80 32 ≠ t → onlyFault n y r t .cycleFault stCycle → p.origin ≠ .tally →
    s.hoop.inReset = false → ∃ z, exec (.check n []) s = .next z ∧ endedIn n t .cycleFault s z)

/-- TIE records one add, to be applied after the command's end (R123): no tie changes now. END stops the issue of
instructions (R112): an open line of the vector unit's assembler is written in the cycle after the later of END's issue
and the vector unit's last byte. -/
def Sys2Proof.Claims.TieRecordsAnAddAndEndClosesTheProgram : Prop :=
  (∀ (s : State) (n : Fin 16) (p : Placed) (w : TcWord) (t : Nat) (y : State) (r : CoreRun),
    Issues s n 0x07 p w t y r → fieldNat w 88 14 ≠ 0 →
    ∃ r', exec (.tie n []) s = .next (withRun y n r') ∧ (withRun y n r').ties = s.ties ∧
      r'.ties = r.ties ++ [(fieldNat w 102 17, fieldNat w 88 14)] ∧
      regsOf r' = regsOf r ∧ r'.pendRegs = r.pendRegs ∧ r'.jobs = r.jobs ∧ r'.writes = r.writes ∧ issued r r' t) ∧
  (∀ (s : State) (n : Fin 16) (p : Placed) (w : TcWord) (t : Nat) (y : State) (r : CoreRun),
    Issues s n 0x0F p w t y r →
    ∃ r', exec (.endProg n []) s = .next (withRun y n r') ∧ r'.ended = true ∧ r'.asmVec = none ∧
      r'.writes = r.writes ++ (match r.asmVec with
        | some (l, bs) => [{ bank := max t r.asmVecLast + 2, port := 1, serial := r.serial, line := l,
                             data := asmLine bs, tag := none }]
        | none => []) ∧
      regsOf r' = regsOf r ∧ r'.pendRegs = r.pendRegs ∧ r'.jobs = r.jobs ∧ issued r r' t)

/-- SETA and SETS load their registers, LOOP enters its body, FENCE waits for the units it names, TIE records an add and END closes the program. -/
def Obligations.SequencerInstructionsIssue : Prop := Claims.SetaLoadsBaseAndStrides ∧ Claims.SetsLandsInTheNextCycle ∧ Claims.LoopEntersItsBody ∧ Claims.FenceIssuesAfterTheNamedUnits ∧ Claims.TieRecordsAnAddAndEndClosesTheProgram

/-! ### The array, the drain and the other units of a tensor core (03, 04, 05) -/

/-- SETD captures a drain setup (R125): path, format and addresses of its word, in the other of the two slots, used by the
instructions after it; PATH 0 and 1 read the eight parameter lines (R126), line `q` in bank cycle t + 2q + 1, and are ready 20
cycles after the issue, PATH 2 and 3 read nothing. (A block off a line boundary has a ninth line, which the model reads with the
eighth: log 77.) -/
def Sys2Proof.Claims.SetdCapturesADrainSetup : Prop :=
  ∀ (s : State) (n : Fin 16) (p : Placed) (w : TcWord) (t : Nat) (y : State) (r : CoreRun),
    Issues s n 0x10 p w t y r →
    (fieldNat w 118 2 < 2 → (ofmtOf (fieldNat w 115 3)).isSome ∧ inWorkingSet p.hdr (spanLines (aopAddr r w 59) 2048)) →
    (fieldNat w 118 2 = 3 → fieldNat w 83 5 % 2 = 0) → aopAddr r w 88 % 256 = 0 → aopAddr r w 59 % 16 = 0 →
    ∃ r' u, exec (.setd n []) s = .next (withRun y n r') ∧ r'.setup = some u ∧
      u.path = fieldNat w 118 2 ∧ (u.path < 2 → some u.ofmt = ofmtOf (fieldNat w 115 3)) ∧ u.esc = bitAt w 114 ∧
      u.out = aopAddr r w 88 ∧ u.param = aopAddr r w 59 ∧ u.table = aopAddr r w 35 ∧ u.vreg = fieldNat w 83 5 ∧
      u.slot = (match r.setup with | some v => 1 - v.slot | none => 0) ∧
      u.ready = (if u.path < 2 then t + 20 else t) ∧
      (u.path < 2 → ∃ j, r'.jobs = r.jobs ++ [j] ∧ j.kind = .params u ∧ j.next = 0 ∧ j.total = 8 ∧
        ∀ q, itemCycle j.kind q = t + 2 * q + 1 ∧ (itemAccess j.kind q).map Access.line = some (lineOf u.param q)) ∧
      (2 ≤ u.path → r'.jobs = r.jobs) ∧
      regsOf r' = regsOf r ∧ r'.pendRegs = r.pendRegs ∧ r'.writes = r.writes ∧ issued r r' t

/-- LOADW names the next weight tile (R127 to R129): K, N, format and addresses of its word; it reads the tile's prefix, of P lines
(R130), the scale record's before the side lists', one in each cycle after its issue, and no weight row. -/
def Sys2Proof.Claims.LoadwNamesTheNextTile : Prop :=
  ∀ (s : State) (n : Fin 16) (p : Placed) (w : TcWord) (t : Nat) (y : State) (r : CoreRun),
    Issues s n 0x11 p w t y r →
    loadwOk (fieldNat w 117 3) (fieldNat w 115 2) (bitAt w 114) (bitAt w 113) = true →
    aopAddr r w 74 % 256 = 0 → (bitAt w 114 = true → aopAddr r w 50 % 256 = 0) →
    (bitAt w 113 = true → aopAddr r w 26 % 256 = 0) →
    (let np := prefixCount (fieldNat w 117 3) (fieldNat w 115 2) (bitAt w 114) (bitAt w 113) (fieldNat w 105 7 + 1)
     let sl := if bitAt w 114 then (if fieldNat w 117 3 = 1 then 6 else 4) else 0
     inWorkingSet p.hdr ((List.range np).map fun i =>
       if i < sl then lineOf (aopAddr r w 50) i else lineOf (aopAddr r w 26) (i - sl)) = true) →
    ∃ r' ref, exec (.loadw n []) s = .next (withRun y n r') ∧ r'.nextTile = some ref ∧ r'.active = r.active ∧
      ref.wfmt = fieldNat w 117 3 ∧ ref.xmode = fieldNat w 115 2 ∧ ref.bs = bitAt w 114 ∧ ref.esc = bitAt w 113 ∧
      ref.k = fieldNat w 105 7 + 1 ∧ ref.n = fieldNat w 98 7 + 1 ∧ ref.tile = aopAddr r w 74 ∧
      ref.srec = aopAddr r w 50 ∧ ref.list = aopAddr r w 26 ∧
      (let np := prefixCount (fieldNat w 117 3) (fieldNat w 115 2) (bitAt w 114) (bitAt w 113) (fieldNat w 105 7 + 1)
       let sl := if bitAt w 114 then (if fieldNat w 117 3 = 1 then 6 else 4) else 0
       (np = 0 → r'.jobs = r.jobs) ∧
       (np ≠ 0 → ∃ j, r'.jobs = r.jobs ++ [j] ∧ j.kind = .tilePrefix ref ∧ j.next = 0 ∧ j.total = np ∧
         ∀ i, itemCycle j.kind i = t + i + 1 ∧
           (itemAccess j.kind i).map Access.line =
             some (if i < sl then lineOf (aopAddr r w 50) i else lineOf (aopAddr r w 26) (i - sl)))) ∧
      regsOf r' = regsOf r ∧ r'.pendRegs = r.pendRegs ∧ r'.writes = r.writes ∧ issued r r' t

/-- SETD captures a drain setup and LOADW names the next weight tile. -/
def Obligations.SetdAndLoadwNameSetupAndTile : Prop := Claims.SetdCapturesADrainSetup ∧ Claims.LoadwNamesTheNextTile

/-- A legal PASS runs (R131 to R134): it takes the next tile where it switches and the active tile otherwise, latches its
first row no earlier than the pass before it left the array, 7 cycles after its issue without a switch and, with one, 6
cycles and one per weight row after the issue of the PASS and after the prefix of its LOADW; its rows follow at the pass's
spacing. -/
def Sys2Proof.Claims.PassLatchesBehindThePassBefore : Prop :=
  ∀ (s : State) (n : Fin 16) (p : Placed) (w : TcWord) (t : Nat) (y : State) (r : CoreRun) (q : PassReq) (ref : TileRef),
    Issues s n 0x12 p w t y r → passReq w r = some q → (if q.sw then r.nextTile else r.active) = some ref →
    passPairOk q ref = true → passBad q ref r = false → inWorkingSet p.hdr (passLines q ref r) = true →
    q.aligned = true →
    ∃ r' a, exec (.pass n []) s = .next (withRun y n r') ∧
      r.passNext ≤ a ∧ (q.sw = false → t + 7 ≤ a) ∧
      (q.sw = true → t + 6 + modeLambda (tileMode ref.wfmt ref.xmode) * ref.k ≤ a ∧
        ref.issue + ref.prefixLines + 6 + modeLambda (tileMode ref.wfmt ref.xmode) * ref.k ≤ a) ∧
      r'.passNext = a + passRho q ref r * q.m ∧ r'.passCount = r.passCount + 1 ∧
      r'.active = some ref ∧ r'.nextTile = (if q.sw then none else r.nextTile) ∧
      regsOf r' = regsOf r ∧ r'.pendRegs = r.pendRegs ∧ r'.writes = r.writes ∧ issued r r' t

/-- A legal CONV runs like a pass over windows of the line-buffer store (R138, R152): its first row is latched 5 cycles
after the issue or later without a switch. -/
def Sys2Proof.Claims.ConvLatchesBehindThePassBefore : Prop :=
  ∀ (s : State) (n : Fin 16) (p : Placed) (w : TcWord) (t : Nat) (y : State) (r : CoreRun) (q : PassReq) (ref : TileRef),
    Issues s n 0x13 p w t y r → convReq w = some q → (if q.sw then r.nextTile else r.active) = some ref →
    convTapMissing q ref = false → passPairOk q ref = true → passBad q ref r = false →
    inWorkingSet p.hdr (passLines q ref r) = true →
    ∃ r' a, exec (.conv n []) s = .next (withRun y n r') ∧
      r.passNext ≤ a ∧ (q.sw = false → t + 5 ≤ a) ∧
      (q.sw = true → t + 6 + modeLambda (tileMode ref.wfmt ref.xmode) * ref.k ≤ a) ∧
      q.m = fieldNat w 52 16 * fieldNat w 44 8 ∧
      r'.passNext = a + passRho q ref r * q.m ∧ r'.passCount = r.passCount + 1 ∧
      r'.active = some ref ∧ r'.nextTile = (if q.sw then none else r.nextTile) ∧
      regsOf r' = regsOf r ∧ r'.pendRegs = r.pendRegs ∧ r'.writes = r.writes ∧ issued r r' t

/-- PASS and CONV run behind the pass before them, on the tile of their SWITCH. -/
def Obligations.PassAndConvLatchBehindThePassBefore : Prop := Claims.PassLatchesBehindThePassBefore ∧ Claims.ConvLatchesBehindThePassBefore

/-- A legal DRAIN reads its rows (R139, R140): its drain job reads row `i` of the NROWS named `i` drain spacings after the first
one, which is read in column 0 in the first cycle after its issue, after the last accumulation into the set, after every drain
read already scheduled and after its setup is ready; the drained rows of the set turn fresh for the instructions after it, and
the other set's plan stays. -/
def Obligations.DrainReadsAfterTheLastAccumulation : Prop :=
  ∀ (s : State) (n : Fin 16) (p : Placed) (w : TcWord) (t : Nat) (y : State) (r : CoreRun) (u : Setup),
    Issues s n 0x15 p w t y r → r.setup = some u →
    (let pl := r.planOf (fieldNat w 119 1)
     let fpOut := decide (u.path < 2) && u.ofmt.fp?.isSome
     let isFp := (pl.since.map (·.2)).getD fpOut
     fieldNat w 101 6 ≠ 0 ∧ fieldNat w 107 5 + fieldNat w 101 6 ≤ 32 ∧ (u.path = 1 → isFp = false) ∧
     (fpOut = true → isFp = true) ∧
     inWorkingSet p.hdr ((if u.path = 3 then [] else spanLines u.out (fieldNat w 101 6 * outBytes u.path u.ofmt)) ++
       (if u.path = 1 then spanLines u.table (8192 * (pl.since.map (·.1)).getD 128) else [])) = true) →
    r.plan.length = 2 →
    ∃ r' j d, exec (.drain n []) s = .next (withRun y n r') ∧ r'.jobs = r.jobs ++ [j] ∧
      j.next = 0 ∧ j.total = fieldNat w 101 6 ∧
      (let pl := r.planOf (fieldNat w 119 1)
       let cols := (pl.since.map (·.1)).getD 128
       j.kind = .drain r.serial false (fieldNat w 119 1) (fieldNat w 107 5) cols (drainSpacing u.path cols) d
         ((pl.since.map (·.2)).getD (decide (u.path < 2) && u.ofmt.fp?.isSome)) u [] ∧
       (∀ i, itemCycle j.kind i = d + drainSpacing u.path cols * i) ∧
       r'.lastDrainRead = some (d + drainSpacing u.path cols * (fieldNat w 101 6 - 1))) ∧
      drainMay r (fieldNat w 119 1) u t d ∧ (∀ e, drainMay r (fieldNat w 119 1) u t e → d ≤ e) ∧
      (r'.planOf (fieldNat w 119 1)).rows =
        (r.planOf (fieldNat w 119 1)).rows.filter
          (fun x => !(fieldNat w 107 5 ≤ x && x < fieldNat w 107 5 + fieldNat w 101 6)) ∧
      r'.planOf (1 - fieldNat w 119 1) = r.planOf (1 - fieldNat w 119 1) ∧
      regsOf r' = regsOf r ∧ r'.pendRegs = r.pendRegs ∧ r'.writes = r.writes ∧ r'.acc = r.acc ∧ issued r r' t

/-- LBF (R137) reads its creel lines for the line-buffer store, one in each cycle or in each second one after its issue;
MOVE (R148, R149) reads and writes in its own slots of every eighth cycle, the slot congruent with its hamper line. -/
def Sys2Proof.Claims.LbfAndMoveTakeTheirCycles : Prop :=
  (∀ (s : State) (n : Fin 16) (p : Placed) (w : TcWord) (t : Nat) (y : State) (r : CoreRun),
    Issues s n 0x14 p w t y r → fieldNat w 77 11 + (fieldNat w 65 12 + 1) ≤ 2048 →
    inWorkingSet p.hdr ((List.range (fieldNat w 65 12 + 1)).map (lineOf (aopAddr r w 88))) = true →
    aopAddr r w 88 % 256 = 0 →
    ∃ r' j, exec (.lbf n []) s = .next (withRun y n r') ∧ r'.jobs = r.jobs ++ [j] ∧
      j.next = 0 ∧ j.total = fieldNat w 65 12 + 1 ∧
      (∀ i, itemCycle j.kind i = t + (1 + fieldNat w 119 1) * i + 1 ∧
        (itemAccess j.kind i).map Access.line = some (lineOf (aopAddr r w 88) i)) ∧
      regsOf r' = regsOf r ∧ r'.pendRegs = r.pendRegs ∧ r'.writes = r.writes ∧ r'.lb = r.lb ∧ issued r r' t) ∧
  (∀ (s : State) (n : Fin 16) (p : Placed) (w : TcWord) (t : Nat) (y : State) (r : CoreRun) (q0 : Nat),
    Issues s n 0x40 p w t y r → q0 = (t + (if fieldNat w 119 1 = 0 then 1 else 40) + 7) / 8 →
    fieldNat w 53 16 ≠ 0 → fieldNat w 69 19 + fieldNat w 53 16 ≤ 524288 →
    fieldNat w 69 19 % 32 = (if fieldNat w 119 1 = 0 then q0 + 5 else q0 - 5) % 32 →
    inWorkingSet p.hdr ((List.range (fieldNat w 53 16)).map (lineOf (aopAddr r w 88))) = true →
    aopAddr r w 88 % 256 = 0 →
    ∃ r' j, exec (.move n []) s = .next (withRun y n r') ∧ r'.jobs = r.jobs ++ [j] ∧
      j.next = 0 ∧ j.total = fieldNat w 53 16 ∧
      (∀ i, itemCycle j.kind i = if fieldNat w 119 1 = 0 then 8 * q0 + 8 * i else 8 * q0 + 8 * i - 40) ∧
      regsOf r' = regsOf r ∧ r'.pendRegs = r.pendRegs ∧ r'.writes = r.writes ∧ r'.hwrites = r.hwrites ∧ issued r r' t)

/-- CMPCNT (R146, R147) with a defined format and comparison reads the NL lines from SRC, no two in one cycle, the first no
earlier than its issue, and none in a cycle in which the assembler issues a count line of an earlier CMPCNT. -/
def Sys2Proof.Claims.CmpcntReadsOneLineACycle : Prop :=
  ∀ (s : State) (n : Fin 16) (p : Placed) (w : TcWord) (t : Nat) (y : State) (r : CoreRun) (f : ElemFmt),
    Issues s n 0x30 p w t y r → cmpFmt (fieldNat w 117 3) = some f → fieldNat w 114 3 ≠ 7 → fieldNat w 87 16 ≠ 0 →
    inWorkingSet p.hdr ((List.range (fieldNat w 87 16)).map (lineOf (aopAddr r w 63)) ++
      (List.range (ceilDiv (fieldNat w 87 16) (4 * f.bits))).map (lineOf (aopAddr r w 39))) = true →
    aopAddr r w 63 % 256 = 0 → aopAddr r w 39 % 256 = 0 →
    ∃ (r' : CoreRun) (j : Job) (reads : List Nat), exec (.cmpcnt n []) s = .next (withRun y n r') ∧ r'.jobs = r.jobs ++ [j] ∧
      j.next = 0 ∧ j.total = fieldNat w 87 16 ∧ (∀ i, itemCycle j.kind i = reads.getD i 0 + 1) ∧
      (∀ i, (itemAccess j.kind i).map Access.line = some (lineOf (aopAddr r w 63) i)) ∧
      reads.length = fieldNat w 87 16 ∧ reads.Pairwise (· < ·) ∧ (∀ c ∈ reads, t ≤ c ∧ c ∉ r.cmpWrites ∧ c < r'.cmpReady) ∧
      regsOf r' = regsOf r ∧ r'.pendRegs = r.pendRegs ∧ r'.writes = r.writes ∧ issued r r' t

/-- The filler, the mover port and compare-and-count work in their own cycles. -/
def Obligations.LbfMoveAndCmpcntTakeTheirCycles : Prop := Claims.LbfAndMoveTakeTheirCycles ∧ Claims.CmpcntReadsOneLineACycle

/-! ### The vector unit (03, 04) -/

/-- VEC (R92, R141, R142): once its writes have landed, L cycles after the issue, each lane of VD that the predicate admits
holds the operation on the lanes read at the issue, and every other lane what it would hold without the VEC. -/
def Sys2Proof.Claims.VecWritesTheLanesOfItsPredicate : Prop :=
  ∀ (s : State) (n : Fin 16) (p : Placed) (w : TcWord) (t : Nat) (y : State) (r : CoreRun) (lat gap i : Nat) (x : Word),
    Issues s n 0x20 p w t y r → vopTiming (fieldNat w 114 6) = some (lat, gap) → i < 64 → r.vreg.length = 32 →
    (let va := r.vreg.getD (fieldNat w 104 5) 0#2048
     let vb := r.vreg.getD (fieldNat w 99 5) 0#2048
     let vc := r.vreg.getD (fieldNat w 94 5) 0#2048
     let sb := r.sreg.getD (fieldNat w 90 3) 0#32
     let pred := r.preg.getD (fieldNat w 87 2) 0xFFFFFFFFFFFFFFFF#64
     laneOp (fieldNat w 114 6) (fieldNat w 80 5) (bitAt pred i) (r.tabs.getD (fieldNat w 78 2) 0#10240) (lane va i)
       (if bitAt w 93 then sb else lane vb i) (lane vc i) = some x) →
    ∃ r', exec (.vec n []) s = .next (withRun y n r') ∧
      lane ((landRegs (t + lat) r').vreg.getD (fieldNat w 109 5) 0#2048) i =
        (if bitAt w 89 = true ∧ bitAt (r.preg.getD (fieldNat w 87 2) 0xFFFFFFFFFFFFFFFF#64) i = false then
          lane ((landRegs (t + lat) r).vreg.getD (fieldNat w 109 5) 0#2048) i else x) ∧
      (∀ v, v ≠ fieldNat w 109 5 → (landRegs (t + lat) r').vreg.getD v 0#2048 = (landRegs (t + lat) r).vreg.getD v 0#2048) ∧
      (landRegs (t + lat) r').sreg = (landRegs (t + lat) r).sreg ∧ (landRegs (t + lat) r').preg = (landRegs (t + lat) r).preg ∧
      r'.vecReady = t + gap ∧ r'.jobs = r.jobs ∧ r'.writes = r.writes ∧ issued r r' t

/-- VEC's comparisons (R92): bit `i` of the predicate register named PD holds the comparison of lane `i`, where NaN compares
false, except under NE. -/
def Sys2Proof.Claims.VecComparisonSetsThePredicate : Prop :=
  ∀ (s : State) (n : Fin 16) (p : Placed) (w : TcWord) (t : Nat) (y : State) (r : CoreRun) (i : Nat),
    Issues s n 0x20 p w t y r → 0x08 ≤ fieldNat w 114 6 → fieldNat w 114 6 ≤ 0x0B → i < 64 → r.preg.length = 4 →
    ∃ r', exec (.vec n []) s = .next (withRun y n r') ∧
      (let a := f32 (lane (r.vreg.getD (fieldNat w 104 5) 0#2048) i)
       let b := f32 (if bitAt w 93 then r.sreg.getD (fieldNat w 90 3) 0#32
         else lane (r.vreg.getD (fieldNat w 99 5) 0#2048) i)
       (a.isNan = true ∨ b.isNan = true →
         bitAt ((landRegs (t + 4) r').preg.getD (fieldNat w 85 2) 0#64) i = decide (fieldNat w 114 6 = 0x0B)) ∧
       (a.isNan = false → b.isNan = false →
         bitAt ((landRegs (t + 4) r').preg.getD (fieldNat w 85 2) 0#64) i =
           (if fieldNat w 114 6 = 0x08 then fpLt a b else if fieldNat w 114 6 = 0x09 then fpLe a b
            else if fieldNat w 114 6 = 0x0A then fpEq a b else !fpEq a b))) ∧
      (landRegs (t + 4) r').vreg = (landRegs (t + 4) r).vreg ∧ (landRegs (t + 4) r').sreg = (landRegs (t + 4) r).sreg ∧
      r'.jobs = r.jobs ∧ r'.writes = r.writes ∧ issued r r' t

/-- VEC's SUM, RMAX and its move of lane 0 to a scalar register (R92, R141, R142): once the write has landed, 10 cycles after the
issue, every lane of VD holds the sum over the six-level tree of the lanes of VA, or the maximum over them, whatever the predicate;
4 cycles after its issue the move leaves lane 0 of VA in the scalar register named. No other register differs. -/
def Sys2Proof.Claims.VecReducesOrMovesToAScalar : Prop :=
  (∀ (s : State) (n : Fin 16) (p : Placed) (w : TcWord) (t : Nat) (y : State) (r : CoreRun) (i : Nat),
    Issues s n 0x20 p w t y r → (fieldNat w 114 6 = 0x20 ∨ fieldNat w 114 6 = 0x21) → i < 64 → r.vreg.length = 32 →
    ∃ r', exec (.vec n []) s = .next (withRun y n r') ∧
      lane ((landRegs (t + 10) r').vreg.getD (fieldNat w 109 5) 0#2048) i =
        (let va := r.vreg.getD (fieldNat w 104 5) 0#2048
         if fieldNat w 114 6 = 0x20 then sumNode va 6 0
         else ((List.range 63).map fun k => lane va (k + 1)).foldl f32Max (lane va 0)) ∧
      (∀ v, v ≠ fieldNat w 109 5 → (landRegs (t + 10) r').vreg.getD v 0#2048 = (landRegs (t + 10) r).vreg.getD v 0#2048) ∧
      (landRegs (t + 10) r').sreg = (landRegs (t + 10) r).sreg ∧ (landRegs (t + 10) r').preg = (landRegs (t + 10) r).preg ∧
      r'.vecReady = t + 1 ∧ r'.jobs = r.jobs ∧ r'.writes = r.writes ∧ issued r r' t) ∧
  (∀ (s : State) (n : Fin 16) (p : Placed) (w : TcWord) (t : Nat) (y : State) (r : CoreRun),
    Issues s n 0x20 p w t y r → fieldNat w 114 6 = 0x27 →
    ∃ r', exec (.vec n []) s = .next (withRun y n r') ∧
      (landRegs (t + 4) r').sreg = (landRegs (t + 4) r).sreg.set (fieldNat w 109 5 % 8)
        (lane (r.vreg.getD (fieldNat w 104 5) 0#2048) 0) ∧
      (landRegs (t + 4) r').vreg = (landRegs (t + 4) r).vreg ∧ (landRegs (t + 4) r').preg = (landRegs (t + 4) r).preg ∧
      r'.vecReady = t + 1 ∧ r'.jobs = r.jobs ∧ r'.writes = r.writes ∧ issued r r' t)

/-- VEC writes the lanes of its destination, its comparisons a predicate register, its reductions every lane, and TOS a scalar register. -/
def Obligations.VecWritesLanesOrThePredicate : Prop := Claims.VecWritesTheLanesOfItsPredicate ∧ Claims.VecComparisonSetsThePredicate ∧ Claims.VecReducesOrMovesToAScalar

/-- VLD and VTAB read creel lines from the cycle after their issue (R143, R145), one a cycle, and change no register now;
VST (R84, R144) first closes a line that the assembler holds open elsewhere, with zeros for its missing bytes: in MODE 0 it writes
its register to a whole line, in the cycle after that write if there is one, and drops what the same line held open; in MODE 1 its
converted bytes enter their line, which is written when it is full. FMT of a VLD in MODE 0 and 2 and of a VST in MODE 0 is taken to
be ignored (log 102). -/
def Obligations.VldVtabReadAndVstWritesItsLine : Prop :=
  (∀ (s : State) (n : Fin 16) (p : Placed) (w : TcWord) (t : Nat) (y : State) (r : CoreRun),
    Issues s n 0x21 p w t y r →
    (let mode := fieldNat w 117 3
     let fmt := fieldNat w 114 3
     mode ≤ 3 ∧ (mode = 1 → fmt ≠ 7) ∧ (mode = 3 → fmt = 1 ∨ fmt = 2 ∨ fmt = 7) ∧
     aopAddr r w 80 % (if mode = 0 then 256 else if mode = 1 then cvtBytes fmt else if mode = 2 then 128 else 1024) = 0 ∧
     inWorkingSet p.hdr (if mode = 3 then spanLines (aopAddr r w 80) 1024 else [lineOf (aopAddr r w 80) 0]) = true) →
    ∃ r' j, exec (.vld n []) s = .next (withRun y n r') ∧ r'.jobs = r.jobs ++ [j] ∧
      j.next = 0 ∧ j.total = (if fieldNat w 117 3 = 3 then 8 else 1) ∧
      (∀ i, itemCycle j.kind i = t + i + 1) ∧ (itemAccess j.kind 0).map Access.line = some (lineOf (aopAddr r w 80) 0) ∧
      regsOf r' = regsOf r ∧ r'.pendRegs = r.pendRegs ∧ r'.writes = r.writes ∧ issued r r' t) ∧
  (∀ (s : State) (n : Fin 16) (p : Placed) (w : TcWord) (t : Nat) (y : State) (r : CoreRun),
    Issues s n 0x23 p w t y r → aopAddr r w 86 % 256 = 0 → inWorkingSet p.hdr (spanLines (aopAddr r w 86) 1280) = true →
    ∃ r' j, exec (.vtab n []) s = .next (withRun y n r') ∧ r'.jobs = r.jobs ++ [j] ∧ j.next = 0 ∧ j.total = 5 ∧
      (∀ i, itemCycle j.kind i = t + i + 1 ∧ (itemAccess j.kind i).map Access.line = some (lineOf (aopAddr r w 86) i)) ∧
      r'.vecReady = t + 5 ∧ regsOf r' = regsOf r ∧ r'.pendRegs = r.pendRegs ∧ r'.writes = r.writes ∧ issued r r' t) ∧
  (∀ (s : State) (n : Fin 16) (p : Placed) (w : TcWord) (t : Nat) (y : State) (r : CoreRun),
    Issues s n 0x22 p w t y r → fieldNat w 117 3 = 0 → aopAddr r w 83 % 256 = 0 →
    inWorkingSet p.hdr [lineOf (aopAddr r w 83) 0] = true →
    ∃ r', exec (.vst n []) s = .next (withRun y n r') ∧ r'.asmVec = none ∧
      r'.writes = r.writes ++ closingWrite r t (lineOf (aopAddr r w 83) 0) ++
        [{ bank := if closingWrite r t (lineOf (aopAddr r w 83) 0) = [] then t + 3 else t + 4, port := 1, serial := r.serial,
           line := lineOf (aopAddr r w 83) 0, data := r.vreg.getD (fieldNat w 107 5) 0#2048, tag := none }] ∧
      regsOf r' = regsOf r ∧ r'.pendRegs = r.pendRegs ∧ r'.jobs = r.jobs ∧ issued r r' t) ∧
  (∀ (s : State) (n : Fin 16) (p : Placed) (w : TcWord) (t : Nat) (y : State) (r : CoreRun) (f : ElemFmt),
    Issues s n 0x22 p w t y r → fieldNat w 117 3 = 1 → vldFmt (fieldNat w 114 3) = some f →
    aopAddr r w 83 % cvtBytes (fieldNat w 114 3) = 0 → inWorkingSet p.hdr [lineOf (aopAddr r w 83) 0] = true →
    ∃ r' bs, exec (.vst n []) s = .next (withRun y n r') ∧
      bs = asmPut (openBytes r (lineOf (aopAddr r w 83) 0)) (aopAddr r w 83 % 256)
        (packRow f.bits (cvtBytes (fieldNat w 114 3)) ((List.range 64).map fun i =>
          narrowElem f (lane (r.vreg.getD (fieldNat w 107 5) 0#2048) i))) ∧
      r'.writes = r.writes ++ closingWrite r t (lineOf (aopAddr r w 83) 0) ++
        (if bs.all (·.isSome) then
          [{ bank := t + 4, port := 1, serial := r.serial, line := lineOf (aopAddr r w 83) 0, data := asmLine bs, tag := none }]
         else []) ∧
      r'.asmVec = (if bs.all (·.isSome) then none else some (lineOf (aopAddr r w 83) 0, bs)) ∧
      regsOf r' = regsOf r ∧ r'.pendRegs = r.pendRegs ∧ r'.jobs = r.jobs ∧ issued r r' t)

/-! ### The life of a command (01, 04, 11) -/

/-- A command of an engine or a mover that has used its declared cycles ends DONE (R104, R207): its unit is free again with
LAST_STATUS, BUSY and the count, its signals are added to their ties, and memory stays, but for the LEN that an APPEND writes
(R185). A mover's accesses of a creel, if any, have been worked in the core's command. -/
def Sys2Proof.Claims.EngineCommandEndAddsItsSignals : Prop :=
  ∀ (s : State) (u : UnitId) (p : Placed) (e : RunEnd),
    (s.unit u).run = some p → p.stage = .running → p.origin ≠ .tally → (∀ n, u ≠ .tc n) → p.fin = some e →
    e.status = .done → e.bound = none → e.used = hdrDecl p.hdr → s.hoop.inReset = false →
    (∀ m n, u = .mv m → (s.core n).run.visits.any (·.mover == m) = false) → s.storesWf = true →
    ∃ t, exec (.commandEnd u) s = .next t ∧ (t.unit u).run = none ∧ (t.unit u).regs.busy = false ∧
      (t.unit u).regs.lastStatus = Status.done.code ∧ (t.unit u).regs.used = BitVec.ofNat 32 e.used ∧
      (t.unit u).regs.fault = (s.unit u).regs.fault ∧
      (∀ x, t.tieVal x = s.tieVal x + addsTo (endAdds p []) x) ∧
      otherRuns u s t ∧ t.mem = (s.appendLen u p).mem ∧ t.tags = (s.appendLen u p).tags

/-- A core whose program has ended in the cycle before DECL_CYCLES, with no fault up to its end cycle, ends DONE (R112,
R150): the signals and the adds that TIE recorded are made, in a state whose creel writes are worked; where no mover's access
collided there (R83), no other line and no other unit's run changes. -/
def Sys2Proof.Claims.CoreCommandEndAddsSignalsAndTies : Prop :=
  ∀ (s : State) (n : Fin 16) (p : Placed) (y : State) (r : CoreRun),
    (s.unit (.tc n)).run = some p → p.stage = .running → p.origin ≠ .tally → (s.core n).run.ended = true →
    coreRunTo n (endCycle (s.core n).run + 1) (s, (s.core n).run) = (y, r) →
    (∀ f, firstFault r = some f → endCycle (s.core n).run < f) →
    endCycle (s.core n).run + 1 = hdrDecl p.hdr → s.hoop.inReset = false → s.storesWf = true →
    ∃ t, exec (.commandEnd (.tc n)) s = .next t ∧ (t.unit (.tc n)).run = none ∧
      (t.unit (.tc n)).regs.busy = false ∧ (t.unit (.tc n)).regs.lastStatus = Status.done.code ∧
      (t.unit (.tc n)).regs.used = BitVec.ofNat 32 (hdrDecl p.hdr) ∧
      (∀ x, t.tieVal x = s.tieVal x + addsTo (endAdds p r.ties) x) ∧
      (r.collided = [] → r.visitPairs = [] → (∀ k, t.line k = y.line k) ∧ otherRuns (.tc n) s t)

/-- A command that ends DONE adds its signals, and on a core the adds of its TIE instructions. -/
def Obligations.CommandEndAddsItsSignals : Prop := Claims.EngineCommandEndAddsItsSignals ∧ Claims.CoreCommandEndAddsSignalsAndTies

/-- A count that passes DECL_CYCLES ends the command CYCLE_FAULT with no add to any tie (R150, R207); the count is one past
its limit, and no line that the command had begun to write by then is lost. -/
def Sys2Proof.Claims.LateCommandEndsWithCycleFault : Prop :=
  ∀ (s : State) (u : UnitId) (p : Placed) (e : RunEnd),
    (s.unit u).run = some p → p.stage = .running → p.origin ≠ .tally → (∀ n, u ≠ .tc n) → p.fin = some e →
    e.status = .done → e.bound = none → hdrDecl p.hdr < e.used → s.hoop.inReset = false →
    ∃ t, exec (.declCyclesExpiry u) s = .next t ∧ (t.unit u).run = none ∧
      (t.unit u).regs.lastStatus = Status.cycleFault.code ∧ (t.unit u).regs.used = BitVec.ofNat 32 (hdrDecl p.hdr + 1) ∧
      bitAt (t.unit u).regs.sticky 7 = true ∧ (t.unit u).regs.fault = faultWord .cycleFault (hdrDecl p.hdr) ∧
      otherRuns u s t ∧ stoppedBy u (hdrDecl p.hdr) s t

/-- A core whose program issues nothing more by DECL_CYCLES stops on its first fault, where nothing else stopped it on the mismatch
of its count in cycle DECL_CYCLES (R85, R101, R150): status, count and TC_FAULT are those of the fault; TC_FAULT_ADDR holds the port
and line of a tag or conflict fault; TC_RIM a rim mismatch, and TC_SATINFO the first saturated entry drained, unless a record is
valid; no tie is added. Which of several faults of one cycle is recorded is log 75, and not stated. -/
def Sys2Proof.Claims.CoreStopsAtItsFirstFault : Prop :=
  ∀ (s : State) (n : Fin 16) (p : Placed) (y : State) (r : CoreRun) (f : Nat) (x : CoreFault),
    (s.unit (.tc n)).run = some p → p.stage = .running → p.origin ≠ .tally → (s.core n).run.ended = false →
    (∀ w k, p.prog[(s.core n).run.pc]? = some w → issueCycle (s.core n).run w = some k → hdrDecl p.hdr < k) →
    coreRunTo n (hdrDecl p.hdr + 1) (s, (s.core n).run) = (y, r) → firstFault r = some f →
    r.faults.filter (·.cycle == f) = [x] → x.status.isFault = true → s.hoop.inReset = false →
    ∃ t, exec (.declCyclesExpiry (.tc n)) s = .next t ∧ (t.unit (.tc n)).run = none ∧ (t.unit (.tc n)).regs.busy = false ∧
      (t.unit (.tc n)).regs.lastStatus = x.status.code ∧ (t.unit (.tc n)).regs.used = BitVec.ofNat 32 (f + 1) ∧
      (t.unit (.tc n)).regs.fault = faultWord x.status f ∧
      (∀ i, bitAt x.sticky i = true → bitAt (t.unit (.tc n)).regs.sticky i = true) ∧
      (∀ port line, x.info = .line port line →
        (t.unit (.tc n)).regs.faultAddr = BitVec.ofNat 32 (port * 2 ^ 16 + line % 2 ^ 16)) ∧
      (∀ located set row pass col, x.info = .rim located set row pass col → bitAt (y.core n).rim 31 = false →
        (t.core n).rim = BitVec.ofNat 32 (2 ^ 31 + boolNat located * 2 ^ 30 + set * 2 ^ 29 + row * 2 ^ 24 +
          pass % 2 ^ 16 * 2 ^ 8 + col)) ∧
      (bitAt (y.core n).rim 31 = true → (t.core n).rim = (y.core n).rim) ∧
      (bitAt (y.core n).satInfo 31 = true → (t.core n).satInfo = (y.core n).satInfo) ∧
      (∀ c set row col, firstSat (r.marks.filter (·.1 ≤ f)) = some (c, set, row, col) → bitAt (y.core n).satInfo 31 = false →
        (t.core n).satInfo = BitVec.ofNat 32 (2 ^ 31 + set * 2 ^ 13 + row * 2 ^ 8 + col) ∧
        bitAt (t.unit (.tc n)).regs.sticky 5 = true) ∧
      t.ties = s.ties ∧ (r.collided = [] → r.visitPairs = [] → otherRuns (.tc n) s t ∧ ∀ k, t.line k = y.line k)

/-- An abort that reaches a command of its frame before cycle 0 ends it ABORTED with no cycle used, and one that reaches an
engine at work in cycle `k` ends it with `k + 1` cycles used (R151, R203, R207); no tie is added and no fault recorded. -/
def Sys2Proof.Claims.AbortDeliveryEndsTheCommandAborted : Prop :=
  ∀ (s : State) (u : UnitId) (k : Nat) (p : Placed),
    (s.unit u).run = some p → fromGraph p.origin = true → (s.ctx p.ctx).aborting = true →
    (p.stage ≠ .running ∨ ((∀ n, u ≠ .tc n) ∧ p.fin = none)) →
    ∃ t, exec (.abortDelivery u k) s = .next t ∧ (t.unit u).run = none ∧
      (t.unit u).regs.lastStatus = Status.aborted.code ∧
      (t.unit u).regs.used = BitVec.ofNat 32 (if p.stage = .running then k + 1 else 0) ∧
      (t.unit u).regs.fault = (s.unit u).regs.fault ∧ otherRuns u s t ∧ stoppedBy u k s t

/-- A command that is late, faulted or aborted adds to no tie. -/
def Obligations.UnfinishedCommandsAddNoTie : Prop := Claims.LateCommandEndsWithCycleFault ∧ Claims.CoreStopsAtItsFirstFault ∧ Claims.AbortDeliveryEndsTheCommandAborted

/-- COMMAND_PLACE puts a ready head on a free unit that is eligible for it (R330, R334, R336): the head leaves its queue, and a
command of a best-effort context is placed only when no latency-critical one could be. -/
def Obligations.PlacementPrefersLatencyCriticalContexts : Prop :=
  ∀ (s : State) (u : UnitId) (h : HeadRef),
    s.computeUp = true → (s.unit u).run = none → s.tallyDue u = false →
    (∀ r ∈ s.disp.replays, s.replayUnit r ≠ some u) → s.preludeFor u = none → s.headFor u = some h →
    ∃ t p, exec (.commandPlace u) s = .next t ∧ (t.unit u).run = some p ∧
      headLeaves s t h ∧ p.ctx = h.ctx ∧ p.frame = (s.ctx h.ctx).frame.toNat ∧ p.hdr = h.cmd.hdr ∧ p.prog = h.cmd.prog ∧ p.stage = .placed ∧
      s.ready p.hdr p.frame = true ∧ s.eligibleFor u p.ctx p.hdr = true ∧
      ((s.ctx h.ctx).cls = 1 → ∀ g ∈ (s.placeOrder 0).flatMap s.readyHeads, s.eligibleFor u g.ctx g.cmd.hdr = false) ∧
      (t.unit u).regs = (s.unit u).regs ∧ (∀ v, v ≠ u → t.unit v = s.unit v) ∧ otherCtxs h.ctx s t ∧ sameStores s t

/-- The steps from placement to cycle 0 (R107, R108, R315, R337): a header that passes its checks is checked (a core's program
is copied next), a header that fails ends the command with the check's status; a program whose CRC-32C is the header's is
ready; at the start the unit captures the windows and shows the command. -/
def Obligations.PlacedCommandIsCheckedAndStarts : Prop :=
  (∀ (s : State) (u : UnitId) (p : Placed),
    (s.unit u).run = some p → p.stage = .placed → p.origin ≠ .tally → headerCheck s u p = none →
    ∃ t, exec (.headerCheckEnd u) s = .next t ∧
      (t.unit u).run = some { p with stage := if hdrClass p.hdr = 0 then .checked else .ready } ∧
      (t.unit u).regs = (s.unit u).regs ∧ (∀ v, v ≠ u → t.unit v = s.unit v) ∧ sameStores s t) ∧
  (∀ (s : State) (u : UnitId) (p : Placed) (st : Status),
    (s.unit u).run = some p → p.stage = .placed → p.origin ≠ .tally → headerCheck s u p = some st →
    st.ok = false → s.hoop.inReset = false →
    ∃ t, exec (.headerCheckEnd u) s = .next t ∧ (t.unit u).run = none ∧ (t.unit u).regs.lastStatus = st.code ∧
      (t.unit u).regs.used = 0#32 ∧ otherRuns u s t ∧ sameStores s t) ∧
  (∀ (s : State) (n : Fin 16) (p : Placed),
    (s.unit (.tc n)).run = some p → p.stage = .checked → crc32c (progBytes p.prog) = bytesNat p.hdr 88 4 →
    ∃ t, exec (.programCopyEnd n) s = .next t ∧ (t.unit (.tc n)).run = some { p with stage := .ready } ∧
      (t.unit (.tc n)).regs = (s.unit (.tc n)).regs ∧ (∀ v, v ≠ .tc n → t.unit v = s.unit v) ∧ sameStores s t) ∧
  (∀ (s : State) (u : UnitId) (p : Placed),
    (s.unit u).run = some p → p.stage = .ready →
    ∃ t, exec (.commandStart u) s = .next t ∧
      (t.unit u).run = some { p with
        stage := .running
        windows := (s.ctx p.ctx).windows.toList
        slowed := s.power.halved || s.power.stretch } ∧
      (t.unit u).regs.busy = true ∧ (t.unit u).regs.cmd = cmdWord p.ctx (hdrIndex p.hdr) ∧
      (t.unit u).regs.decl = BitVec.ofNat 32 (hdrDecl p.hdr) ∧ (t.unit u).regs.lastStatus = (s.unit u).regs.lastStatus ∧
      (∀ n, u = .tc n → p.origin ≠ .tally → (t.core n).run = startRun (hdrDecl p.hdr)) ∧
      (∀ v, v ≠ u → t.unit v = s.unit v) ∧ t.ctxs = s.ctxs ∧ sameStores s t)

/-- A replay runs on a unit that is eligible for it (R437, R438): after RIM_FAULT, INTERNAL or CREEL_CONFLICT, on another unit
than the one struck where a free choice of another eligible unit exists. -/
def Obligations.ReplayAvoidsTheUnitStruck : Prop :=
  ∀ (s : State) (r : Replay) (c : Cmd) (rest : List Cmd) (u : UnitId),
    s.computeUp = true → s.disp.replays.find? (fun r => (s.replayUnit r).isSome) = some r → r.steps = c :: rest →
    s.replayUnit r = some u →
    ∃ t p, exec .replay s = .next t ∧ (t.unit u).run = some p ∧ p.ctx = r.ctx ∧ p.frame = r.frame ∧ p.hdr = c.hdr ∧
      p.prog = c.prog ∧ p.stage = .placed ∧ (s.unit u).run = none ∧ s.eligibleFor u r.ctx c.hdr = true ∧
      (r.status = .rimFault ∨ r.status = .internal ∨ r.status = .creelConflict →
        (hdrClass c.hdr ≠ 0 ∨ hdrAffinity c.hdr = 0xFF) →
        (∃ v ∈ allUnits, v ≠ r.struck ∧ s.eligibleFor v r.ctx c.hdr = true) → u ≠ r.struck) ∧
      (∀ v, v ≠ u → t.unit v = s.unit v) ∧ t.ctxs = s.ctxs ∧ sameStores s t

/-- The end of a frame of a context whose ring has room (R331, R371): the reconciliation lists set their ties to
E + S × (frame + 1), the reply of the frame goes to its place on the reply ring, which host memory has below address 2^48, unless
a Function Level Reset has silenced it (R359), and FRAME is the next frame's number. -/
def Obligations.FrameEndReconcilesRepliesAndCounts : Prop :=
  ∀ (s : State) (c : Fin 4096) (f : FrameRun) (g : GraphImage) (r : Ring) (ab : Bool) (l : List TieLine),
    c.val ≠ 0 → s.computeUp = true → (s.ctx c.val).run = some f → (s.ctx c.val).img = some g → (s.ctx c.val).ring = some r →
    r.waiting = [] → s.replyMay r = true → (s.ctx c.val).hushed = false → s.frameOver c.val = some ab → s.storesWf = true →
    l = g.recon ++ (match g.fallback with | some fb => fb.recon | none => []) → (l.map TieLine.tie).Nodup →
    ∃ t rep, exec (.frameEnd c) s = .next t ∧
      (t.ctx c.val).frame = (s.ctx c.val).frame + 1#32 ∧
      (∀ e ∈ l, t.tieVal e.tie = e.e + e.s * ((s.ctx c.val).frame + 1#32)) ∧
      (∀ x, (∀ e ∈ l, e.tie ≠ x) → t.tieVal x = s.tieVal x) ∧
      (r.rqHost = true → r.rqAddr + 32 * 2 ^ r.rqLog2 ≤ 2 ^ 48 →
        Out.hostWrite (r.rqAddr + 32 * (r.r.toNat % 2 ^ r.rqLog2)) (replyBytes rep (r.r + 1#32)) ∈ t.out) ∧
      rep.status = (frameStatus f ab).code ∧ rep.typ = 1 ∧ rep.ctx = c.val ∧ rep.frame = (s.ctx c.val).frame.toNat

/-- The deadline monitor (R342, R343): a frame that passes the limit of a checkpoint not reached switches to its fall-back
graph at the entry of the last checkpoint reached in order, with an event, and no waiting replay of its primary graph is placed
any more (R439); the stall monitor (R333) notes one event for a
frame of which nothing has been placed within STALL_US. The events' data are laid out as 32-bit words (log 61). -/
def Obligations.DeadlineSwitchesAndStallIsNoted : Prop :=
  (∀ (s : State) (c : Fin 4096) (f : FrameRun),
    s.computeUp = true → (s.ctx c.val).run = some f → (s.ctx c.val).monitor = true → (s.ctx c.val).fbId ≠ 0#32 → f.originKnown = true →
    f.switched = false → f.aborted = false → (s.ctx c.val).aborting = false → s.limitPassed (s.ctx c.val) f = true →
    recorderOpen s →
    ∃ t f', exec (.deadlineLimit c) s = .next t ∧ (t.ctx c.val).run = some f' ∧ f'.switched = true ∧
      f'.fallback = true ∧ (t.ctx c.val).path = 1 + (s.ctx c.val).ckptLast ∧
      (∀ g fb, (s.ctx c.val).img = some g → g.fallback = some fb →
        f'.fbHeads = fb.entries.getD (s.ctx c.val).ckptLast []) ∧
      (∀ r ∈ t.disp.replays, r.ctx = c.val → r.placed = true ∨ r.fallback = true) ∧
      ((∀ r ∈ s.disp.replays, r.ctx = c.val → r.placed = true ∨ r.fallback = true) →
        oneEvent s t .fallback (words [c.val, (s.ctx c.val).frame.toNat, (s.ctx c.val).ckptLast]) ∧ t.units = s.units) ∧
      otherCtxs c.val s t ∧ sameStores s t) ∧
  (∀ (s : State) (c : Fin 4096) (f : FrameRun),
    s.computeUp = true → (s.ctx c.val).run = some f → (s.ctx c.val).stallUs ≠ 0#32 → f.firstPlaced = false → f.stallLogged = false →
    f.begunNs + 1000 * (s.ctx c.val).stallUs.toNat ≤ s.nowNs → recorderOpen s →
    ∃ t, exec (.intakeStall c) s = .next t ∧ (t.ctx c.val).run = some { f with stallLogged := true } ∧
      oneEvent s t .intakeStall (words ([c.val, (s.ctx c.val).frame.toNat] ++ s.unmetTies (s.ctx c.val) f)) ∧
      otherCtxs c.val s t ∧ t.units = s.units ∧ sameStores s t)

/-- A diagnostic interval asks each enabled unit that is not quarantined for its test and marks a unit whose test of the
interval before has not been made UNVERIFIED (R348, R350). -/
def Sys2Proof.Claims.IntervalStartAsksEveryUnitForItsTest : Prop :=
  ∀ s : State, s.computeUp = true →
    ∃ t, exec .diagnosticIntervalStart s = .next t ∧
      (∀ u, s.enabled u = true → (s.unit u).regs.quarantine = false → (t.unit u).regs.tallyPending = true) ∧
      (∀ u, (s.enabled u = false ∨ (s.unit u).regs.quarantine = true) →
        (t.unit u).regs.tallyPending = (s.unit u).regs.tallyPending) ∧
      (∀ u, (t.unit u).regs.unverified = ((s.unit u).regs.unverified || (s.unit u).regs.tallyPending)) ∧
      (∀ u, (t.unit u).run = (s.unit u).run) ∧ t.disp.interval = s.disp.interval + 1 ∧ t.ctxs = s.ctxs ∧ sameStores s t

/-- Slices (R338, R339): at a boundary the slice passes to the next member, ascending and wrapping, with a ready tensor-core
command, and stays with its holder where no other member has one; once the holder's last command has ended, the group passes to
the member chosen, with a fresh slice. That one row does the switch, on the mover of Config, is log 92; that a holder keeps its
slice to the end is log 91. -/
def Obligations.SliceBoundaryAndSwitchPassTheGroup : Prop :=
  (∀ (s : State) (g : Fin 16) (x : Slice),
    s.computeUp = true → s.sliceOf g.val = some x → x.expired = false →
    ∃ t, exec (.sliceBoundary g) s = .next t ∧ t.units = s.units ∧ sameStores s t ∧
      ((∀ d ∈ s.members g.val, d ≠ x.holder → s.readyTc d = false) →
        t.disp.slices[g] = some x ∧ otherCtxs x.holder s t) ∧
      (∀ c, (membersAfter (s.members g.val) x.holder).find? s.readyTc = some c → (s.ctx c).owed.toNat < s.sliceLen →
        t.disp.slices[g] = some { x with expired := true, next := some c } ∧ t.ctxs = s.ctxs)) ∧
  (∀ (s : State) (g : Fin 16) (overrun : Nat) (x : Slice) (c : Nat),
    s.sliceOf g.val = some x → x.expired = true → x.next = some c → s.runsOnCore x.holder = false →
    s.switchMay (Config.switchMover g) (s.switchCores x.holder c) = true →
    ∃ t, exec (.sliceSwitch g overrun) s = .next t ∧
      t.disp.slices[g] = some { holder := c, expired := false, next := none } ∧
      (∀ u, (t.unit u).run = (s.unit u).run) ∧ t.ties = s.ties ∧
      (s.switchCores x.holder c = [] → t.units = s.units ∧ sameStores s t))

/-- TALLY_TEST_COMPLETE (R349, R350, R445): a test that passes frees the unit and clears UNVERIFIED, one that fails
quarantines it and sets HOOP_ERR.TALLY_FAIL. A test passes when every fault that it met was injected, it missed none that it
injected, and its digest is right; else its status is that of the first fault it did not inject (of one cycle, the one that R86
chooses), or INTERNAL where it injected them all. -/
def Sys2Proof.Claims.TallyTestClearsOrQuarantines : Prop :=
  (∀ (s : State) (u : UnitId) (p : Placed) (r : TallyResult),
    s.domainHeld = false → (s.unit u).run = some p → p.origin = .tally → p.stage = .running →
    (∀ f ∈ r.faults, f.injected = true) → r.missed = false → r.digestOk = true →
    ∃ t, exec (.tallyTestComplete u r) s = .next t ∧ (t.unit u).run = none ∧ (t.unit u).regs.unverified = false ∧
      (t.unit u).regs.lastStatus = Status.done.code ∧
      (t.unit u).regs.quarantine = (s.unit u).regs.quarantine ∧ (∀ v, v ≠ u → t.unit v = s.unit v) ∧ sameStores s t) ∧
  (∀ (s : State) (u : UnitId) (p : Placed) (r : TallyResult),
    s.domainHeld = false → (s.unit u).run = some p → p.origin = .tally → p.stage = .running →
    ((∃ f ∈ r.faults, f.injected = false) ∨ r.missed = true ∨ r.digestOk = false) →
    ∃ t, exec (.tallyTestComplete u r) s = .next t ∧ (t.unit u).run = none ∧ (t.unit u).regs.quarantine = true ∧
      ((∀ f ∈ r.faults, f.injected = true) → (t.unit u).regs.lastStatus = Status.internal.code) ∧
      (∀ f ∈ r.faults, f.injected = false →
        (∀ g ∈ r.faults, g.injected = false → g = f ∨ f.cycle < g.cycle ∨
          (f.cycle = g.cycle ∧ (faultOfCode f.status).rank < (faultOfCode g.status).rank)) →
        (t.unit u).regs.lastStatus = (faultOfCode f.status).code) ∧
      bitAt t.hoop.err 9 = true ∧ bitAt t.hoop.err 8 = true ∧ otherRuns u s t ∧ sameStores s t)

/-- A diagnostic interval asks for the tally tests, whose results clear or quarantine a unit. -/
def Obligations.IntervalsAskForTestsAndTestsAreJudged : Prop := Claims.IntervalStartAsksEveryUnitForItsTest ∧ Claims.TallyTestClearsOrQuarantines

/-! ### Plait (06) -/

/-- STAGE (R198): every line of the shard's records is copied to its place in the record buffer, and nothing else
changes. Its count takes the mover transfers to be as long as declared (log 70). -/
def Sys2Proof.Claims.StageCopiesTheShardsRecords : Prop :=
  ∀ (s : State) (p : Fin 2) (c : Placed) (k : KvDesc) (h : PlaitHdr),
    s.working (.plt p) = some c → s.namedMover c.hdr = true → bytesNat c.hdr 12 1 = 3 → h = plaitHdr c.hdr → s.storesWf = true →
    s.tagOk (hamKey h.kvd) = true → kvDesc (s.line (hamKey h.kvd)) = some k → stageCheck h k = none →
    (∀ m ∈ stageMoves h k, s.lineAssigned m.1 = true ∧ s.tagOk m.1 = true) →
    ((stageMoves h k).map (·.2)).Nodup →
    ∃ t, exec (.stage p []) s = .next t ∧ worked (.plt p) c (max (hdrDecl c.hdr) 32) t ∧
      (∀ m ∈ stageMoves h k, t.line m.2 = s.line m.1 ∧ t.tagOk m.2 = true) ∧
      (∀ a, a ∉ (stageMoves h k).map (·.2) → t.line a = s.line a ∧ t.tag a = s.tag a) ∧ onlyUnit (.plt p) s t

/-- APPEND (R181, R185, R186): its work writes only the records of the blocks of its tokens, and where it ends DONE, LEN of the
descriptor grows by the tokens appended, with no other byte of any line written. Its count takes the mover transfers to be as long
as declared (log 70). -/
def Sys2Proof.Claims.AppendGrowsTheKvContext : Prop :=
  (∀ (s : State) (p : Fin 2) (c : Placed) (k : KvDesc) (h : PlaitHdr),
    s.working (.plt p) = some c → s.namedMover c.hdr = true → bytesNat c.hdr 12 1 = 1 → h = plaitHdr c.hdr → s.storesWf = true →
    s.tagOk (hamKey h.kvd) = true → kvDesc (s.line (hamKey h.kvd)) = some k → appendCheck s h k = none →
    (∀ e, e < h.nhead → ∀ half, half < 2 → s.lineAssigned (s.kvScale k h.layer (h.head0 + e) half).1 = true ∧
      s.tagOk (s.kvScale k h.layer (h.head0 + e) half).1 = true) →
    (let n := ceilDiv (h.p2 * h.nhead * k.d * (if h.arg = 2 then 4 else 2)) 256
     ∀ i, i < n → s.tagOk (hamKey (h.p0 + i)) = true ∧ s.tagOk (hamKey (h.p1 + i)) = true) →
    (∀ a ∈ appendKeys h k, s.lineAssigned a = true) →
    (k.len % 64 ≠ 0 → ∀ e, e < h.nhead → ∀ i, i < k.rs →
      s.tagOk (k.recKey h.layer (h.head0 + e) (k.len / 64) + i) = true) →
    ∃ t, exec (.append p []) s = .next t ∧
      worked (.plt p) c (max (hdrDecl c.hdr)
        (2 * (48 + h.p2 * h.nhead * ceilDiv (2 * k.d * (if h.arg = 2 then 4 else 2)) 64))) t ∧
      (∀ a, a ∉ appendKeys h k → t.line a = s.line a ∧ t.tag a = s.tag a) ∧ onlyUnit (.plt p) s t) ∧
  (∀ (s : State) (i : Fin 2) (p : Placed) (e : RunEnd) (d : Nat),
    (s.unit (.plt i)).run = some p → p.stage = .running → p.origin ≠ .tally → p.fin = some e → e.status = .done →
    e.bound = none → e.used = hdrDecl p.hdr → bytesNat p.hdr 12 1 = 1 → s.hoop.inReset = false → s.storesWf = true →
    d = hamKey (plaitHdr p.hdr).kvd →
    ∃ t, exec (.commandEnd (.plt i)) s = .next t ∧
      bytesNat (t.line d) 8 8 = (bytesNat (s.line d) 8 8 + (plaitHdr p.hdr).p2) % 2 ^ 64 ∧
      bytesNat (t.line d) 0 8 = bytesNat (s.line d) 0 8 ∧ bytesNat (t.line d) 16 240 = bytesNat (s.line d) 16 240 ∧
      (∀ a, a ≠ d → t.line a = s.line a ∧ t.tag a = s.tag a) ∧ otherRuns (.plt i) s t)

/-- STAGE copies a shard, and APPEND grows a KV context; neither writes anything else. -/
def Obligations.StageAndAppendWriteOnlyTheirLines : Prop := Claims.StageCopiesTheShardsRecords ∧ Claims.AppendGrowsTheKvContext

/-- FEED (R187 to R191) of blocks that are held, assigned and good: it ends DONE after its occupancy, and writes only its tile
sets. Its count takes the mover transfers to be as long as declared (log 70), and a FEED from a record buffer selects its head
in the records of all heads (log 78). -/
def Obligations.FeedWritesOnlyItsTileSets : Prop :=
  ∀ (s : State) (p : Fin 2) (c : Placed) (k : KvDesc) (h : PlaitHdr),
    s.working (.plt p) = some c → s.namedMover c.hdr = true → bytesNat c.hdr 12 1 = 2 → h = plaitHdr c.hdr → s.storesWf = true →
    s.tagOk (hamKey h.kvd) = true → kvDesc (s.line (hamKey h.kvd)) = some k → feedCheck h k = none →
    s.lineAssigned (s.kvScale k h.layer h.head0 0).1 = true → s.tagOk (s.kvScale k h.layer h.head0 0).1 = true →
    (∀ n, n < h.p1 → h.p0 + n * h.p4 < ceilDiv k.len 64 →
      (∀ i, i < k.rs → s.lineAssigned (feedKey k h n (h.p0 + n * h.p4) + i) = true ∧
        s.tagOk (feedKey k h n (h.p0 + n * h.p4) + i) = true) ∧
      bytesNat (s.line (feedKey k h n (h.p0 + n * h.p4))) 4 4 = (h.p0 + n * h.p4) % 2 ^ 32) →
    ∃ t, exec (.feed p []) s = .next t ∧
      worked (.plt p) c (max (hdrDecl c.hdr) (2 * (32 + ceilDiv h.p1 2 * feedLines k))) t ∧
      outside h.p2 (ceilDiv h.p1 2 * feedLines k) s t ∧ onlyUnit (.plt p) s t

/-! ### Twining, Coil and Waling (07) -/

/-- SAMPLE (R207, R210 to R215): with legal fields and good lines it ends DONE after twice its occupancy; the output record of each
query is that of its samples, its lines are written, and nothing else; ENG_STAT counts the samples that its queries excluded. -/
def Obligations.SampleWritesOneRecordPerQuery : Prop :=
  ∀ (s : State) (e : Fin 4) (c : Placed) (h : SampleHdr) (ls : List Level) (lv : List (Level × Array Byte)) (sa : Array Byte),
    s.working (.twn e) = some c → h = sampleHdr c.hdr → s.storesWf = true → s.tagOk (hamKey h.levt) = true →
    sampleCheck s c.hdr = none → ls = levelsOf h.nlev (s.line (hamKey h.levt)) →
    (∀ l ∈ ls, ∀ i, i < ceilDiv (l.w * l.h * h.vr) 256 → s.tagOk (hamKey (l.src + i)) = true) →
    (∀ i, i < ceilDiv (16 * h.nq * h.nsq) 256 → s.tagOk (hamKey (h.samp + i)) = true) →
    lv = ls.map (fun l => (l, (s.bytesAt (hamKey l.src) 0 (l.w * l.h * h.vr)).toArray)) →
    sa = (s.bytesAt (hamKey h.samp) 0 (16 * h.nq * h.nsq)).toArray →
    ∃ t, exec (.sample e []) s = .next t ∧ worked (.twn e) c (2 * sampleOcc h ls) t ∧
      (∀ q, q < h.nq → t.bytesAt (hamKey h.out) (q * h.ob) h.ob = (sampleQuery h lv sa q).1) ∧
      (∀ x ∈ (sampleRun h lv sa h.nq).1, t.line x.1 = x.2 ∧ t.tagOk x.1 = true) ∧
      (t.unit (.twn e)).regs.stat =
        statAdd (s.unit (.twn e)).regs.stat ((List.range h.nq).map fun q => (sampleQuery h lv sa q).2).sum ∧
      outside h.out (ceilDiv (h.nq * h.ob) 256) s t ∧ onlyUnit (.twn e) s t

/-- SCATTER (R225): each cell of the grid holds the feature record of the last coordinate that names it, and a cell that none names
holds 0; the summary holds the features placed and those whose cell lies outside the grid; only the grid and the summary are
written. -/
def Sys2Proof.Claims.ScatterPlacesEachFeatureInItsCell : Prop :=
  ∀ (s : State) (e : Fin 2) (c : Placed) (w : Line) (fr nv cells : Nat) (cell : Nat → Nat),
    s.working (.coil e) = some c → bytesNat c.hdr 12 1 = 2 → s.storesWf = true →
    w = s.line (hamKey (bytesNat c.hdr 20 4)) → s.tagOk (hamKey (bytesNat c.hdr 20 4)) = true →
    scatterCheck s c.hdr = none → fr = scatterFr c.hdr → nv = scatterNv c.hdr → cells = sweepNx w * sweepNy w →
    (∀ i, i < ceilDiv (4 * nv) 256 → s.tagOk (hamKey (bytesNat c.hdr 24 4 + i)) = true) →
    (∀ i, i < ceilDiv (nv * fr) 256 → s.tagOk (hamKey (bytesNat c.hdr 28 4 + i)) = true) →
    (∀ i, i < nv → cell i = natOfBytes (s.bytesAt (hamKey (bytesNat c.hdr 24 4)) (4 * i) 4)) →
    ∃ t, exec (.scatter e []) s = .next t ∧ worked (.coil e) c (2 * scatterOcc c.hdr w) t ∧
      (∀ k, k < cells → hamKey (bytesNat c.hdr 32 4 + k * fr / 256) ≠ hamKey (bytesNat c.hdr 88 4) →
        (∀ i, i < nv → cell i = k → (∀ j, i < j → j < nv → cell j ≠ k) →
          t.bytesAt (hamKey (bytesNat c.hdr 32 4)) (k * fr) fr = s.bytesAt (hamKey (bytesNat c.hdr 28 4)) (i * fr) fr) ∧
        ((∀ i, i < nv → cell i ≠ k) → t.bytesAt (hamKey (bytesNat c.hdr 32 4)) (k * fr) fr = List.replicate fr 0#8)) ∧
      bytesNat (t.line (hamKey (bytesNat c.hdr 88 4))) 0 4 = ((List.range nv).filter fun i => cell i < cells).length ∧
      bytesNat (t.line (hamKey (bytesNat c.hdr 88 4))) 4 4 = nv - ((List.range nv).filter fun i => cell i < cells).length ∧
      (∀ k, k ≠ hamKey (bytesNat c.hdr 88 4) →
        (k < hamKey (bytesNat c.hdr 32 4) ∨ hamKey (bytesNat c.hdr 32 4) + ceilDiv (cells * fr) 256 ≤ k) →
        t.line k = s.line k ∧ t.tag k = s.tag k) ∧ onlyUnit (.coil e) s t

/-- VOXEL (R217 to R224): with good descriptor, sweep, table and packet lines it ends DONE after twice its occupancy; where no two
of its output lines are one, the points of each voxel, the cells of the voxels in the order of their allocation and the summary are
those of the run over its slots; ENG_STAT counts the points dropped; nothing else is written. -/
def Sys2Proof.Claims.VoxelWritesPointsCoordinatesAndSummary : Prop :=
  ∀ (s : State) (e : Fin 2) (c : Placed) (d w : Line) (r : VoxelRun),
    s.working (.coil e) = some c → bytesNat c.hdr 12 1 = 1 → s.storesWf = true →
    d = s.line (hamKey (voxDesc c.hdr)) → w = s.line (hamKey (voxSweep c.hdr)) →
    s.tagOk (hamKey (voxDesc c.hdr)) = true → s.tagOk (hamKey (voxSweep c.hdr)) = true → voxelCheck s c.hdr = none →
    (bytesNat d 1 1 = 1 → (∀ i, i < ceilDiv (8 * bytesNat d 28 4) 256 → s.tagOk (hamKey (bytesNat d 32 4 + i)) = true) ∧
      ∀ i, i < 12 → s.tagOk (hamKey (bytesNat d 36 4 + i)) = true) →
    (∀ i, i < voxNpkt c.hdr * voxSlotl c.hdr → s.tagOk (hamKey (voxSlot0 c.hdr + i)) = true) →
    r = s.voxelRun c.hdr d w (voxNpkt c.hdr) →
    ∃ t, exec (.voxel e []) s = .next t ∧ worked (.coil e) c (2 * voxelOcc c.hdr d w) t ∧
      (((voxelOutputs c.hdr w r).map (·.1)).Nodup →
        (∀ x ∈ voxelOutputs c.hdr w r, t.line x.1 = x.2 ∧ t.tagOk x.1 = true) ∧
        (∀ i, i < sweepVmax w * sweepPmax w → t.bytesAt (hamKey (voxOutp c.hdr)) (16 * i) 16 =
          if sparseGet [] r.points i = [] then List.replicate 16 0#8 else sparseGet [] r.points i) ∧
        (∀ v, v < sweepVmax w → t.bytesAt (hamKey (voxOutc c.hdr)) (4 * v) 4 = natToBytes 4 (r.order.getD v 0xFFFFFFFF)) ∧
        bytesNat (t.line (hamKey (voxOuts c.hdr))) 0 4 = r.order.length % 2 ^ 32 ∧
        bytesNat (t.line (hamKey (voxOuts c.hdr))) 4 4 = r.stored % 2 ^ 32) ∧
      (t.unit (.coil e)).regs.stat = statAdd (s.unit (.coil e)).regs.stat r.drops.length ∧
      (∀ k, k ≠ hamKey (voxOuts c.hdr) →
        (k < hamKey (voxOutp c.hdr) ∨
          hamKey (voxOutp c.hdr) + ceilDiv (16 * (sweepVmax w * sweepPmax w)) 256 ≤ k) →
        (k < hamKey (voxOutc c.hdr) ∨ hamKey (voxOutc c.hdr) + ceilDiv (4 * sweepVmax w) 256 ≤ k) →
        t.line k = s.line k ∧ t.tag k = s.tag k) ∧ onlyUnit (.coil e) s t

/-- SCATTER and VOXEL end DONE after their occupancies and write only their outputs. -/
def Obligations.CoilPlacesFeaturesAndVoxels : Prop := Claims.ScatterPlacesEachFeatureInItsCell ∧ Claims.VoxelWritesPointsCoordinatesAndSummary

/-- TOPK, NMS2D and NMSBEV (R227, R230 to R232): with legal fields and good candidate lines each ends DONE after twice its
occupancy; it selects K of the valid candidates by descending score, keeps from the selection those that the command's rule keeps,
and writes its output lines and nothing else. -/
def Obligations.WalingSelectsByDescendingScore : Prop :=
  ∀ (s : State) (e : Fin 2) (c : Placed) (h : WalHdr),
    s.working (.wal e) = some c → h = walHdr c.hdr → walCheck c.hdr = none → s.storesWf = true →
    (∀ j, j < ceilDiv (32 * h.n) 256 → s.tagOk (hamKey (h.inLine + j)) = true) →
    (h.op = 1 → ∃ t, exec (.topk e []) s = .next t ∧ walingLeaves e c h s t) ∧
    (h.op = 2 → ∃ t, exec (.nms2d e []) s = .next t ∧ walingLeaves e c h s t) ∧
    (h.op = 3 → ∃ t, exec (.nmsbev e []) s = .next t ∧ walingLeaves e c h s t)

/-! ### Movers (10) -/

/-- COPY between stores of this chip (R316 to R318): with legal fields, lines that translate, no fenced creel, no collision
noted, good tags, and grants for every line, whose times rest on logs 20 and 76, each destination line takes the source line
with its tag, every other line stays, and the command ends DONE 4 FCLK cycles after its last write. -/
def Sys2Proof.Claims.CopyMovesItsLinesWithTheirTags : Prop :=
  ∀ (s : State) (m : Fin 8) (p : Placed) (src dst : Nat → Nat) (x : CopyClock),
    s.working (.mv m) = some p → bytesNat p.hdr 12 1 = 1 → (s.copies[m]).waiting = false → (s.copies[m]).stalled = false →
    s.storesWf = true → p.clash = none →
    copyCheck s p.windows p.hdr = none → s.copyBounded p.windows (copyHdr p.hdr) = false →
    (∀ k, k < (copyHdr p.hdr).total →
      s.translateOpt p.windows ((copyHdr p.hdr).srcCa k) false = some (.device (src k)) ∧
      s.translateOpt p.windows ((copyHdr p.hdr).dstCa k) true = some (.device (dst k)) ∧
      s.fencedCreel (.device (src k)) = false ∧ s.fencedCreel (.device (dst k)) = false ∧ s.tagOk (src k) = true) →
    (∀ j k, j < k → k < (copyHdr p.hdr).total → dst j ≠ dst k) →
    clockAfter s m p.windows (copyHdr p.hdr) src dst (copyHdr p.hdr).total = some x →
    ∃ t, exec (.copy m []) s = .next t ∧ worked (.mv m) p (2 * (x.wrote - x.base + 4)) t ∧
      (∀ k, k < (copyHdr p.hdr).total → t.line (dst k) = s.line (src k) ∧ t.tag (dst k) = s.tag (src k)) ∧
      (∀ a, (∀ k, k < (copyHdr p.hdr).total → a ≠ dst k) → t.line a = s.line a ∧ t.tag a = s.tag a) ∧
      onlyUnit (.mv m) s t

/-- Host reads of a COPY (R318, R320): the last line that comes from the host is written to its device line with a good tag
and the command's work is done; an error or a timeout ends it WINDOW_FAULT with HOST_ERR, and no line is written. -/
def Sys2Proof.Claims.HostReadsCompleteOrFault : Prop :=
  (∀ (s : State) (m : Fin 8) (p : Placed) (line : Line) (dst : Nat),
    s.working (.mv m) = some p → (s.copies[m]).waiting = true →
    (s.copies[m]).k + 1 = (copyHdr p.hdr).total → s.storesWf = true →
    s.translateOpt p.windows ((copyHdr p.hdr).dstCa (s.copies[m]).k) true = some (.device dst) →
    s.fencedCreel (.device dst) = false →
    ∃ t e, exec (.hostReadCompletion m line false []) s = .next t ∧
      (t.unit (.mv m)).run = some { p with fin := some e } ∧ e.status = .done ∧ e.used ≤ max 1 (if p.slowed then 2 * hdrDecl p.hdr else hdrDecl p.hdr) ∧
      t.line dst = line ∧ t.tagOk dst = true ∧ (∀ a, a ≠ dst → t.line a = s.line a ∧ t.tag a = s.tag a) ∧
      onlyUnit (.mv m) s t) ∧
  (∀ (s : State) (m : Fin 8) (p : Placed), s.working (.mv m) = some p → (s.copies[m]).waiting = true →
    (∀ line, ∃ t, exec (.hostReadCompletion m line true []) s = .next t ∧ hostReadFailed m p s t) ∧
    ∃ t, exec (.completionTimeout m) s = .next t ∧ hostReadFailed m p s t)

/-- COPY moves lines with their tags on the chip, and takes lines that the host returns. -/
def Obligations.CopyMovesLinesAndHostReadsComplete : Prop := Claims.CopyMovesItsLinesWithTheirTags ∧ Claims.HostReadsCompleteOrFault

/-! ### Transfers over links (13) -/

/-- TIEMSG (R403): one TIE flit leaves on the next hop, with the tie, the context and the amount, and the command's work is
done after 32 cycles. -/
def Sys2Proof.Claims.TiemsgSendsOneTieFlit : Prop :=
  ∀ (s : State) (m : Fin 8) (p : Placed) (l : Fin 6),
    s.working (.mv m) = some p → bytesNat p.hdr 12 1 = 4 → tiemsgCheck s p.ctx p.hdr = none →
    bytesNat p.hdr 13 1 < 8 → s.route (bytesNat p.hdr 13 1) = some l → sendsNow s l →
    ∃ (t : State) (g : Flit), exec (.tiemsg m) s = .next t ∧ worked (.mv m) p 32 t ∧ t.out = s.out ++ [.flit l.val (flitWire g)] ∧ g.typ = 0x10#8 ∧
      g.dst = BitVec.ofNat 3 (bytesNat p.hdr 13 1) ∧ g.src = BitVec.ofNat 3 s.self ∧
      fieldNat g.payload 0 16 = bytesNat p.hdr 28 2 ∧ fieldNat g.payload 32 32 = fieldNat p.hdr 288 17 ∧
      fieldNat g.payload 64 32 = bytesNat p.hdr 20 4 ∧ g.fseq = (s.link l).txNext ∧
      (∀ k, k ≠ l → t.link k = s.link k) ∧ sameStores s t ∧ t.ctxs = s.ctxs

/-- SEND with a READY of its XID and size waiting, on a link that can hold the whole transfer (R396, R398, R402): HEAD, the DATA
flits and TAIL leave in order, the READY is used up, and the command's work is done after the span of its slots. RECV posts
its receive and sends READY (R398 step 1). -/
def Obligations.SendStreamsAndRecvPosts : Prop :=
  (∀ (s : State) (m : Fin 8) (p : Placed) (l : Fin 6) (nl : Nat) (rt : Bool) (x : Nat × Nat),
    s.working (.mv m) = some p → bytesNat p.hdr 12 1 = 2 → p.begun = false → p.sendBegun = false → s.slowed = false →
    s.openSend (.mv m) p = false → sendCheck p.hdr = none → s.sendWindowBad p = none → bytesNat p.hdr 13 1 = l.val → bytesNat p.hdr 36 4 = nl →
    s.peerOf l.val = some x → s.fabric.lost.getLsbD x.1 = false → s.fabric.down.getLsbD x.1 = false →
    (s.link l).active = true → (s.link l).txOwner = none → (s.link l).txq = [] → (s.link l).xq = [] →
    (s.link l).out.length + dataFlits nl + 2 ≤ 128 →
    (s.link l).readies.find? (fun r => r.1 == halfXid (.mv m) p.hdr) = some (halfXid (.mv m) p.hdr, nl, rt) →
    (∀ k, k < nl → s.sendFault (.mv m) p k = none) →
    ∃ (t : State) (fs : List Flit) (e : RunEnd) (q : Placed), exec (.send m []) s = .next t ∧
      t.out = s.out ++ fs.map (fun f => Out.flit l.val (flitWire f)) ∧ fs.length = dataFlits nl + 2 ∧
      (fs.head?.map Flit.typ = some 0x01#8) ∧ (fs.getLast?.map Flit.typ = some 0x03#8) ∧
      (∀ i, 0 < i → i + 1 < fs.length → (fs[i]?.map Flit.typ = some 0x02#8)) ∧
      (∀ i f, fs[i]? = some f → f.fseq = (s.link l).txNext + BitVec.ofNat 16 i) ∧
      (t.unit (.mv m)).run = some q ∧ q.fin = some e ∧ e.status = .done ∧ e.used = 2 * slotSpan (slotsOf nl) ∧
      (t.link l).readies = (s.link l).readies.erase (halfXid (.mv m) p.hdr, nl, rt) ∧
      (∀ v, v ≠ .mv m → t.unit v = s.unit v) ∧ sameStores s t ∧ t.ctxs = s.ctxs) ∧
  (∀ (s : State) (m : Fin 8) (p : Placed) (l : Fin 6) (d : Nat) (x : Nat × Nat),
    s.working (.mv m) = some p → bytesNat p.hdr 12 1 = 3 → p.begun = false → p.posted = false →
    (∀ a b, p.origin ≠ .replay a b) → recvCheck p.hdr = none → s.recvWindowBad (.mv m) p = none →
    bytesNat p.hdr 13 1 = l.val → s.recvLine (.mv m) p 0 = some d →
    s.peerOf l.val = some x → s.fabric.lost.getLsbD x.1 = false → s.fabric.down.getLsbD x.1 = false → sendsNow s l →
    (s.link l).posted.length < 4 →
    ∃ (t : State) (g : Flit), exec (.recv m []) s = .next t ∧ t.out = s.out ++ [.flit l.val (flitWire g)] ∧ g.typ = 0x04#8 ∧
      fieldNat g.payload 0 32 = bytesNat p.hdr 104 4 ∧ fieldNat g.payload 32 32 = bytesNat p.hdr 36 4 ∧
      bitAt g.payload 64 = false ∧
      (t.link l).posted = (s.link l).posted ++
        [{ xid := halfXid (.mv m) p.hdr, nl := bytesNat p.hdr 36 4, dline := d, unit := .mv m }] ∧
      (t.unit (.mv m)).run = some { p with begun := true, posted := true, ups := [] } ∧
      (∀ v, v ≠ .mv m → t.unit v = s.unit v) ∧ sameStores s t ∧ t.ctxs = s.ctxs)

/-- ROTATE (R404): it posts its receive half on the link opposite to the one it sends on around a ring, with XID, size and
destination of its header, and sends READY there; its send half waits for a READY of the next chip. -/
def Sys2Proof.Claims.RotatePostsItsReceiveHalf : Prop :=
  ∀ (s : State) (i : Fin 2) (p : Placed) (a b : Fin 6) (x y : Nat × Nat),
    s.working (.plt i) = some p → bytesNat p.hdr 12 1 = 4 → p.begun = false → p.posted = false → p.sendBegun = false →
    (∀ c d, p.origin ≠ .replay c d) → s.namedMover p.hdr = true → bytesNat p.hdr 17 1 = a.val → b.val = (if a.val ≤ 1 then 1 - a.val else a.val) →
    0 < bytesNat p.hdr 32 4 → bytesNat p.hdr 32 4 ≤ 524288 → s.recvWindowBad (.plt i) p = none →
    s.peerOf a.val = some x → s.fabric.lost.getLsbD x.1 = false → s.fabric.down.getLsbD x.1 = false →
    s.peerOf b.val = some y → s.fabric.lost.getLsbD y.1 = false → s.fabric.down.getLsbD y.1 = false →
    (s.link a).active = true → sendsNow s b → (s.link b).posted.length < 4 →
    (s.link a).readies.find? (fun r => r.1 == halfXid (.plt i) p.hdr) = none →
    ∃ (t : State) (g : Flit), exec (.rotate i []) s = .next t ∧ t.out = s.out ++ [.flit b.val (flitWire g)] ∧ g.typ = 0x04#8 ∧
      fieldNat g.payload 0 32 = bytesNat p.hdr 36 4 ∧ fieldNat g.payload 32 32 = bytesNat p.hdr 32 4 ∧
      (t.link b).posted = (s.link b).posted ++
        [{ xid := halfXid (.plt i) p.hdr, nl := bytesNat p.hdr 32 4, dline := bytesNat p.hdr 28 4, unit := .plt i }] ∧
      (t.unit (.plt i)).run = some { p with begun := true, posted := true, ups := [] } ∧
      (∀ v, v ≠ .plt i → t.unit v = s.unit v) ∧ sameStores s t ∧ t.ctxs = s.ctxs

/-- TIEMSG sends its TIE flit, and ROTATE posts its receive half. -/
def Obligations.TiemsgSendsAndRotatePosts : Prop := Claims.TiemsgSendsOneTieFlit ∧ Claims.RotatePostsItsReceiveHalf

/-- HEAD, READY and REFUSE (R391, R398, R399): a HEAD that names a posted receive opens its transfer and uses the posting up; one
that names none is counted and discarded; a READY is kept for the send half of its XID; a REFUSE is only logged. -/
def Obligations.HeadOpensThePostedTransfer : Prop :=
  (∀ (s : State) (l : Fin 6) (f : Flit) (u : UnitId) (p : Placed) (q : Posted),
    Arrives s l f 0x01#8 → Receiving s l u p → (s.link l).rx = none →
    (s.link l).posted.find? (fun y => y.xid == f.payload.extractLsb' 0 32 && y.nl == fieldNat f.payload 32 32 &&
      y.dline == fieldNat f.payload 64 32) = some q → q.unit = u →
    ∃ t, exec (.head l f) s = .next t ∧ acceptedOn l s t ∧
      (t.link l).rx = some { post := some q, i := 0, bytes := [], tags := [], lines := 0 } ∧
      (t.link l).posted = (s.link l).posted.erase q ∧ (t.link l).refused = (s.link l).refused ∧
      (t.unit u).run = some { p with slowed := s.slowed } ∧ (t.unit u).regs = (s.unit u).regs ∧
      (∀ v, v ≠ u → t.unit v = s.unit v) ∧ sameStores s t) ∧
  (∀ (s : State) (l : Fin 6) (f : Flit),
    Arrives s l f 0x01#8 → noHalves s → (s.link l).rx = none → (s.link l).posted = [] → recorderOpen s →
    ∃ t, exec (.head l f) s = .next t ∧ acceptedOn l s t ∧ (t.link l).refused = satInc (s.link l).refused ∧
      (∃ r, (t.link l).rx = some r ∧ r.post = none) ∧ oneEvent s t (.linkRefused l.val) [] ∧ sameStores s t) ∧
  (∀ (s : State) (l : Fin 6) (f : Flit),
    Arrives s l f 0x04#8 → noHalves s → (s.link l).sent = [] →
    ∃ t, exec (.ready l f) s = .next t ∧ acceptedOn l s t ∧
      (t.link l).readies = (s.link l).readies ++
        [(f.payload.extractLsb' 0 32, fieldNat f.payload 32 32, bitAt f.payload 64)] ∧
      t.units = s.units ∧ t.disp = s.disp ∧ sameStores s t) ∧
  (∀ (s : State) (l : Fin 6) (f : Flit),
    Arrives s l f 0x05#8 → noHalves s → recorderOpen s →
    ∃ t, exec (.refuse l f) s = .next t ∧ acceptedOn l s t ∧ oneEvent s t (.linkRefused l.val) [] ∧ t.units = s.units ∧
      sameStores s t)

/-- DATA and TAIL (R396, R398, R399): a DATA flit adds its 240 bytes, and the line whose last byte it brings is written at its
place with its carried tag checked, and no other line; a TAIL with the XID, the flit count and the digest of the transfer
ends the receive half DONE. -/
def Obligations.DataWritesLinesAndTailEndsTheHalf : Prop :=
  (∀ (s : State) (l : Fin 6) (f : Flit) (u : UnitId) (p : Placed) (r : RxTransfer) (q : Posted) (bytes : List Byte),
    Arrives s l f 0x02#8 → Receiving s l u p → (s.link l).rx = some r → r.post = some q → q.unit = u → p.ups = [] →
    r.lines = 240 * r.i / 256 → bytes = r.bytes ++ toBytes f.payload 240 → s.storesWf = true → r.lines < q.nl →
    (256 * (r.lines + 1) ≤ 240 * (r.i + 1) →
      lineTag (lineOfBytes ((bytes.drop (256 * r.lines)).take 256)) = (r.tags ++ [f.tagw]).getD r.lines 0#32) →
    ∃ t, exec (.data l f) s = .next t ∧ acceptedOn l s t ∧
      (∃ r', (t.link l).rx = some r' ∧ r'.post = some q ∧ r'.i = r.i + 1 ∧ r'.bytes = bytes) ∧
      (256 * (r.lines + 1) ≤ 240 * (r.i + 1) →
        t.line (hamKey (q.dline + r.lines)) = lineOfBytes ((bytes.drop (256 * r.lines)).take 256) ∧
        t.tagOk (hamKey (q.dline + r.lines)) = true) ∧
      (∀ k, (256 * (r.lines + 1) ≤ 240 * (r.i + 1) → k ≠ hamKey (q.dline + r.lines)) →
        t.line k = s.line k ∧ t.tag k = s.tag k) ∧ (t.unit u).run = some p ∧ (t.unit u).regs = (s.unit u).regs ∧
      (∀ v, v ≠ u → t.unit v = s.unit v) ∧ t.ties = s.ties) ∧
  (∀ (s : State) (l : Fin 6) (f : Flit) (u : UnitId) (p : Placed) (r : RxTransfer) (q : Posted) (m : Fin 8),
    Arrives s l f 0x03#8 → Receiving s l u p → (s.link l).rx = some r → r.post = some q → q.unit = u → u = .mv m →
    p.slowed = false → p.ups = [] →
    f.payload.extractLsb' 0 32 = q.xid → r.i = dataFlits q.nl →
    fieldNat f.payload 32 64 = xferDigest (r.bytes.take (256 * q.nl)) f.src.toNat q.xid →
    ∃ t e, exec (.tail l f) s = .next t ∧ acceptedOn l s t ∧ (t.link l).rx = none ∧
      (t.unit u).run = some { p with recvDone := true, fin := some e } ∧ e.status = .done ∧
      e.used = 2 * (slotSpan (slotsOf (bytesNat p.hdr 36 4)) + 160) ∧
      (∀ v, v ≠ u → t.unit v = s.unit v) ∧ sameStores s t)

/-- The link layer's own rows (R391, R392, R400): an IDLE flit's acknowledge frees the flits up to ACKSEQ; a bad CRC is counted
and, once, answered by NACK, and a stomped flit is discarded; after 2 µs without progress every unacknowledged flit is sent
again in order, the stamps of time flits taken anew; a transfer that stops for 10 µs ends its receive half PEER_LOST. -/
def Obligations.LinkLayerAcknowledgesAndReplays : Prop :=
  (∀ (s : State) (l : Fin 6) (f : Flit),
    f.typ = 0x00#8 → f.ackv = true → f.nack = false → (s.link l).active = true → (s.link l).txq = [] → (s.link l).xq = [] →
    noHalves s →
    ∃ t, exec (.idleFlit l f) s = .next t ∧
      (t.link l).out = (s.link l).out.filter (fun g => !seqLe g.fseq f.ackSeq) ∧
      (t.link l).rxNext = (s.link l).rxNext ∧ t.units = s.units ∧ t.out = s.out ∧ sameStores s t) ∧
  (∀ (s : State) (l : Fin 6) (w : BitVec 2048),
    (s.link l).active = true → (s.link l).nacked = false → flitSyndrome w ≠ 0 → flitSyndrome w ≠ 0xFFFFFFFF →
    ∃ (t : State) (pre : List Out) (g : Flit), exec (.flitCrcError l w) s = .next t ∧
      (t.link l).crcErr = satInc (s.link l).crcErr ∧
      (t.link l).crcSeen = true ∧ (t.link l).nacked = true ∧ (t.link l).rxNext = (s.link l).rxNext ∧
      t.out = s.out ++ pre ++ [.flit l.val (flitWire g)] ∧ (routedType (flitOf w).typ = false → pre = []) ∧
      g.typ = 0x00#8 ∧ g.nack = true ∧ g.ackv = true ∧ g.ackSeq = (s.link l).rxNext - 1#16 ∧ sameStores s t) ∧
  (∀ (s : State) (l : Fin 6) (w : BitVec 2048), flitSyndrome w = 0xFFFFFFFF → exec (.flitCrcError l w) s = .next s) ∧
  (∀ (s : State) (l : Fin 6),
    (s.link l).active = true → (s.link l).out ≠ [] → (s.link l).replaysInRow < 15 →
    ∃ (t : State) (fs : List Flit), exec (.ackTimeout l) s = .next t ∧
      (t.link l).out = fs ∧ t.out = s.out ++ fs.map (fun f => Out.flit l.val (flitWire f)) ∧
      fs.map Flit.fseq = (s.link l).out.map Flit.fseq ∧ fs.map Flit.typ = (s.link l).out.map Flit.typ ∧
      (∀ (i : Nat) (f g : Flit), fs[i]? = some f → (s.link l).out[i]? = some g → g.typ.toNat < 0x20 → f.payload = g.payload) ∧
      (t.link l).replaysInRow = (s.link l).replaysInRow + 1 ∧ sameStores s t) ∧
  (∀ (s : State) (l : Fin 6) (r : RxTransfer) (q : Posted) (p : Placed),
    (s.link l).rx = some r → r.post = some q → (∀ v w, s.working v = some w → w.begun = true → v = q.unit) →
    (s.unit q.unit).run = some p →
    ∃ t e, exec (.transferGapTimeout l false) s = .next t ∧ (t.link l).rx = none ∧
      (t.unit q.unit).run = some { p with fin := some e } ∧ e.status = .peerLost ∧ sameStores s t)

/-! ### Messages, time and notices over links (13, 16) -/

/-- TIE, MAIL and MACK flits for this chip (R405, R406): an admitted TIE adds its amount to the tie, any other is counted and
changes no tie; MAIL enters the channel bound to its sender, and MACK acknowledges one that waits. The IDLE that acknowledges an
accepted flit, and its place in the count of R391, are the model's choice (log 62). -/
def Obligations.TieMailAndMackAreDelivered : Prop :=
  (∀ (s : State) (l : Fin 6) (f : Flit),
    Arrives s l f 0x10#8 → noHalves s → f.dst.toNat = s.self → tieAdmitted s f → s.storesWf = true →
    ∃ t, exec (.tieFlit l f) s = .next t ∧ acceptedOn l s t ∧
      (∀ x, t.tieVal x = if x = fieldNat f.payload 32 32 then s.tieVal x + f.payload.extractLsb' 64 32 else s.tieVal x) ∧
      (t.link l).refused = (s.link l).refused ∧ t.units = s.units ∧ t.ctxs = s.ctxs ∧ t.mem = s.mem ∧ t.tags = s.tags) ∧
  (∀ (s : State) (l : Fin 6) (f : Flit),
    Arrives s l f 0x10#8 → noHalves s → f.dst.toNat = s.self → ¬ tieAdmitted s f → recorderOpen s →
    ∃ t, exec (.tieFlit l f) s = .next t ∧ acceptedOn l s t ∧ (t.link l).refused = satInc (s.link l).refused ∧
      oneEvent s t (.linkRefused l.val) [] ∧ onlyIdles s t ∧ t.units = s.units ∧ t.ctxs = s.ctxs ∧ sameStores s t) ∧
  (∀ (s : State) (l : Fin 6) (f : Flit) (ch : Fin 64),
    Arrives s l f 0x11#8 → noHalves s → f.dst.toNat = s.self → fieldNat f.payload 0 8 = ch.val →
    (s.binding ch.val).1 = 0x10 + f.src.toNat →
    ∃ t, exec (.mail l f) s = .next t ∧ acceptedOn l s t ∧ (t.chan ch).msg = f.payload.extractLsb' 32 512 ∧
      (t.chan ch).st = 1 ∧ (t.chan ch).foreign = (s.chan ch).foreign ∧ (∀ d, d ≠ ch → t.chan d = s.chan d) ∧
      sameStores s t) ∧
  (∀ (s : State) (l : Fin 6) (f : Flit) (ch : Fin 64),
    Arrives s l f 0x12#8 → noHalves s → f.dst.toNat = s.self → fieldNat f.payload 0 8 = ch.val →
    (s.binding ch.val).2 = 0x10 + f.src.toNat → (s.chan ch).st = 1 →
    ∃ t, exec (.mack l f) s = .next t ∧ acceptedOn l s t ∧ (t.chan ch).ack = f.payload.extractLsb' 16 16 ∧
      (t.chan ch).st = 2 ∧ (t.chan ch).msg = (s.chan ch).msg ∧ (∀ d, d ≠ ch → t.chan d = s.chan d) ∧ sameStores s t)

/-- Time over links (R407 to R409): a beacon of the time parent more than 1 ns off starts the count of good beacons again; a
DELAY_REQ is answered; a DELAY_RESP to the request sent gives the link its delay; beacons, requests and responses leave with
the time of the device at their leaving, a response no earlier than its request came; 100 µs without a beacon lose TIME_LOCK,
with an event. The phase within the tick is free (log 18), and stamps without fraction and the rounding of the delay are the
model's choice (log 62). -/
def Obligations.TimeBeaconsAndDelaysFollowTheParent : Prop :=
  (∀ (s : State) (l : Fin 6) (f : Flit) (phase : Nat),
    Arrives s l f 0x20#8 → noHalves s → s.timeLink = some l → s.tu.follow = false → s.fabric.timeLock = true →
    (let o : Int := (s.stampQ phase : Int) - wireQ (f.payload.extractLsb' 0 96) - (s.link l).delay.toNat * 16777216
     o < -4294967296 ∨ 4294967296 < o) →
    ∃ t, exec (.beacon l f phase) s = .next t ∧ acceptedOn l s t ∧ t.fabric.beaconsGood = 0 ∧ t.fabric.timeLock = true ∧
      t.tu = s.tu ∧ sameStores s t) ∧
  (∀ (s : State) (l : Fin 6) (f : Flit) (phase : Nat),
    Arrives s l f 0x21#8 → noHalves s → (s.link l).out = [] →
    ∃ (t : State) (g : Flit) (ph : Nat), exec (.delayReq l f phase) s = .next t ∧ acceptedOn l s t ∧
      Out.flit l.val (flitWire g) ∈ t.out ∧ g.typ = 0x22#8 ∧ ph < 80 ∧
      g.payload.extractLsb' 0 96 = f.payload.extractLsb' 0 96 ∧
      g.payload.extractLsb' 96 96 = timeWord (s.stamp phase).sec (s.stamp phase).ns ∧
      (let t3 : Stamp := Stamp.later (s.stamp ph) { s.stamp phase with frac := 0 }
       g.payload.extractLsb' 192 96 = timeWord t3.sec t3.ns) ∧ sameStores s t) ∧
  (∀ (s : State) (l : Fin 6) (f : Flit) (phase : Nat) (t1 : Stamp),
    Arrives s l f 0x22#8 → noHalves s → s.timeLink = some l → s.fabric.t1 = some t1 →
    f.payload.extractLsb' 0 96 = timeWord t1.sec t1.ns →
    ∃ t, exec (.delayResp l f phase) s = .next t ∧ acceptedOn l s t ∧ t.fabric.t1 = none ∧
      (t.link l).delay = BitVec.ofInt 32 ((((s.stampQ phase : Int) - t1.q) -
        (wireQ (f.payload.extractLsb' 192 96) - wireQ (f.payload.extractLsb' 96 96))) / 2 / 16777216) ∧ sameStores s t) ∧
  (∀ (s : State) (l : Fin 6) (x : Nat × Nat),
    s.peerOf l.val = some x → (∀ k ∈ s.usedLinks, sendsNow s k) →
    ∃ (t : State) (g : Flit) (ph : Nat), exec .beaconSend s = .next t ∧ Out.flit l.val (flitWire g) ∈ t.out ∧
      g.typ = 0x20#8 ∧ ph < 80 ∧ g.payload.extractLsb' 0 96 = timeWord (s.stamp ph).sec (s.stamp ph).ns ∧
      fieldNat g.payload 96 8 = hopCount s.fabric.topo s.fabric.nm1 8 s.self ∧
      bitAt g.payload 104 = s.timeLocked ∧ t.out.length = s.out.length + s.usedLinks.length ∧ t.tu = s.tu ∧
      sameStores s t) ∧
  (∀ (s : State) (l : Fin 6),
    s.timeLink = some l → sendsNow s l → (s.peerOf l.val).isSome = true →
    ∃ (t : State) (g : Flit) (ph : Nat), exec .delayMeasure s = .next t ∧ ph < 80 ∧ t.fabric.t1 = some (s.stamp ph) ∧
      t.out = s.out ++ [.flit l.val (flitWire g)] ∧ g.typ = 0x21#8 ∧
      g.payload.extractLsb' 0 96 = timeWord (s.stamp ph).sec (s.stamp ph).ns ∧ sameStores s t) ∧
  (∀ s : State, s.fabric.timeLock = true → recorderOpen s →
    ∃ t, exec .timeHoldover s = .next t ∧ t.fabric.timeLock = false ∧ t.fabric.beaconsGood = 0 ∧
      oneEvent s t .timeHoldover [] ∧ t.tu = s.tu ∧ sameStores s t)

/-- Notices (R462 to R465): a notice older than the highest EPOCH seen changes nothing in the fabric; a newer one is
accepted, and a PEER_DOWN, PEER_UP or PEER_LOST sets or clears what this chip holds of its subject; MANAGER names the manager,
of two MANAGER notices of one EPOCH the lower chip. -/
def Sys2Proof.Claims.NoticesUpdateTheViewOfTheFabric : Prop :=
  ∀ (s : State) (l : Fin 6) (f : Flit) (p e : Nat),
    Arrives s l f 0x13#8 → noHalves s → f.dst.toNat = s.self → p = fieldNat f.payload 8 3 → e = fieldNat f.payload 16 16 →
    (e < s.fabric.epoch →
      (fieldNat f.payload 0 8 = 0x01 → ∃ t, exec (.heartbeat l f) s = .next t ∧ noticeIgnored l s t) ∧
      (fieldNat f.payload 0 8 = 0x10 → ∃ t, exec (.peerDown l f) s = .next t ∧ noticeIgnored l s t) ∧
      (fieldNat f.payload 0 8 = 0x11 → ∃ t, exec (.peerUp l f) s = .next t ∧ noticeIgnored l s t) ∧
      (fieldNat f.payload 0 8 = 0x12 → ∃ t, exec (.peerLost l f) s = .next t ∧ noticeIgnored l s t) ∧
      (fieldNat f.payload 0 8 = 0x20 → ∃ t, exec (.manager l f) s = .next t ∧ noticeIgnored l s t)) ∧
    (s.fabric.epoch ≤ e →
      (fieldNat f.payload 0 8 = 0x01 → ∃ t, exec (.heartbeat l f) s = .next t ∧ acceptedOn l s t ∧
        t.fabric = { s.fabric with epoch := e } ∧ t.units = s.units ∧ sameStores s t) ∧
      (fieldNat f.payload 0 8 = 0x10 → p ≠ s.self → ∃ t, exec (.peerDown l f) s = .next t ∧ acceptedOn l s t ∧
        t.fabric = { s.fabric with epoch := e, down := s.fabric.down ||| (1#8 <<< p) } ∧ sameStores s t) ∧
      (fieldNat f.payload 0 8 = 0x11 → ∃ t, exec (.peerUp l f) s = .next t ∧ acceptedOn l s t ∧
        t.fabric = { s.fabric with
          epoch := e
          down := s.fabric.down &&& ~~~(1#8 <<< p)
          lost := s.fabric.lost &&& ~~~(1#8 <<< p) } ∧ sameStores s t) ∧
      (fieldNat f.payload 0 8 = 0x12 → p ≠ s.self → ∃ t, exec (.peerLost l f) s = .next t ∧ acceptedOn l s t ∧
        t.fabric = { s.fabric with
          epoch := e
          down := s.fabric.down ||| (1#8 <<< p)
          lost := s.fabric.lost ||| (1#8 <<< p) } ∧ sameStores s t) ∧
      (fieldNat f.payload 0 8 = 0x20 → ∃ t, exec (.manager l f) s = .next t ∧ acceptedOn l s t ∧
        t.fabric = { s.fabric with
          epoch := e
          manager := if s.fabric.managerEpoch = some e then min s.fabric.manager f.src.toNat else f.src.toNat
          managerEpoch := some e } ∧
        t.units = s.units ∧ sameStores s t))

/-- The manager (R463, R464): RESET_ENTER of a chip makes it down, RESET_RETURN up, OUT_OF_SERVICE and 4 ms without its heartbeat
lost; another chip sends its heartbeat to the manager, with the next NSEQ: the notice leaves on the link of the route to the
manager, or waits there while 128 flits are unacknowledged; a link that is not ACTIVE sends nothing. -/
def Sys2Proof.Claims.ManagerJudgesTheChips : Prop :=
  ∀ (s : State) (l : Fin 6) (f : Flit) (p : Nat),
    Arrives s l f 0x13#8 → noHalves s → f.dst.toNat = s.self → p = fieldNat f.payload 8 3 → p ≠ s.self →
    s.isManager = true → s.fabric.epoch ≤ fieldNat f.payload 16 16 →
    (fieldNat f.payload 0 8 = 0x02 → ∃ t, exec (.resetEnter l f) s = .next t ∧ t.fabric.down.getLsbD p = true ∧
      t.fabric.manager = s.self ∧ t.fabric.epoch = fieldNat f.payload 16 16 ∧ sameStores s t) ∧
    (fieldNat f.payload 0 8 = 0x03 → ∃ t, exec (.resetReturn l f) s = .next t ∧ t.fabric.down.getLsbD p = false ∧
      t.fabric.lost.getLsbD p = false ∧ sameStores s t) ∧
    (fieldNat f.payload 0 8 = 0x04 → ∃ t, exec (.outOfService l f) s = .next t ∧ t.fabric.lost.getLsbD p = true ∧
      sameStores s t) ∧
    (∀ c : Fin 8, c.val ∈ s.chips → c.val ≠ s.self → ∃ t, exec (.heartbeatMissing c) s = .next t ∧
      t.fabric.lost.getLsbD c.val = true ∧ sameStores s t) ∧
    (∀ z : State, z.hoopRuns = true → z.fabric.en = true → z.fabric.manager ≠ z.self → ∃ t, exec .heartbeatSend z = .next t ∧
      t.fabric.nseq = z.fabric.nseq + 1#32 ∧ t.fabric.down = z.fabric.down ∧ sameStores z t ∧
      (∀ k : Fin 6, z.fabric.manager < 8 → z.route z.fabric.manager = some k →
        (sendsNow z k → ∃ g, isHeartbeat z g ∧ t.out = z.out ++ [.flit k.val (flitWire g)] ∧ g.fseq = (z.link k).txNext) ∧
        ((z.link k).active = true → 128 ≤ (z.link k).out.length →
          ∃ g, isHeartbeat z g ∧ g ∈ (t.link k).txq ∧ t.out = z.out) ∧
        ((z.link k).active = false → t.out = z.out)))

/-- Notices update what a chip holds of the others, and the manager judges them. -/
def Obligations.NoticesAreAppliedAndJudged : Prop := Claims.NoticesUpdateTheViewOfTheFabric ∧ Claims.ManagerJudgesTheChips

/-- Training (R384, R385): LNK_CTRL written by Osier or Hoop with EN starts an OFF link of the topology in DETECT, and RETRAIN
starts a link again from DETECT; each state's exit leads to the next, and from IDENT to ACTIVE only with the peer's values of
the wiring; a time-out goes back to DETECT, the third leaves the link down, with an event. -/
def Obligations.TrainingWalksFromDetectToActive : Prop :=
  (∀ (s : State) (m : Byte) (l : Fin 6) (v : Word),
    (m = 0x02#8 ∨ m = 0x03#8) → bitAt v 0 = true → (s.peerOf l.val).isSome = true → noHalves s →
    (bitAt v 1 = false → (s.link l).st = 0 → ∃ t, exec (.linkEnable m l v) s = .next t ∧ inDetect l t ∧ sameStores s t) ∧
    (bitAt v 1 = true → ∃ t, exec (.retrain m l v) s = .next t ∧ inDetect l t ∧ sameStores s t)) ∧
  (∀ (s : State) (l : Fin 6) (peer : Ident),
    (s.link l).training = true → (s.link l).st < 4 →
    ∃ t, exec (.trainingStateExit l peer) s = .next t ∧ (t.link l).st = (s.link l).st + 1 ∧
      (∀ k, k ≠ l → t.link k = s.link k) ∧ sameStores s t) ∧
  (∀ (s : State) (l : Fin 6) (peer : Ident),
    (s.link l).training = true → (s.link l).st = 4 →
    ∃ t, exec (.trainingStateExit l peer) s = .next t ∧
      ((s.peerOf l.val = some (peer.chip.toNat, peer.link) ∧ peer.topo = s.fabric.topo ∧ peer.nm1 = s.fabric.nm1) →
        (t.link l).active = true ∧ (t.link l).fails = 0) ∧
      (¬(s.peerOf l.val = some (peer.chip.toNat, peer.link) ∧ peer.topo = s.fabric.topo ∧ peer.nm1 = s.fabric.nm1) →
        (t.link l).wiring = true ∧ (t.link l).st = 4) ∧ sameStores s t) ∧
  (∀ (s : State) (l : Fin 6),
    (s.link l).training = true → recorderOpen s →
    ∃ t, exec (.trainingTimeout l) s = .next t ∧ (t.link l).st = 1 ∧ (t.link l).fails = (s.link l).fails + 1 ∧
      ((s.link l).fails < 2 → (t.link l).failed = false ∧ t.evr.queue = s.evr.queue) ∧
      (2 ≤ (s.link l).fails → (t.link l).failed = true ∧ oneEvent s t (.linkDown l.val) []) ∧ sameStores s t)

/-! ### Sensor intake (08) -/

/-- A camera frame of a stream without sync group (R251 to R256): its start opens an attempt with the frame number, the capture
time and the region list, if that is used, each good line of its data type is kept, and the frame end after H lines delivers:
the record of the delivered index is written, the index and the good count rise, TIE_IN grows by one, and only the buffer and
the record change. That lines of an attempt reach memory only at its delivery is the model's choice (log 65). -/
def Obligations.CameraFrameOpensFillsAndDelivers : Prop :=
  (∀ (s : State) (port : Fin 8) (vc : Fin 16) (fn : BitVec 16) (j : Fin 2 × Fin 12) (d : Line),
    s.camBy port vc = some j → s.intakeUp = true → (s.cam j.1 j.2).desc = some d → (s.cam j.1 j.2).attempt = none →
    (s.cam j.1 j.2).next = [] → (s.cam j.1 j.2).disabling = false → (s.unit (.rid j.1)).regs.quarantine = false →
    camGroup d = 0xFF → camFnum d = false → (s.regionList d (s.cam j.1 j.2).n).2.2 = false →
    ((s.cam j.1 j.2).n < camNbuf d ∨ s.tieReached (camTieRel d) ((s.cam j.1 j.2).n - camNbuf d + 1) = true) →
    ∃ t a, exec (.csi2FrameStart port vc fn false) s = .next t ∧ (t.cam j.1 j.2).attempt = some a ∧ a.fn = fn.toNat ∧
      a.capSec = s.tu.sec.toNat ∧ a.capNs = s.tu.ns ∧ a.rows = [] ∧ a.ended = false ∧
      a.regions = (s.regionList d (s.cam j.1 j.2).n).2.1 ∧
      (t.cam j.1 j.2).roi = (if a.regions = none then satInc (s.cam j.1 j.2).roi else (s.cam j.1 j.2).roi) ∧
      a.srcFrame = ((s.cam j.1 j.2).srcFrame + 1) % 2 ^ 32 ∧ (t.cam j.1 j.2).n = (s.cam j.1 j.2).n ∧
      t.units = s.units ∧ t.ctxs = s.ctxs ∧ sameStores s t) ∧
  (∀ (s : State) (port : Fin 8) (vc : Fin 16) (dt : BitVec 6) (payload : List Byte) (j : Fin 2 × Fin 12) (d : Line)
    (a : Attempt),
    s.camBy port vc = some j → (s.cam j.1 j.2).desc = some d → (s.cam j.1 j.2).attempt = some a →
    (s.cam j.1 j.2).next = [] → a.ended = false →
    (dt.toNat = 0x2B ∨ dt.toNat = 0x2C ∨ dt.toNat = 0x1E ∨ dt.toNat = 0x1F) → dt.toNat = camDt d →
    payload.length = camLineBytes d →
    ∃ t, exec (.csi2LongPacket port vc dt payload true true false []) s = .next t ∧
      (t.cam j.1 j.2).attempt = some { a with rows := a.rows ++ [payload] } ∧ t.units = s.units ∧ t.ctxs = s.ctxs ∧
      sameStores s t) ∧
  (∀ (s : State) (port : Fin 8) (vc : Fin 16) (fn : BitVec 16) (j : Fin 2 × Fin 12) (d : Line) (a : Attempt),
    s.camBy port vc = some j → (s.cam j.1 j.2).desc = some d → (s.cam j.1 j.2).attempt = some a →
    (s.cam j.1 j.2).next = [] → a.ended = false → camGroup d = 0xFF → a.rows.length = camH d → camPort d ≠ 0xFF →
    s.storesWf = true →
    ∃ t rec_, exec (.csi2FrameEnd port vc fn false) s = .next t ∧ (t.cam j.1 j.2).n = (s.cam j.1 j.2).n + 1 ∧
      (t.cam j.1 j.2).good = satInc (s.cam j.1 j.2).good ∧ (t.cam j.1 j.2).attempt = none ∧
      t.line (camRecordKey d (s.cam j.1 j.2).n) = rec_ ∧ bytesNat rec_ 0 1 = camSrc d % 256 ∧
      bytesNat rec_ 4 4 = a.srcFrame % 2 ^ 32 ∧ bytesNat rec_ 24 4 = (s.cam j.1 j.2).n % 2 ^ 32 ∧
      (∀ x, t.tieVal x = if x = camTieIn d then s.tieVal x + 1#32 else s.tieVal x) ∧
      (∀ k, k ≠ camRecordKey d (s.cam j.1 j.2).n →
        (k < hamKey (camBuffer d ((s.cam j.1 j.2).n % max 1 (camNbuf d))) ∨
          hamKey (camBuffer d ((s.cam j.1 j.2).n % max 1 (camNbuf d))) +
            (camLines d (s.cam j.1 j.2).remap a.rows a.regions).length ≤ k) →
        t.line k = s.line k ∧ t.tag k = s.tag k) ∧ t.units = s.units)

/-- Camera attempts that do not deliver (R253, R255, R257): a missing frame end fails the open attempt with cause 6; members
of a group that never started fail with cause 9 and the others with them, and nothing is delivered; a stream is only marked
when it is disabled, and stops at its next frame start. -/
def Obligations.FailedAttemptsDeliverNothing : Prop :=
  (∀ (s : State) (i : Fin 2) (k : Fin 12) (d : Line) (a : Attempt),
    (s.cam i k).desc = some d → (s.cam i k).attempt = some a → (s.cam i k).next = [] → a.ended = false →
    camGroup d = 0xFF →
    ∃ t, exec (.feTimeout i k) s = .next t ∧ (t.cam i k).attempt = none ∧ (t.cam i k).n = (s.cam i k).n ∧
      (t.cam i k).fail = satInc (s.cam i k).fail ∧ (t.cam i k).lastCause = 6 ∧
      (t.cam i k).skipped = min 255 ((s.cam i k).skipped + 1) ∧ (t.unit (.rid i)).regs.sticky.getLsbD 5 = true ∧
      sameStores s t) ∧
  (∀ (s : State) (c : Fin 4096) (g : Fin 8) (m p : Fin 2 × Fin 12) (a : Attempt),
    m ∈ s.groupMembers c.val g.val → p ∈ s.groupMembers c.val g.val → (s.cam m.1 m.2).attempt = none →
    (s.cam p.1 p.2).attempt = some a → a.failed = none → (∀ x ∈ s.groupMembers c.val g.val, (s.cam x.1 x.2).next = []) →
    ∃ t, exec (.groupMissing c g) s = .next t ∧
      (∀ x ∈ s.groupMembers c.val g.val, (t.cam x.1 x.2).attempt = none ∧ (t.cam x.1 x.2).n = (s.cam x.1 x.2).n) ∧
      (t.cam m.1 m.2).lastCause = 9 ∧ (t.cam p.1 p.2).lastCause = 0x0A ∧
      (t.cam p.1 p.2).fail = satInc (s.cam p.1 p.2).fail ∧ sameStores s t) ∧
  (∀ (s : State) (i : Fin 2) (k : Fin 12), (s.cam i k).enabled = true →
    ∃ t, exec (.streamDisable i k) s = .next t ∧ (t.cam i k).disabling = true ∧ (t.cam i k).enabled = true ∧
      (t.cam i k).attempt = (s.cam i k).attempt ∧ t.units = s.units ∧ sameStores s t) ∧
  (∀ (s : State) (port : Fin 8) (vc : Fin 16) (fn : BitVec 16) (j : Fin 2 × Fin 12),
    s.camBy port vc = some j → s.intakeUp = true → (s.cam j.1 j.2).attempt = none → (s.cam j.1 j.2).next = [] →
    (s.cam j.1 j.2).disabling = true → (∀ d, (s.cam j.1 j.2).desc = some d → camGroup d = 0xFF) →
    ∃ t, exec (.csi2FrameStart port vc fn false) s = .next t ∧ (t.cam j.1 j.2).enabled = false ∧
      (t.cam j.1 j.2).attempt = none ∧ t.units = s.units ∧ sameStores s t)

/-- A memory source whose TIE_SRC allows its next frame (R258), with good lines and FORMAT 1, delivers it: the index rises,
TIE_IN grows by one, and SRC_FRAME is the header's. -/
def Sys2Proof.Claims.MemorySourceDeliversItsBuffer : Prop :=
  ∀ (s : State) (i : Fin 2) (k : Fin 12) (d : Line) (base : Nat),
    s.intakeUp = true → (s.cam i k).desc = some d → camPort d = 0xFF → (s.cam i k).enabled = true → (s.cam i k).disabling = false →
    (s.cam i k).attempt = none → (s.cam i k).next = [] →
    s.tieReached (camTieSrc d) ((s.cam i k).n + 1) = true → camGroup d = 0xFF → camFnum d = false → (s.regionList d (s.cam i k).n).2.2 = false →
    (s.unit (.rid i)).regs.quarantine = false →
    ((s.cam i k).n < camNbuf d ∨ s.tieReached (camTieRel d) ((s.cam i k).n - camNbuf d + 1) = true) →
    base = hamKey (camMsrc d + (s.cam i k).n % max 1 (camNbuf d) * (1 + camH d * msRowLines d)) →
    (∀ q, q < 1 + camH d * msRowLines d → s.tagOk (base + q) = true) → bytesNat (s.line base) 0 1 = 1 →
    s.storesWf = true →
    ∃ t, exec (.memorySourceAttempt i k []) s = .next t ∧ (t.cam i k).n = (s.cam i k).n + 1 ∧
      (t.cam i k).good = satInc (s.cam i k).good ∧ (t.cam i k).srcFrame = bytesNat (s.line base) 4 4 ∧
      (∀ x, t.tieVal x = if x = camTieIn d then s.tieVal x + 1#32 else s.tieVal x) ∧ t.units = s.units

/-- Ethernet frames (R262, R268, R475): a frame with a bad check sequence is only counted, and an uncorrectable FEC block is
remembered; a PTP frame waits with its stamp; a frame from no source of an enabled stream goes to the management queue; the
packet of an enabled stream takes its slot of the sweep, which the first packet opens, and nothing else is written; a frame sent
leaves with its check sequence; block lock lost drops the link and is remembered, block lock acquired brings it back. The
queue's 64 places are the model's choice (log 14), and the frame layouts are those of the IEEE and IETF standards (log 23). -/
def Obligations.EthernetFramesAreCountedQueuedAndSent : Prop :=
  (∀ (s : State) (m : Fin 4) (b : List Byte) (phase : Nat),
    (s.macs[m]).en = true → (s.macs[m]).link = true → fcsOk b = false →
    ∃ t, exec (.ethernetFrameReceive m b phase false) s = .next t ∧ (t.macs[m]).fcs = satInc (s.macs[m]).fcs ∧
      t.mgmtQ = s.mgmtQ ∧ t.ptpQ = s.ptpQ ∧ t.lidars = s.lidars ∧ sameStores s t) ∧
  (∀ (s : State) (m : Fin 4) (b : List Byte) (phase : Nat),
    (s.macs[m]).en = true → (s.macs[m]).link = true → fcsOk b = true → etherType b.toArray = 0x88F7 →
    s.ptpQ.length < 64 →
    ∃ t, exec (.ethernetFrameReceive m b phase false) s = .next t ∧ t.ptpQ = s.ptpQ ++ [(m.val, s.stamp phase, b)] ∧
      t.mgmtQ = s.mgmtQ ∧ t.macs = s.macs ∧ t.lidars = s.lidars ∧ sameStores s t) ∧
  (∀ (s : State) (m : Fin 4) (b : List Byte) (phase : Nat),
    (s.macs[m]).en = true → (s.macs[m]).link = true → fcsOk b = true → etherType b.toArray ≠ 0x88F7 →
    (∀ k, ¬ lidarSource s m b k) → s.mgmtQ.length < 64 →
    ∃ t, exec (.ethernetFrameReceive m b phase false) s = .next t ∧ t.mgmtQ = s.mgmtQ ++ [(m.val, b)] ∧ t.ptpQ = s.ptpQ ∧
      t.macs = s.macs ∧ t.lidars = s.lidars ∧ sameStores s t) ∧
  (∀ (s : State) (m : Fin 4) (b : List Byte) (phase : Nat) (k : Fin 8) (d : Line) (u : Udp) (w : Sweep),
    LidarArrives s m b k d u → (s.lidars[k]).sweep = some w → w.closed = false → w.discard = false →
    lidarSlot d w u < lidNpkt d → w.slots.any (·.1 == lidarSlot d w u) = false → w.slots.length + 1 < lidNpkt d →
    ∃ t, exec (.ethernetFrameReceive m b phase false) s = .next t ∧
      (t.lidars[k]).sweep = some { w with slots := w.slots ++ [(lidarSlot d w u, s.packetState d u.payload (rxNs s phase))] } ∧
      (t.lidars[k]).s = (s.lidars[k]).s ∧ lidarPlaced s t phase k d u (lidarSlot d w u)) ∧
  (∀ (s : State) (m : Fin 4) (b : List Byte) (phase : Nat) (k : Fin 8) (d : Line) (u : Udp),
    LidarArrives s m b k d u → (s.lidars[k]).sweep = none → 1 < lidNpkt d →
    ((s.lidars[k]).s < lidNbuf d ∨ s.tieReached (lidTieRel d) ((s.lidars[k]).s - lidNbuf d + 1) = true) →
    ∃ t w, exec (.ethernetFrameReceive m b phase false) s = .next t ∧ (t.lidars[k]).sweep = some w ∧
      w.base = lidarSeq d u ∧ w.firstSec = (s.stamp phase).sec ∧ w.firstNs = (s.stamp phase).ns ∧ w.closed = false ∧
      w.discard = false ∧ w.slots = [(0, s.packetState d u.payload (rxNs s phase))] ∧ (t.lidars[k]).s = (s.lidars[k]).s ∧
      lidarPlaced s t phase k d u 0) ∧
  (∀ (s : State) (m : Fin 4) (b : List Byte) (phase : Nat),
    (s.macs[m]).en = true → (s.macs[m]).link = true → fcsOk b = false → (s.macs[m]).fec ≠ 0 →
    ∃ t, exec (.ethernetFrameReceive m b phase true) s = .next t ∧
      t.macs[m] = { s.macs[m] with fecUncorr := true, fcs := satInc (s.macs[m]).fcs } ∧ sameStores s t) ∧
  (∀ (s : State) (m : Fin 4) (b : List Byte) (phase : Nat),
    (s.macs[m]).en = true → (s.macs[m]).link = true → etherType b.toArray ≠ 0x88F7 →
    ∃ t, exec (.ethernetFrameTransmit m b phase) s = .next t ∧
      t.out = s.out ++ [.eth m.val (b ++ natToBytes 4 (crc32 b))] ∧ t.macs = s.macs ∧ sameStores s t) ∧
  (∀ (s : State) (m : Fin 4), (s.macs[m]).blockLock = true →
    ∃ t, exec (.ethBlockLockLost m false) s = .next t ∧
      t.macs[m] = { s.macs[m] with blockLock := false, link := false, linkLost := true } ∧ sameStores s t) ∧
  (∀ (s : State) (m : Fin 4), (s.macs[m]).en = true →
    ∃ t, exec (.ethBlockLockAcquired m) s = .next t ∧
      t.macs[m] = { s.macs[m] with blockLock := true, link := true } ∧ sameStores s t)

/-- A sweep of a lidar stream that is open when TSWEEP_US are over, and is not discarded, is delivered (R267): the missing slots
read 0, the record counts them, the index rises, and TIE_IN grows by one; a sweep that is already closed stays. -/
def Sys2Proof.Claims.SweepTimeoutDeliversTheSweep : Prop :=
  (∀ (s : State) (k : Fin 8) (d : Line) (w : Sweep),
    (s.lidars[k]).desc = some d → (s.lidars[k]).sweep = some w → w.closed = false → w.discard = false →
    s.storesWf = true →
    (let missing := (List.range (lidNpkt d)).filter fun j => !w.slots.any (·.1 == j)
     ∃ t, exec (.tsweepTimeout k) s = .next t ∧ (t.lidars[k]).s = (s.lidars[k]).s + 1 ∧
       (t.lidars[k]).sweeps = satInc (s.lidars[k]).sweeps ∧ (t.lidars[k]).sweep = some { w with closed := true } ∧
       bytesNat (t.line (lidRecordKey d (s.lidars[k]).s)) 24 2 = min 65535 missing.length ∧
       bytesNat (t.line (lidRecordKey d (s.lidars[k]).s)) 8 12 = (timeWord w.firstSec w.firstNs).toNat ∧
       (∀ j ∈ missing, lidSlotKey d (s.lidars[k]).s j ≠ lidRecordKey d (s.lidars[k]).s →
         t.line (lidSlotKey d (s.lidars[k]).s j) = 0#2048) ∧
       (∀ x, t.tieVal x = if x = lidTieIn d then s.tieVal x + 1#32 else s.tieVal x) ∧ t.units = s.units)) ∧
  (∀ (s : State) (k : Fin 8) (w : Sweep), (s.lidars[k]).sweep = some w → w.closed = true →
    exec (.tsweepTimeout k) s = .next s)

/-- A memory source delivers its buffer, and a sweep that times out is delivered. -/
def Obligations.MemorySourcesAndSweepsDeliver : Prop := Claims.MemorySourceDeliversItsBuffer ∧ Claims.SweepTimeoutDeliversTheSweep

/-! ### Skep (09) -/

/-- REQUEST_ACCEPT of a good request that is not cached (R271, R272, R274, R284): it enters the lowest-numbered free slot with its
size, bucket, budget and key, the next request of its descriptor is the next to be accepted, and only the staging area is
written. That the key is formed and looked up at acceptance (log 57), and what the staging area then holds (free lines, log 16), are
the model's choice. -/
def Sys2Proof.Claims.SkepAcceptsRequests : Prop :=
  ∀ (s : State) (i : Fin 2) (j : Fin 8) (k b : Nat) (d : SkepDesc) (req : Packet) (c : Checked),
    s.intakeUp = true → (s.unit (.skp i)).regs.quarantine = false → s.freeSlot i = some j → s.waitingDesc i = some k →
    (s.skep i).descs[k]? = some d →
    s.tagOk (hamKey (repReql d.desc + d.q % max 1 (repNreq d.desc) / 4)) = true →
    req = (s.line (hamKey (repReql d.desc + d.q % max 1 (repNreq d.desc) / 4))).extractLsb'
      (512 * (d.q % max 1 (repNreq d.desc) % 4)) 512 →
    reqOk req = true → (s.jpegBytes d.ctx req).2 = none →
    c = headerChecks d.desc (reqLen req) (s.jpegBytes d.ctx req).1 none → c.status = .done → c.bucket = some b →
    caches d.desc req = false →
    ∃ (t : State) (x : SkepSlot) (e : SkepDesc), exec (.requestAccept i) s = .next t ∧ SkepHolds t i j x e ∧
      e = { d with
        q := nextRequest d.past d.past.length (d.q + 1)
        past := d.past.filter (nextRequest d.past d.past.length (d.q + 1) < ·) } ∧ x.desc = k ∧ x.req = req ∧ x.q = d.q ∧ x.phase = .decoding ∧ x.w = c.w ∧ x.h = c.h ∧
      x.bucket = some b ∧ x.budget = c.budget ∧ x.hit = false ∧
      x.key = crc64 (natToBytes 4 (reqLen req) ++ natToBytes 4 (optWord d.desc b) ++ (s.jpegBytes d.ctx req).1) ∧
      (∀ n, n ≠ j → (t.skep i).slots[n] = (s.skep i).slots[n]) ∧
      outside (repStage d.desc) 512 s t ∧ t.units = s.units ∧ t.ties = s.ties ∧ t.ctxs = s.ctxs

/-- DECODE_COMPLETE (R280, R283, R287) of a hit, and of a decode that is not cached: the sample takes the next emission index of
its bucket and waits for its emission; a decode writes only the staging area and the slot's scratch lines. The staging area's
contents are free (log 16). -/
def Sys2Proof.Claims.SkepDecodesTakeEmissionIndices : Prop :=
  (∀ (s : State) (i : Fin 2) (j : Fin 8) (run : SkepRun) (x : SkepSlot) (d : SkepDesc) (b : Nat),
    SkepHolds s i j x d → s.skepMover d.desc = true → x.bucket = some b → x.phase = .decoding → run.cycles < x.budget →
    run.parity = false → x.hit = true →
    ∃ t : State, exec (.decodeComplete i j run) s = .next t ∧
      SkepHolds t i j { x with cycles := run.cycles, status := .done, emit := some (d.k.getD b 0), phase := .emitting }
        { d with k := d.k.set b (d.k.getD b 0 + 1) } ∧
      (t.skep i).hit = satInc (s.skep i).hit ∧ otherSlots i j s t ∧ t.units = s.units ∧ sameStores s t) ∧
  (∀ (s : State) (i : Fin 2) (j : Fin 8) (run : SkepRun) (x : SkepSlot) (d : SkepDesc) (b : Nat) (c : Checked)
    (ls : List Line) (part : Bool),
    SkepHolds s i j x d → s.skepMover d.desc = true → x.bucket = some b → x.phase = .decoding → run.cycles < x.budget →
    run.parity = false → x.hit = false → caches d.desc x.req = false → (s.jpegBytes d.ctx x.req).2 = none →
    c = headerChecks d.desc (reqLen x.req) (s.jpegBytes d.ctx x.req).1 none → c.status = .done → c.w = x.w → c.h = x.h →
    decodeSample d.desc (bucketOf d.desc b) c none = .ok (ls, part) →
    ∃ t : State, exec (.decodeComplete i j run) s = .next t ∧
      SkepHolds t i j { x with
          cycles := run.cycles
          status := .done
          partialFill := part
          image := ls
          emit := some (d.k.getD b 0)
          phase := .emitting }
        { d with k := d.k.set b (d.k.getD b 0 + 1) } ∧
      (∀ k, (k < hamKey (repStage d.desc) ∨ hamKey (repStage d.desc) + 512 ≤ k) →
        (k < scratchLine d.desc j.val ∨ scratchLine d.desc j.val + ls.length ≤ k) →
        t.line k = s.line k ∧ t.tag k = s.tag k) ∧
      otherSlots i j s t ∧ t.units = s.units ∧ t.ties = s.ties)

/-- BUDGET_EXPIRY (R284): a decode that reaches its budget is abandoned with DECODE_LIMIT and waits for its record, and the
sticky bit of the instance sets; while its bound mover is fenced or quarantined its count, and so the chip, stays. EMISSION
(R270, R280, R282): the sample whose turn in its bucket it is is copied into its buffer, through the staging area. RECORD_WRITE
(R281, R282): the record, TIE_EMIT for an emitted sample, TIE_REC, and the slot is free. That a sample waits in its slot, and is
emitted and recorded in the order of its bucket's indexes, is the model's choice (log 57), and so are the staging area's
contents (log 16). -/
def Obligations.SkepSamplesAreEmittedAndRecorded : Prop :=
  (∀ (s : State) (i : Fin 2) (j : Fin 8) (x : SkepSlot),
    (s.skep i).slots[j] = some x → x.phase = .decoding →
    (∀ d, (s.skep i).descs[x.desc]? = some d → s.skepMover d.desc = true) →
    ∃ t : State, exec (.budgetExpiry i j) s = .next t ∧
      (t.skep i).slots[j] = some { x with status := .decodeLimit, cycles := x.budget, image := [], emit := none,
                                           phase := .recording } ∧
      bitAt (t.unit (.skp i)).regs.sticky 6 = true ∧ otherSlots i j s t ∧ (t.skep i).descs = (s.skep i).descs ∧
      otherRuns (.skp i) s t ∧ sameStores s t) ∧
  (∀ (s : State) (i : Fin 2) (j : Fin 8) (x : SkepSlot) (d : SkepDesc),
    SkepHolds s i j x d → s.skepMover d.desc = false → exec (.budgetExpiry i j) s = .next s) ∧
  (∀ (s : State) (i : Fin 2) (j : Fin 8) (x : SkepSlot) (d : SkepDesc) (b k base : Nat),
    SkepHolds s i j x d → s.skepMover d.desc = true → x.bucket = some b → x.emit = some k → x.phase = .emitting →
    (s.skep i).firstEmission x = true → s.storesWf = true →
    (k < (bucketOf d.desc b).nbuf ∨ s.tieReached (bucketOf d.desc b).tieRel (k - (bucketOf d.desc b).nbuf + 1) = true) →
    base = hamKey ((bucketOf d.desc b).buf + k % max 1 (bucketOf d.desc b).nbuf * bucketBufl d.desc (bucketOf d.desc b)) →
    ∃ t : State, exec (.emission i j) s = .next t ∧
      (∀ n l, x.image[n]? = some l → t.line (base + n) = l ∧ t.tagOk (base + n) = true) ∧
      (∀ a, (a < base ∨ base + x.image.length ≤ a) → (a < hamKey (repStage d.desc) ∨ hamKey (repStage d.desc) + 512 ≤ a) →
        t.line a = s.line a ∧ t.tag a = s.tag a) ∧
      SkepHolds t i j { x with image := [], phase := .emitted } d ∧ (t.skep i).done = satInc (s.skep i).done ∧
      otherSlots i j s t ∧ t.units = s.units ∧ t.ties = s.ties) ∧
  (∀ (s : State) (i : Fin 2) (j : Fin 8) (x : SkepSlot) (d : SkepDesc) (key : Nat),
    SkepHolds s i j x d → s.storesWf = true → (x.phase = .emitted ∨ x.phase = .recording) →
    (s.skep i).firstEmission x = true → (∀ e ∈ (s.skep i).descs, e.closed = false) →
    (d.r < repNrec d.desc ∨ s.tieReached (repTieRrel d.desc) (d.r - repNrec d.desc + 1) = true) →
    key = hamKey (repRecl d.desc + d.r % max 1 (repNrec d.desc)) →
    ∃ t : State, exec (.recordWrite i j) s = .next t ∧ (t.skep i).slots[j] = none ∧
      bytesNat (t.line key) 0 1 = 1 ∧ bytesNat (t.line key) 1 1 = x.status.code ∧
      bytesNat (t.line key) 16 4 = x.q % 2 ^ 32 ∧ t.tagOk key = true ∧
      (∀ a, a ≠ key → t.line a = s.line a ∧ t.tag a = s.tag a) ∧
      (∀ y, t.tieVal y = s.tieVal y + addsTo ((match x.phase, x.bucket with
          | .emitted, some b => [((bucketOf d.desc b).tieEmit, 1)]
          | _, _ => []) ++ [(repTieRec d.desc, 1)]) y) ∧
      (t.skep i).descs[x.desc]? = some { d with r := d.r + 1 } ∧
      (t.skep i).fail = (if x.status.ok then (s.skep i).fail else satInc (s.skep i).fail) ∧ otherSlots i j s t ∧
      (∀ v, (t.unit v).run = (s.unit v).run) ∧ t.ctxs = s.ctxs)

/-- A request is accepted into a free slot, and its decode, or the hit in the cache, takes the next emission index. -/
def Obligations.SkepRequestsAreAcceptedAndDecoded : Prop :=
  Claims.SkepAcceptsRequests ∧ Claims.SkepDecodesTakeEmissionIndices

/-! ### Rings and packets (12, 11) -/

/-- Doorbells and replies (R363 to R365, R371, R497): SQ_TAIL within 2^SQ_LOG2 of h is the new tail, beyond it, or for a ring that
is not open, it changes no ring and sets DB_BAD; RQ_HEAD is the replies consumed; the reply that waits goes to its place of the
reply ring; a reply that has waited 1 ms is an event, whose data, the ring, is the model's choice (log 61). -/
def Obligations.DoorbellsMoveTheRings : Prop :=
  (∀ (s : State) (ring : Fin 4096) (v : Word) (r : Ring),
    s.power.phase ≠ .recovery → s.ringOf ring.val = some r → (v - r.h).toNat ≤ 2 ^ r.sqLog2 →
    ∃ t : State, exec (.sqTail ring v) s = .next t ∧ t.ringOf ring.val = some { r with tail := v } ∧
      t.hif.sticky = s.hif.sticky ∧ (∀ k, k ≠ ring.val → t.ringOf k = s.ringOf k) ∧ t.units = s.units ∧ sameStores s t) ∧
  (∀ (s : State) (ring : Fin 4096) (v : Word),
    s.power.phase ≠ .recovery → (∀ r, s.ringOf ring.val = some r → 2 ^ r.sqLog2 < (v - r.h).toNat) →
    ∃ t : State, exec (.sqTail ring v) s = .next t ∧ bitAt t.hif.sticky 5 = true ∧ (∀ k, t.ringOf k = s.ringOf k) ∧
      t.units = s.units ∧ sameStores s t) ∧
  (∀ (s : State) (ring : Fin 4096) (v : Word) (r : Ring),
    s.power.phase ≠ .recovery → s.ringOf ring.val = some r →
    ∃ t : State, exec (.rqHead ring v) s = .next t ∧ t.ringOf ring.val = some { r with rqHead := v } ∧
      (∀ k, k ≠ ring.val → t.ringOf k = s.ringOf k) ∧ t.units = s.units ∧ sameStores s t) ∧
  (∀ (s : State) (ring : Fin 4096) (r : Ring) (rep : Reply),
    s.ringOf ring.val = some r → s.protilUp = true → r.waiting = [rep] → rep.frameEnd = false → rep.noirq = true →
    r.room = true → r.rqHost = true → r.rqAddr + 32 * (r.r.toNat % 2 ^ r.rqLog2) < 2 ^ 48 →
    ∃ t : State, exec (.replyWrite ring) s = .next t ∧
      t.out = s.out ++ [.hostWrite (r.rqAddr + 32 * (r.r.toNat % 2 ^ r.rqLog2)) (replyBytes rep (r.r + 1#32))] ∧
      t.ringOf ring.val = some { r with r := r.r + 1#32, waiting := [] } ∧
      (∀ k, k ≠ ring.val → t.ringOf k = s.ringOf k) ∧ t.units = s.units ∧ sameStores s t) ∧
  (∀ (s : State) (ring : Fin 4096) (r : Ring),
    s.ringOf ring.val = some r → r.waiting ≠ [] → s.replyMay r = false → recorderOpen s →
    ∃ t : State, exec (.replyStall ring) s = .next t ∧ oneEvent s t .replyStall (words [ring.val]) ∧
      t.hif = s.hif ∧ t.ctxs = s.ctxs ∧ t.units = s.units ∧ sameStores s t)

/-- Packets that name no frame (R312, R328, R362, R364, R367, R368, R371, R508): NOP, WINDOW_SET, RING_OPEN, RING_CLOSE, TIE_ADD,
TIE_SET and ATTEST take their effect and are answered DONE. -/
def Obligations.PacketsTakeEffectAndAreAnswered : Prop :=
  (∀ (s : State) (ring : Fin 4096) (r : Ring) (p : Packet), Serves s ring.val r p 0x01 →
    ∃ t : State, exec (.nop ring p) s = .next t ∧ answered s t ring.val p .done ∧ t.units = s.units ∧
      otherCtxs ring.val s t ∧ sameStores s t) ∧
  (∀ (s : State) (r : Ring) (p : Packet), Serves s 0 r p 0x12 → fieldNat (p.extractLsb' 128 64) 3 4 = 0 →
    s.storesWf = true →
    ∃ t : State, exec (.windowSet p) s = .next t ∧ answered s t 0 p .done ∧
      (∀ i, (t.ctx (pktCtx p)).windows[i]? =
        if i = bytesNat p 8 1 then some (p.extractLsb' 128 64) else (s.ctx (pktCtx p)).windows[i]?) ∧
      (t.ctx (pktCtx p)).state = (s.ctx (pktCtx p)).state ∧ t.units = s.units ∧ otherCtxs (pktCtx p) s t ∧
      sameStores s t) ∧
  (∀ (s : State) (r : Ring) (p : Packet) (a b : Bool × Nat), Serves s 0 r p 0x13 → (s.ctx (pktCtx p)).ring = none →
    ringPlace (s.ctx (pktCtx p)).windows.toList (bytesNat p 8 8) (2 ^ bytesNat p 24 1 / 4) false = some a →
    ringPlace (s.ctx (pktCtx p)).windows.toList (bytesNat p 16 8) (2 ^ bytesNat p 25 1 / 8) true = some b →
    ∃ t : State, exec (.ringOpen p) s = .next t ∧ answered s t 0 p .done ∧
      (t.ctx (pktCtx p)).ring = some { sqHost := a.1, sqAddr := a.2, rqHost := b.1, rqAddr := b.2,
                                       sqLog2 := bytesNat p 24 1, rqLog2 := bytesNat p 25 1, vector := bytesNat p 26 1,
                                       h := 0#32, tail := 0#32, rqHead := 0#32, r := 0#32, waiting := [] } ∧
      (t.ctx (pktCtx p)).state = (s.ctx (pktCtx p)).state ∧ t.units = s.units ∧ otherCtxs (pktCtx p) s t ∧
      sameStores s t) ∧
  (∀ (s : State) (r : Ring) (p : Packet), Serves s 0 r p 0x14 → noneWaits s (pktCtx p) →
    ∃ t : State, exec (.ringClose p) s = .next t ∧ answered s t 0 p .done ∧
      t.ctx (pktCtx p) = { s.ctx (pktCtx p) with ring := none } ∧ t.units = s.units ∧ otherCtxs (pktCtx p) s t ∧
      sameStores s t) ∧
  (∀ (s : State) (ring : Fin 4096) (r : Ring) (p : Packet), Serves s ring.val r p 0x21 → s.storesWf = true →
    ∃ t : State, exec (.tieAdd ring p) s = .next t ∧ answered s t ring.val p .done ∧
      (∀ x, t.tieVal x = if x = bytesNat p 8 4 then s.tieVal x + p.extractLsb' 96 32 else s.tieVal x) ∧
      t.units = s.units ∧ otherCtxs ring.val s t ∧ t.mem = s.mem ∧ t.tags = s.tags) ∧
  (∀ (s : State) (ring : Fin 4096) (r : Ring) (p : Packet), Serves s ring.val r p 0x22 → s.storesWf = true →
    ∃ t : State, exec (.tieSet ring p) s = .next t ∧ answered s t ring.val p .done ∧
      (∀ x, t.tieVal x = if x = bytesNat p 8 4 then p.extractLsb' 96 32 else s.tieVal x) ∧
      t.units = s.units ∧ otherCtxs ring.val s t ∧ t.mem = s.mem ∧ t.tags = s.tags) ∧
  (∀ (s : State) (r : Ring) (p : Packet), Serves s 0 r p 0x30 → pktCtx p = 1 → s.power.lmsLeaf < 1048576 →
    ∃ t : State, exec (.attest p) s = .next t ∧ answered s t 0 p .done ∧
      Out.hostWrite (bytesNat p 8 8) (s.attestReport (bytesNat p 16 32)) ∈ t.out ∧
      (s.attestReport (bytesNat p 16 32)).length = 4096 ∧
      t.power = { s.power with lmsLeaf := s.power.lmsLeaf + 1 } ∧ t.units = s.units ∧ t.ctxs = s.ctxs ∧ sameStores s t)

/-- GRAPH_LOAD of an image that passes every check (R250, R324, R326, R368): the context is LOADED with the image, FRAME 0 and
the ranges of the packet, every tie of its range is 0, and the region lists for frame 0 stand at ROIL, while no other line
changes; GRAPH_UNLOAD: the context is FREE, no camera or lidar stream is its own, and no replay descriptor of its own accepts a
request. -/
def Obligations.GraphLoadFillsAndUnloadFreesAContext : Prop :=
  (∀ (s : State) (r : Ring) (p : Packet) (img : GraphImage), Serves s 0 r p 0x10 → s.storesWf = true →
    imageCheck (s.takePacket 0 r) (withPrograms img) (pktCtx p) (loadParams p) = none →
    ∃ t : State, exec (.graphLoad p img) s = .next t ∧ answered s t 0 p .done ∧
      (t.ctx (pktCtx p)).state = .loaded ∧ (t.ctx (pktCtx p)).graphId = img.graphId ∧ (t.ctx (pktCtx p)).frame = 0#32 ∧
      (t.ctx (pktCtx p)).tieBase = (loadParams p).tieBase ∧ (t.ctx (pktCtx p)).tieCount = (loadParams p).tieCount ∧
      (t.ctx (pktCtx p)).windows = (s.ctx (pktCtx p)).windows ∧ (t.ctx (pktCtx p)).ring = none ∧
      (∀ x, t.tieVal x =
        if (loadParams p).tieBase ≤ x ∧ x < (loadParams p).tieBase + (loadParams p).tieCount then 0#32 else s.tieVal x) ∧
      (∀ (j : Nat) (d : Line) (ls : List Line) (i : Nat), img.cameras[j]? = some d → img.roi[j]? = some ls → i < 3 → i < ls.length →
        (∀ k e, j < k → img.cameras[k]? = some e →
          camRoil e + 3 ≤ camRoil d + i ∨ camRoil d + i < camRoil e) →
        t.line (hamKey (camRoil d) + i) = ls.getD i 0#2048 ∧ t.tagOk (hamKey (camRoil d) + i) = true) ∧
      (∀ k, (∀ d ∈ img.cameras, k < hamKey (camRoil d) ∨ hamKey (camRoil d) + 3 ≤ k) →
        t.line k = s.line k ∧ t.tag k = s.tag k) ∧
      t.units = s.units ∧ otherCtxs (pktCtx p) s t) ∧
  (∀ (s : State) (r : Ring) (p : Packet), Serves s 0 r p 0x11 → s.storesWf = true → noneWaits s (pktCtx p) →
    ∃ t : State, exec (.graphUnload p) s = .next t ∧ answered s t 0 p .done ∧ (t.ctx (pktCtx p)).state = .free ∧
      (t.ctx (pktCtx p)).ring = none ∧ (t.ctx (pktCtx p)).img = none ∧
      (∀ i k, (t.cam i k).desc.isSome = true → (t.cam i k).ctx ≠ pktCtx p) ∧
      (∀ k : Fin 8, (t.lidars[k]).desc.isSome = true → (t.lidars[k]).ctx ≠ pktCtx p) ∧
      (∀ i, ∀ d ∈ (t.skep i).descs, d.ctx = pktCtx p → d.closed = true) ∧ t.units = s.units ∧ otherCtxs (pktCtx p) s t ∧ sameStores s t)

/-- CONTEXT_START, CONTEXT_STOP, FRAME_RUN and ABORT (R331, R368, R369, R373): a context starts in RUN and a frame begins unless
STEP is set; a stop without a current frame is LOADED at once, with one it waits; the next frame requested of a context at work
is queued; an abort of the current frame waits for its end, and one of an ended frame is answered by its outcome. -/
def Obligations.ContextsStartStopRunAndAbort : Prop :=
  (∀ (s : State) (r q : Ring) (p : Packet) (g : GraphImage), Serves s 0 r p 0x15 → (s.ctx (pktCtx p)).ring = some q →
    (s.ctx (pktCtx p)).img = some g → provOk g (s.ctx (pktCtx p)).windows.toList = true →
    ∃ t : State, exec (.contextStart p) s = .next t ∧ answered s t 0 p .done ∧ (t.ctx (pktCtx p)).state = .run ∧
      (t.ctx (pktCtx p)).frame = (s.ctx (pktCtx p)).frame ∧
      (s.computeUp = true → s.hoop.inReset = false → (s.ctx (pktCtx p)).prelude = 0 → (s.ctx (pktCtx p)).step = false →
        (t.ctx (pktCtx p)).run.isSome = true) ∧
      t.units = s.units ∧ otherCtxs (pktCtx p) s t ∧ sameStores s t) ∧
  (∀ (s : State) (r : Ring) (p : Packet), Serves s 0 r p 0x16 →
    ∃ t : State, exec (.contextStop p) s = .next t ∧
      ((s.ctx (pktCtx p)).run = none → answered s t 0 p .done ∧
        t.ctx (pktCtx p) = { s.ctx (pktCtx p) with state := .loaded, reqs := [], nextReq := (s.ctx (pktCtx p)).frame }) ∧
      ((s.ctx (pktCtx p)).run.isSome = true → consumed s t 0 ∧ (t.ctx (pktCtx p)).state = .run ∧
        (t.ctx (pktCtx p)).reqs = [] ∧ (t.ctx (pktCtx p)).run = (s.ctx (pktCtx p)).run ∧
        (t.ctx (pktCtx p)).waitPkt.length = (s.ctx (pktCtx p)).waitPkt.length + 1) ∧
      t.units = s.units ∧ otherCtxs (pktCtx p) s t ∧ sameStores s t) ∧
  (∀ (s : State) (ring : Fin 4096) (r : Ring) (p : Packet), ring.val ≠ 0 → Serves s ring.val r p 0x20 →
    (s.ctx ring.val).step = true → bytesNat p 8 4 = (s.ctx ring.val).nextReq.toNat →
    (bytesNat p 12 1 = 0xFF ∨ (s.ctx ring.val).scripted = true) → (s.ctx ring.val).run.isSome = true →
    ∃ t q, exec (.frameRun ring p) s = .next t ∧ consumed s t ring.val ∧
      (t.ctx ring.val).reqs = (s.ctx ring.val).reqs ++ [q] ∧ q.frame = bytesNat p 8 4 ∧ q.seq = pktSeq p ∧
      q.path = (if bytesNat p 12 1 = 0xFF then 0 else 1 + bytesNat p 12 1) ∧
      (t.ctx ring.val).nextReq = (s.ctx ring.val).nextReq + 1#32 ∧ (t.ctx ring.val).run = (s.ctx ring.val).run ∧
      t.units = s.units ∧ otherCtxs ring.val s t ∧ sameStores s t) ∧
  (∀ (s : State) (ring : Fin 4096) (r : Ring) (p : Packet), Serves s ring.val r p 0x23 →
    (s.ctx (pktCtx p)).state = .run → (s.ctx (pktCtx p)).run.isSome = true →
    bytesNat p 8 4 = (s.ctx (pktCtx p)).frame.toNat →
    ∃ t : State, exec (.abort ring p) s = .next t ∧ consumed s t ring.val ∧ (t.ctx (pktCtx p)).aborting = true ∧
      (t.ctx (pktCtx p)).run = (s.ctx (pktCtx p)).run ∧ t.units = s.units ∧ otherCtxs (pktCtx p) s t ∧ sameStores s t) ∧
  (∀ (s : State) (ring : Fin 4096) (r : Ring) (p : Packet) (o : Nat × Bool), Serves s ring.val r p 0x23 →
    (s.ctx (pktCtx p)).state = .run → bytesNat p 8 4 < (s.ctx (pktCtx p)).frame.toNat →
    (s.ctx (pktCtx p)).outcomes.find? (fun y => y.1 == bytesNat p 8 4) = some o →
    ∃ t : State, exec (.abort ring p) s = .next t ∧
      answered s t ring.val p (if o.2 = true then .doneAbortLate else .aborted) ∧ t.units = s.units ∧
      otherCtxs (pktCtx p) s t ∧ sameStores s t)

/-! ### The PCI Express endpoint (12) -/

/-- HIF_ADMIN_CFG and BAR2 (R302, R357, R360, R361, R363, R372): EN opens the admin ring at its addresses with every counter 0,
and its clearing closes it; through the host port's grants a whole line through BAR2 is written with a new tag, and a line reads
as it is in the period of the read (where units' running commands write it, R300; log 112), or as all ones with BAR2_TAG where
its tag is bad; a part is kept, and dropped where it is not completed; a bad BAR0 or BAR4 access sets BAR0_BAD, and a read of
the doorbell page returns 0; an unmasked vector sends its pending message, outside PCIe recovery, in which the table is out of
reach (R506). That an aligned access may come as a BAR0_BAD row, and then acts as what it is, is the model's choice (log 93). -/
def Obligations.AdminRingAndBarAccesses : Prop :=
  (∀ (s : State) (m : Byte) (v : Word), (m = 1#8 ∨ m = 2#8) → s.reaches m.toNat 0 = true → bitAt v 8 = true →
    s.hif.en = false →
    4 ≤ fieldNat v 0 4 → fieldNat v 0 4 ≤ 12 → 4 ≤ fieldNat v 4 4 → fieldNat v 4 4 ≤ 12 →
    ∃ (t : State) (r : Ring), exec (.adminEnable m v) s = .next t ∧ t.hif.en = true ∧ t.hif.admin = some r ∧
      r.sqAddr = s.hif.asqHi.toNat * 2 ^ 32 + s.hif.asqLo.toNat ∧ r.rqAddr = s.hif.arqHi.toNat * 2 ^ 32 + s.hif.arqLo.toNat ∧
      r.sqLog2 = fieldNat v 0 4 ∧ r.rqLog2 = fieldNat v 4 4 ∧ r.h = 0#32 ∧ r.tail = 0#32 ∧ r.r = 0#32 ∧ r.rqHead = 0#32 ∧
      r.waiting = [] ∧ t.units = s.units ∧ t.ctxs = s.ctxs ∧ sameStores s t) ∧
  (∀ (s : State) (m : Byte) (v : Word), (m = 1#8 ∨ m = 2#8) → s.reaches m.toNat 0 = true → bitAt v 8 = false →
    ∃ t : State, exec (.adminEnable m v) s = .next t ∧ t.hif.en = false ∧ t.hif.admin = none ∧ t.units = s.units ∧
      t.ctxs = s.ctxs ∧ sameStores s t) ∧
  (∀ (s : State) (l : Nat) (b : List Byte), s.hamperReset = false → l < hamperLines → b.length = 256 → s.hif.bar2 = none → s.storesWf = true →
    s.hostGrant true l = true →
    ∃ t : State, exec (.bar2Write l 0 b) s = .next t ∧ t.line (hamKey l) = lineOfBytes b ∧ t.tagOk (hamKey l) = true ∧
      (∀ a, a ≠ hamKey l → t.line a = s.line a ∧ t.tag a = s.tag a) ∧ t.hif = s.hif ∧ t.units = s.units ∧
      t.ties = s.ties) ∧
  (∀ (s : State) (l off : Nat) (b : List Byte), s.hamperReset = false → l < hamperLines → off + b.length ≤ 256 →
    (b.length < 256 ∨ s.hostGrant true l = false) → s.hif.bar2 = none →
    ∃ t : State, exec (.bar2Write l off b) s = .next t ∧
      t.hif = { s.hif with bar2 := some (l, collect (List.replicate 256 none) off b) } ∧ t.units = s.units ∧
      sameStores s t) ∧
  (∀ (s x : State) (l : Nat) (ups : List Upset), s.hamperReset = false → l < hamperLines → s.hostGrant false l = true →
    x = s.seenAs (s.periodReads none ups) →
    ∃ t : State, exec (.bar2Read l ups) s = .next t ∧
      (x.tagOk (hamKey l) = true → t.out = s.out ++ [.readData 1 (toBytes (x.line (hamKey l)) 256)] ∧ t.hif = s.hif) ∧
      (x.tagOk (hamKey l) = false → Out.readData 1 (List.replicate 256 0xFF#8) ∈ t.out ∧ bitAt t.hif.sticky 3 = true) ∧
      t.units = s.units ∧ sameStores s t) ∧
  (∀ s : State, s.hif.bar2.isSome = true → s.lineWaits = false →
    ∃ t : State, exec .partialDrop s = .next t ∧ t.hif.bar2 = none ∧ bitAt t.hif.sticky 2 = true ∧ t.units = s.units ∧
      sameStores s t) ∧
  (∀ (s : State) (bar4 w : Bool) (off len : Nat) (v : Word), (len ≠ 4 ∨ off % 4 ≠ 0) →
    ∃ t : State, exec (.bar0Bad bar4 w off len v) s = .next t ∧ bitAt t.hif.sticky 4 = true ∧
      (w = false → Out.unsupported ∈ t.out) ∧ t.units = s.units ∧ sameStores s t) ∧
  (∀ (s : State) (off : Nat) (v : Word), off % 4 = 0 → off < 0x10000 →
    exec (.bar0Bad true false off 4 v) s = .next (s.emit (.readData 1 (toBytes (0#32 : Word) 4)))) ∧
  (∀ (s : State) (v : Fin 64), s.power.phase = .recovery → exec (.msixUnmask v) s = .next s) ∧
  (∀ (s : State) (v : Fin 64), s.power.phase ≠ .recovery → ∃ t : State, exec (.msixUnmask v) s = .next t ∧ t.hif.msixMask.getLsbD v.val = false ∧
      t.hif.msixPend.getLsbD v.val = false ∧
      t.out = (if s.hif.msixPend.getLsbD v.val then s.out ++ [.msix v.val] else s.out) ∧
      (∀ w, w ≠ v.val → t.hif.msixMask.getLsbD w = s.hif.msixMask.getLsbD w ∧
        t.hif.msixPend.getLsbD w = s.hif.msixPend.getLsbD w) ∧ t.units = s.units ∧ sameStores s t)

/-- Resets and the link of the endpoint (R355, R359, R360, R500): without a current frame, FUNCTION_LEVEL_RESET and the fall of
PERST_N close every ring, stop every context in RUN, and give the endpoint's registers their reset values; the link's own
fields follow the link. -/
def Obligations.EndpointResetsAndLink : Prop :=
  (∀ s : State, s.storesWf = true → (∀ c, (s.ctx c).run = none) →
    (∃ t : State, exec .functionLevelReset s = .next t ∧
      t.hif = { HostIf.init with linkUp := s.hif.linkUp, linkWidth := s.hif.linkWidth, linkSpeed := s.hif.linkSpeed,
                                 perstLow := s.hif.perstLow } ∧
      (∀ c, (t.ctx c).ring = none ∧
        (t.ctx c).state = (if (s.ctx c).state = .run then .loaded else (s.ctx c).state)) ∧
      t.units = s.units ∧ sameStores s t) ∧
    (s.hif.perstLow = false → ∃ t : State, exec (.perstN false) s = .next t ∧
      t.hif = { HostIf.init with perstLow := true } ∧ (∀ c, (t.ctx c).ring = none) ∧ t.units = s.units ∧
      sameStores s t)) ∧
  (∀ s : State, ∃ t : State, exec (.perstN true) s = .next t ∧ t.hif = { s.hif with perstLow := false } ∧
    t.ctxs = s.ctxs ∧ t.units = s.units ∧ sameStores s t) ∧
  (∀ s : State, ∃ t : State, exec .pcieLinkDown s = .next t ∧
    t.hif = { s.hif with linkUp := false, linkWidth := 0, linkSpeed := 0 } ∧ t.ctxs = s.ctxs ∧ t.units = s.units ∧
    sameStores s t) ∧
  (∀ (s : State) (w v : Nat), s.hif.perstLow = false → (w = 1 ∨ w = 2 ∨ w = 4) → 1 ≤ v → v ≤ 5 → s.power.st ≠ 5 →
    ∃ t : State, exec (.pcieLinkUp w v) s = .next t ∧
      t.hif = { s.hif with linkUp := true, linkWidth := w, linkSpeed := v } ∧ t.ctxs = s.ctxs ∧ t.units = s.units ∧
      sameStores s t)

/-! ### Mailboxes, ties and registers (12, 02) -/

/-- Mailboxes (R375 to R378, R468, R483): the sender's ring freezes the message and tells a local receiver; a ring while the
message waits only sets BAD_ORDER; the receiver's acknowledge with CODE ends it; a master that the channel is not bound to only
sets FOREIGN; the acknowledge of a fragment counts it, but not in Park, in which nothing serves it (R499); an erase request with
the count of the records starts the erase. That a record is done with although a channel is not bound is the model's choice (log
47). -/
def Obligations.MailboxesRingAndAcknowledge : Prop :=
  (∀ (s : State) (m : Byte) (ch : Fin 64) (v : Word), s.reaches m.toNat 0x800000 = true → s.isSender ch m.toNat = true → bitAt v 0 = true →
    (s.chan ch).st ≠ 1 → (s.binding ch.val).2 < 0x10 →
    ∃ t : State, exec (.mbRing m ch v) s = .next t ∧ t.chan ch = { s.chan ch with st := 1 } ∧
      (∀ d, d ≠ ch → t.chan d = s.chan d) ∧
      ((s.binding ch.val).2 = 2 ∨ (s.binding ch.val).2 = 3 → Out.notify (s.binding ch.val).2 ∈ t.out) ∧
      ((s.binding ch.val).2 = 8 → t.hoop.notice08.getLsbD ch.val = true) ∧ t.units = s.units ∧ sameStores s t) ∧
  (∀ (s : State) (m : Byte) (ch : Fin 64) (v : Word), s.reaches m.toNat 0x800000 = true → s.isSender ch m.toNat = true → bitAt v 0 = true →
    (s.chan ch).st = 1 →
    ∃ t : State, exec (.mbRing m ch v) s = .next t ∧ t.chan ch = { s.chan ch with badOrder := true } ∧
      (∀ d, d ≠ ch → t.chan d = s.chan d) ∧ t.out = s.out ∧ t.units = s.units ∧ sameStores s t) ∧
  (∀ (s : State) (m : Byte) (ch : Fin 64) (v : Word), s.reaches m.toNat 0x800000 = true → m.toNat ≠ (s.binding ch.val).1 → m.toNat ≠ (s.binding ch.val).2 →
    m.toNat < 0x10 →
    (∃ t : State, exec (.mbRing m ch v) s = .next t ∧ t.chan ch = { s.chan ch with foreign := true } ∧
      (∀ d, d ≠ ch → t.chan d = s.chan d) ∧ t.out = s.out ∧ t.units = s.units ∧ sameStores s t) ∧
    (∃ t : State, exec (.mbAck m ch v) s = .next t ∧ t.chan ch = { s.chan ch with foreign := true } ∧
      (∀ d, d ≠ ch → t.chan d = s.chan d) ∧ t.out = s.out ∧ t.units = s.units ∧ sameStores s t)) ∧
  (∀ (s : State) (m : Byte) (ch : Fin 64) (v : Word), s.reaches m.toNat 0x800000 = true → s.isReceiver ch m.toNat = true → (s.chan ch).st = 1 →
    s.hoop.fsrs = [] → s.fragmentOn ch = none → linksIdle s →
    ∃ t : State, exec (.mbAck m ch v) s = .next t ∧
      t.chan ch = { s.chan ch with ack := v.extractLsb' 0 16, st := 2 } ∧ (∀ d, d ≠ ch → t.chan d = s.chan d) ∧
      t.units = s.units ∧ sameStores s t) ∧
  (∀ (s : State) (h : Bool), s.power.st = 5 → exec (.fsrFragmentAck h) s = .next s) ∧
  (∀ (s : State) (h : Bool) (f : Fsr), s.hoopRuns = true → s.fragmentOn (fsrChannel h) = some h → (s.chan (fsrChannel h)).st = 1 →
    s.hoop.fsrs = [f] → f.acked h + 1 = f.count → s.fsrBound (!h) = false → linksIdle s →
    ∃ t : State, exec (.fsrFragmentAck h) s = .next t ∧ t.hoop.fsrs = [] ∧ (t.chan (fsrChannel h)).st = 2 ∧
      (t.chan (fsrChannel h)).ack = 0#16 ∧ t.hoop.fragHost = (s.hoop.fragHost && !h) ∧
      t.hoop.fragSafety = (s.hoop.fragSafety && h) ∧ t.units = s.units ∧ sameStores s t) ∧
  (∀ (s : State) (ch : Fin 64), (s.binding ch.val).1 ≠ 0 → (s.binding ch.val).2 = 0x03 → (s.chan ch).st = 1 →
    s.evr.erasing = false → s.evr.prog = none → s.hoopRuns = true → fieldNat (s.chan ch).msg 0 32 = 0x45524153 →
    fieldNat (s.chan ch).msg 32 32 = s.evr.count →
    ∃ t : State, exec (.eraseRequest ch) s = .next t ∧ t.evr = { s.evr with erasing := true, eraseCh := ch.val } ∧
      t.mbox = s.mbox ∧ t.units = s.units ∧ sameStores s t)

/-- Register writes (R10, R100, R101, R328, R329): TIE_OP adds to or sets one tie for the Osier cluster and Hoop, and changes
nothing for another master; a CTRL register takes its quarantine bit and a status register clears the sticky bits written 1; a
write by the host changes no unit's registers and no time. -/
def Obligations.RegisterWritesFollowTheirMasters : Prop :=
  (∀ (s : State) (m : Byte) (x : Fin 131072) (a : BitVec 31), (m = 2#8 ∨ m = 3#8) → s.storesWf = true →
    (∃ t : State, exec (.tieOpAdd m x a) s = .next t ∧
      (∀ y, t.tieVal y = if y = x.val then s.tieVal y + a.setWidth 32 else s.tieVal y) ∧ t.mem = s.mem ∧ t.tags = s.tags ∧
      t.units = s.units ∧ t.ctxs = s.ctxs) ∧
    (∃ t : State, exec (.tieOpSet m x a) s = .next t ∧
      (∀ y, t.tieVal y = if y = x.val then a.setWidth 32 else s.tieVal y) ∧ t.mem = s.mem ∧ t.tags = s.tags ∧
      t.units = s.units ∧ t.ctxs = s.ctxs)) ∧
  (∀ (s : State) (m : Byte) (x : Fin 131072) (a : BitVec 31), m ≠ 2#8 → m ≠ 3#8 →
    exec (.tieOpAdd m x a) s = .next s ∧ exec (.tieOpSet m x a) s = .next s) ∧
  (∀ (s : State) (m : Byte) (n : Fin 16) (v : Word), (m = 2#8 ∨ m = 3#8) → s.enabled (.tc n) = true →
    (∃ t : State, exec (.registerWrite m (BitVec.ofNat 24 (0x100000 + 0x10000 * n.val)) v) s = .next t ∧
      (t.unit (.tc n)).regs = { (s.unit (.tc n)).regs with quarantine := bitAt v 0 } ∧
      (∀ u, u ≠ .tc n → t.unit u = s.unit u) ∧ sameStores s t) ∧
    (∃ t : State, exec (.registerWrite m (BitVec.ofNat 24 (0x100004 + 0x10000 * n.val)) v) s = .next t ∧
      (t.unit (.tc n)).regs = { (s.unit (.tc n)).regs with sticky := (s.unit (.tc n)).regs.sticky &&& ~~~v } ∧
      (∀ u, u ≠ .tc n → t.unit u = s.unit u) ∧ sameStores s t)) ∧
  (∀ (s : State) (off : BitVec 24) (v : Word),
    ∃ t : State, exec (.registerWrite 1#8 off v) s = .next t ∧ t.units = s.units ∧ t.cores = s.cores ∧ t.tu = s.tu ∧
      t.ctxs = s.ctxs ∧ t.dram = s.dram ∧ sameStores s t)

/-! ### Supply, clocks and holds (14, 17) -/

/-- Slowed clocks (R310, R472, R488 to R491; model's choices in logs 38, 40, 41, 61 and 85): the fall of PWR_WARN_N halves the
clocks with an event and ends a stretch, and 10 µs after its rise the halving ends with the microseconds it took; a droop is
counted and stretches the clocks outside a halving, where every running command meets a slowed clock but a ROTATE whose receive half
has had its TAIL (log 118), its end adds the root cycles; a stretch of 50 µs becomes a rail hold; a DRAM
window that meets a slowed clock is remembered. -/
def Obligations.SlowedClocksAreEnteredAndLeft : Prop :=
  (∀ s : State, s.rootOn = true → s.power.halved = false → recorderOpen s →
    ∃ t : State, exec .pwrWarnNFall s = .next t ∧
      t.power = { s.power with
        warnLow := true
        halved := true
        halvedAt := s.tu.wall
        stretch := false
        stretchCycles := s.power.stretchCycles + s.stretchSoFar } ∧
      t.tu = { s.tu with halved := true } ∧ oneEvent s t .halveStart [] ∧ t.ctxs = s.ctxs ∧ sameStores s t) ∧
  (∀ s : State, exec .pwrWarnNRise s = .next { s with power := { s.power with warnLow := false } }) ∧
  (∀ s : State, s.power.halved = true → s.power.warnLow = false → s.power.st ≠ 5 → recorderOpen s →
    ∃ t : State, exec .halveEnd s = .next t ∧ t.power = { s.power with halved := false } ∧
      t.tu = { s.tu with halved := false } ∧ oneEvent s t .halveEnd (words [(s.tu.wall - s.power.halvedAt) / 400]) ∧
      t.units = s.units ∧ t.ctxs = s.ctxs ∧ sameStores s t) ∧
  (∀ (s : State) (uv : Nat), s.rootOn = true → 100 * uv < 94 * s.coreTarget →
    ∃ t : State, exec (.droop uv) s = .next t ∧ t.power = { s.power with
        vddLow := true
        stretchCount := s.power.stretchCount + 1
        stretch := s.power.stretch || !s.power.halved
        stretchAt := if s.power.stretch || s.power.halved then s.power.stretchAt else s.tu.wall } ∧
      (s.power.halved = false → ∀ u p, (t.unit u).run = some p → p.stage = .running →
        (∀ i, u = .plt i → p.recvDone = false) → p.slowed = true) ∧
      t.tu = s.tu ∧ t.ctxs = s.ctxs ∧ sameStores s t) ∧
  (∀ (s : State) (uv n : Nat), 94 * s.coreTarget ≤ 100 * uv →
    exec (.droopEnd uv n) s = .next { s with power := { s.power with
      vddLow := false
      stretch := false
      stretchCycles := s.power.stretchCycles + (if s.power.stretch then n else 0) } }) ∧
  (∀ s : State, s.power.stretch = true → s.hoopRuns = true → s.hoop.railHold = false → s.hoop.inReset = false →
    s.serviceStatus = none →
    ∃ t : State, exec .stretchLimit s = .next t ∧ t.hoop.railHold = true ∧ holdBegins s t 4 ∧ t.power = s.power) ∧
  (∀ s : State, s.dram.ready = true → s.dram.selfRefresh = false →
    ∃ t : State, exec .dramWindowEnd s = .next t ∧ t.dram.windows = s.dram.windows + 1#32 ∧
      t.dram.clkSlowed = (s.dram.clkSlowed || s.dram.slowSeen || s.slowed) ∧ t.dram.slowSeen = s.slowed ∧
      t.units = s.units ∧ t.ctxs = s.ctxs ∧ sameStores s t)

/-- Holds (R425, R426, R429, R430, R487, R492, R493, R522): a rail outside its thresholds, a sensor above 128 °C, a clock out of its
limits, a lost PLL lock and an Osier mismatch each capture a reset with their HOOP_ERR bits; 1 ms inside the limits ends the
rail and temperature holds; 100 good windows end a clock hold; a Hoop mismatch asserts ERR_OUT_N for good; a bad AVSBus poll is
remembered. The codes of a hold's cause and the filters' inputs are the model's choices (logs 36 and 37). -/
def Obligations.FaultsHoldTheComputeDomain : Prop :=
  (∀ (s : State) (r : Rail) (uv : Nat), (uv < (s.railHold r).1 ∨ (s.railHold r).2 < uv) → s.hoopRuns = true →
    s.hoop.railHold = false → s.hoop.inReset = false → s.serviceStatus = none →
    ∃ t : State, exec (.railThreshold r uv) s = .next t ∧ t.hoop.railHold = true ∧ r ∈ t.hoop.railsOut ∧
      holdBegins s t 4) ∧
  (∀ s : State, s.hoop.tempOver = false → s.power.stretch = false → s.hoopRuns = true →
    exec .railRecover s = .next { s with hoop := { s.hoop with railsOut := [], railHold := false, tempHold := false } }) ∧
  (∀ (s : State) (q : List Int), q.length = 24 → s.hoopRuns = true →
    ∃ t : State, exec (.temperatureRead q) s = .next t ∧
      (∀ i : Fin 24, t.power.temps[i] = tempWord (q.getD i.val 0)) ∧
      ((∃ x ∈ q, 512 < x) → s.hoop.tempHold = false → s.hoop.inReset = false → s.serviceStatus = none →
        t.hoop.tempHold = true ∧ holdBegins s t 5) ∧
      ((∀ x ∈ q, x ≤ 480) → t.hoop = { s.hoop with tempOver := false } ∧ t.units = s.units ∧ sameStores s t) ∧
      ((∀ x ∈ q, x ≤ 512) → (∃ x ∈ q, 480 < x) → t.hoop = s.hoop ∧ t.units = s.units ∧ sameStores s t)) ∧
  (∀ (s : State) (f a c k : Nat), s.rootOn = true → s.hoopRuns = true → s.hoop.clockHold = false →
    s.hoop.inReset = false → s.serviceStatus = none →
    ∃ t : State, exec (.clockWindow f a c k) s = .next t ∧
      (s.windowFaults f a c k = [] → t.hoop = { s.hoop with halveEdge := false, stretchSeen := s.power.stretch } ∧
        t.units = s.units ∧ sameStores s t) ∧
      (∀ b bs, s.windowFaults f a c k = b :: bs → t.hoop.clockHold = true ∧
        (∀ x ∈ b :: bs, bitAt t.hoop.err x = true) ∧ holdBegins s t b)) ∧
  (∀ (s : State) (f a c k : Nat), s.rootOn = true → s.hoopRuns = true → s.hoop.clockHold = true →
    s.windowFaults f a c k = [] →
    ∃ t : State, exec (.clockWindow f a c k) s = .next t ∧ t.hoop.goodWindows = s.hoop.goodWindows + 1 ∧
      t.hoop.clockHold = decide (s.hoop.goodWindows + 1 < 100) ∧ t.units = s.units ∧ sameStores s t) ∧
  (∀ s : State, s.rootOn = true → s.hoopRuns = true → s.hoop.clockHold = false → s.hoop.inReset = false →
    s.serviceStatus = none →
    ∃ t : State, exec .pllLockLoss s = .next t ∧ t.hoop.clockHold = true ∧ t.hoop.pllLost = true ∧ holdBegins s t 2) ∧
  (∀ s : State, s.hoopRuns = true → s.hoop.inReset = false → s.serviceStatus = none →
    ∃ t : State, exec .osierLockstepMismatch s = .next t ∧ bitAt t.hoop.err 1 = true ∧ resetCaptured s t 1 0 0xFF 0 ∧
      t.units = s.units) ∧
  (∀ s : State, s.power.st ≠ 5 →
    ∃ t : State, exec .hoopLockstepMismatch s = .next t ∧ t.hoop.hoopLs = true ∧ bitAt t.hoop.err 0 = true ∧
      t.hoop.errOut = true ∧ t.hoop.persist = true ∧ domainStopped s t) ∧
  (∀ (s : State) (ack : Bool) (a b : Nat), s.power.phase = .up → s.power.st < 3 → s.hoop.hoopLs = false →
    ∃ t : State, exec (.avsTelemetry ack a b) s = .next t ∧
      (t.power.avsErr = true ↔ s.power.avsErr = true ∨ ack = false ∨ 15000 < max a b - min a b) ∧ t.hoop = s.hoop ∧
      t.units = s.units ∧ sameStores s t)

/-! ### Hangs, fences, tables and the compute-domain reset (14) -/

/-- Hangs (R448 to R453): a command of an engine or a mover whose timer expires, which a wait for a READY or
a HEAD pauses, ends INTERNAL with the count of log 28 and its unit is fenced, and where no mover can be at work on its creel
nothing else of the chip's work changes; Osier's timer is a cause of a compute-domain reset while the root PLL runs, and after
another cause marks its bit of RST_CAUSE.SECONDARY; a complete
fence resets the unit, whose register block stays but for BUSY and TALLY_PENDING; the reset's end asks for its tally test; a
fence that does not complete is a cause of a compute-domain reset; HOOP_KICK restarts Protil's timer. -/
def Obligations.HangsFenceAndResetTheUnit : Prop :=
  (∀ (s : State) (u : UnitId) (p : Placed) (k : Fin 12),
    s.computeUp = true → s.hoop.inReset = false → (∀ i, u ≠ .skp i) → (∀ i, u ≠ .rid i) → (s.unit u).run = some p →
    p.stage = .running → (∃ fb q pos, p.origin = .queue fb q pos) → (s.unit u).fence = .open_ → s.halfWaits u = false →
    ∃ t : State, exec (.hangTimerExpiry (some u) k) s = .next t ∧ (t.unit u).run = none ∧ (t.unit u).fence = .fencing ∧
      (t.unit u).regs.lastStatus = Status.internal.code ∧
      (t.unit u).regs.used = BitVec.ofNat 32 (2 * ((hdrDecl p.hdr + 1) / 2 + 4096) + 1) ∧ t.ties = s.ties ∧
      (∀ v, v ≠ u → (∀ m, v ≠ .mv m) ∨ (∀ n, u ≠ .tc n) → (t.unit v).run = (s.unit v).run) ∧
      ((s.unit u).undo = [] → (∀ n, u ≠ .tc n) ∨ (∀ m, (s.unit (.mv m)).run = none) → t.mem = s.mem ∧ t.tags = s.tags)) ∧
  (∀ (s : State) (k : Fin 12), s.power.phase = .up → s.power.st < 3 → s.hoopRuns = true → s.held = false →
    s.serviceStatus = none → 4 ≤ s.hoop.sinceKick →
    ∃ t : State, exec (.hangTimerExpiry none k) s = .next t ∧ t.units = s.units ∧ sameStores s t ∧
      (s.hoop.inReset = false ∨ s.hoop.recovering = true → resetCaptured s t 2 0 0xFF 0) ∧
      (s.hoop.inReset = true → s.hoop.recovering = false →
        t.hoop = { s.hoop with rstCause := s.hoop.rstCause ||| 1#32 <<< 26 } ∧ t.out = s.out)) ∧
  (∀ (s : State) (u : UnitId), (s.unit u).fence = .fencing →
    ∃ t : State, exec (.fenceComplete u) s = .next t ∧ (t.unit u).fence = .resetting ∧ (t.unit u).run = none ∧
      (t.unit u).regs = { (s.unit u).regs with busy := false, tallyPending := false } ∧ otherRuns u s t ∧ sameStores s t) ∧
  (∀ (s : State) (u : UnitId), (s.unit u).fence = .resetting →
    ∃ t : State, exec (.unitResetEnd u) s = .next t ∧ (t.unit u).fence = .open_ ∧
      (t.unit u).regs = { (s.unit u).regs with tallyPending := !(s.unit u).regs.quarantine } ∧
      (∀ v, v ≠ u → t.unit v = s.unit v) ∧ t.ctxs = s.ctxs ∧ sameStores s t) ∧
  (∀ (s : State) (u : UnitId), (s.unit u).fence = .fencing → s.hoop.inReset = false → s.serviceStatus = none →
    ∃ t : State, exec (.fenceTimeout u) s = .next t ∧ resetCaptured s t 5 0 (unitCode u) 0 ∧ t.units = s.units) ∧
  (∀ (s : State) (v : Word), bitAt v 0 = true →
    ∃ t : State, exec (.hoopKick 2#8 v) s = .next t ∧ t.hoop = { s.hoop with sinceKick := 0 } ∧ t.units = s.units ∧
      t.ctxs = s.ctxs ∧ sameStores s t)

/-- The triplicated tables (R434, R435): when every copy of every table passes its CRC and the three agree, the check changes
nothing but what it reports of the copies; one copy that fails is rewritten from the others, with HOOP_ERR.CFG_REPAIRED; two
good copies that differ are CONFIG_DIVERGENT; a check takes the value of the passing copies into use. ERR_OUT_MIN_HOLD (R428)
ends the minimum time of ERR_OUT_N. -/
def Sys2Proof.Claims.TablesAreCheckedAndRepaired : Prop :=
  (∀ (s : State), s.hoopRuns = true → s.hoop.divergent = false → s.hoop.cfgNone = false →
    (∀ x ∈ s.lockedTables, s.checkTable x = .whole) → tablesInUse s →
    ∃ t : State, exec (.configCheck []) s = .next t ∧ t.hoop = { s.hoop with copyOk := t.hoop.copyOk } ∧ t.id = s.id ∧
      t.units = s.units ∧ t.ctxs = s.ctxs ∧ t.out = s.out ∧ sameStores s t) ∧
  (∀ (s : State) (k : Fin 3) (x : Fin 3) (b : Nat), s.hoopRuns = true → s.hoop.divergent = false → s.hoop.cfgNone = false →
    (∀ y ∈ s.lockedTables, s.checkTable y = .whole) → tablesInUse s → x ∈ s.lockedTables → b < 8 * tableLen x →
    ∃ t : State, exec (.configCheck [{ table := x, copy := k, bit := b }]) s = .next t ∧ bitAt t.hoop.err 10 = true ∧
      t.hoop.divergent = false ∧ t.hoop.cfgNone = false ∧ t.checkTable x = .whole ∧
      (∀ j : Fin 3, t.hoop.tables[x][j].val = s.hoop.tables[x][j].val) ∧
      t.hoop.table0 = s.hoop.table0 ∧ t.hoop.table1 = s.hoop.table1 ∧ t.hoop.table2 = s.hoop.table2 ∧ t.id = s.id ∧
      t.units = s.units ∧ sameStores s t) ∧
  (∀ (s : State) (x : Fin 3), s.hoopRuns = true → s.hoop.divergent = false → s.hoop.cfgNone = false →
    x ∈ s.lockedTables → s.checkTable x = .divergent → (∀ y ∈ s.lockedTables, y ≠ x → s.checkTable y = .whole) →
    s.hoop.outOfService = false → (∀ r, s.hif.admin = some r → r.rqHost = true) →
    ∃ t : State, exec (.configCheck []) s = .next t ∧ t.hoop.divergent = true ∧ bitAt t.hoop.err 11 = true ∧
      t.hoop.errOut = true ∧ t.hoop.persist = true ∧ t.serviceStatus = some .configDivergent ∧ t.id.tcEn = 0#16 ∧
      (∀ u, (t.unit u).run = none) ∧ t.ties = s.ties ∧ (noWrites s → sameStores s t)) ∧
  (∀ (s : State) (x : Fin 3) (v : BitVec 1024), s.hoopRuns = true → s.hoop.divergent = false → s.hoop.cfgNone = false →
    (∀ y ∈ s.lockedTables, s.checkTable y = .whole) → x ∈ s.lockedTables → s.passing x = some v →
    ∃ t : State, exec (.configCheck []) s = .next t ∧
      (x = 0 → t.id.tcEn = ~~~v.setWidth 16 ∧ t.hoop.table0 = some (v.setWidth 16)) ∧
      (x = 1 → t.hoop.table1 = some v) ∧ (x = 2 → t.hoop.table2 = some (v.setWidth 32)) ∧ t.units = s.units ∧
      sameStores s t) ∧
  (∀ s : State, s.power.st ≠ 5 → ∃ t : State, exec .errOutMinHold s = .next t ∧ t.hoop.minHold = false ∧
    t.hoop.errOut = (s.hoop.errOut && s.hoop.errCause) ∧ t.units = s.units ∧ t.ctxs = s.ctxs ∧ sameStores s t)

/-- A compute-domain reset without a hold, with intact tables, that stays under RESET_MAX, of a chip outside a fabric whose contexts
have no prelude (R447, R453, R455, R456, R459): every unit domain is reset, creels and hamper are cleared while DRAM keeps its
lines, every context keeps its state, graph and windows, a context in RUN goes on at the frame behind an abandoned one, with its
ties and camera streams at the values of the restart table, every other tie is 0, the reset is counted, and the device is back in
service. -/
def Sys2Proof.Claims.ComputeDomainResetReturnsToService : Prop :=
  ∀ (s : State) (i : ResetInput),
    s.hoop.inReset = true → s.hoop.recovering = false → s.held = false → s.hoopRuns = true → s.power.phase = .up →
    i.flips = [] → i.tallyFails = [] → i.imageOk = true → s.hoop.divergent = false → s.hoop.cfgNone = false →
    s.hoop.outOfService = false → (∀ x, s.checkTable x = .whole) → s.fabric.en = false →
    s.countReset.hoop.rstInWindow < s.resetMax → s.storesWf = true → (∀ c g, (s.ctx c).img = some g → g.prelude = []) →
    (∀ r, s.hif.admin = some r → r.rqHost = true) → s.hoop.abandoned = [] → tablesInUse s → noWrites s →
    ∃ t : State, exec (.computeDomainReset i) s = .next t ∧ t.hoop.inReset = false ∧ t.hoop.recovering = false ∧
      t.hoop.rstReturn = BitVec.ofNat 32 i.us ∧ t.hoop.rstTotal = min 0xFFFF (s.hoop.rstTotal + 1) ∧
      t.hoop.rstLast = s.evr.hours ∧ t.hoop.rstCause = s.hoop.rstCause ∧
      (∀ u, (t.unit u).run = none ∧ (t.unit u).fence = .open_ ∧ (t.unit u).regs.busy = false ∧
        (t.unit u).regs.quarantine = (s.unit u).regs.quarantine) ∧
      (∀ k, k < 0x10000000 → t.line k = s.line k) ∧ (∀ k, 0x10000000 ≤ k → t.line k = 0#2048 ∧ t.tagOk k = true) ∧
      (∀ c, (t.ctx c).img = (s.ctx c).img ∧ (t.ctx c).graphId = (s.ctx c).graphId ∧
        (t.ctx c).windows = (s.ctx c).windows ∧ (t.ctx c).frame = frameAfterReset (s.ctx c) ∧
        ((s.ctx c).waitPkt.any (·.silent) = false → (t.ctx c).state = (s.ctx c).state)) ∧
      (∀ x, (∀ c, (s.ctx c).state = .run → (s.ctx c).ownsTie x = false) → t.tieVal x = 0#32) ∧
      (∀ c g, (s.ctx c).state = .run → (s.ctx c).img = some g →
        (∀ x, (s.ctx c).ownsTie x = true → (∀ d, d ≠ c → (s.ctx d).state = .run → (s.ctx d).ownsTie x = false) →
          t.tieVal x = restartValue g.restart x (frameAfterReset (s.ctx c)).toNat) ∧
        (∀ i k d, (s.cam i k).desc = some d → (s.cam i k).ctx = c →
          (t.cam i k).n = (restartValue g.restart (camTieIn d) (frameAfterReset (s.ctx c)).toNat).toNat)) ∧
      t.tu.sec = s.tu.sec ∧ t.tu.ns = s.tu.ns

/-- A compute-domain reset that finds Protil's image failing (R455, R501 to R506; model's choices in log 120): the image of the NOR
that passes the checks of a cold boot runs from there, with BOOT_STATUS at its values, and the reset goes on to its return; where
the chip boots over PCIe, or no image of the NOR passes, the chip waits in PCIe recovery with the error's code, without contexts
(stated of a chip outside a fabric). -/
def Sys2Proof.Claims.ResetReloadsTheImageOrWaits : Prop :=
  ∀ (s : State) (i : ResetInput), resetGoesOn s i → i.imageOk = false → s.fabric.en = false →
    (∀ f : FwImage, s.power.bootMode ≠ 1 → s.readNor i.nor = .ok f → i.tallyFails = [] → s.storesWf = true →
      (∀ c g, (s.ctx c).img = some g → g.prelude = []) → (∀ r, s.hif.admin = some r → r.rqHost = true) →
      s.hoop.abandoned = [] → noWrites s →
      ∃ t : State, exec (.computeDomainReset i) s = .next t ∧ t.hoop.inReset = false ∧ t.power.phase = .up ∧
        t.power.image = (s.runImage f 0).power.image ∧ t.power.imageSvn = bytesNat f.header 12 1 ∧ t.power.source = 0 ∧
        t.id = s.id ∧ ∀ k, k < 0x10000000 → t.line k = s.line k) ∧
    (∀ e : Nat, ((s.power.bootMode = 1 ∧ e = 0) ∨ (s.power.bootMode ≠ 1 ∧ s.readNor i.nor = .error e)) →
      ∃ t : State, exec (.computeDomainReset i) s = .next t ∧ t.power.phase = .recovery ∧ t.power.recovery = true ∧
        t.power.error = e ∧ t.power.image = none ∧ t.ctxs = [] ∧ t.hoop.inReset = false ∧ t.hoop.startupDone = false ∧
        t.hif.admin = none ∧ t.id = s.id ∧ ∀ u, (t.unit u).run = none)

/-- The safety port (R431, R432): each transaction sends the response to the one before it; a read answers with the register, a
write is made only where the port may write, OP 0x00 answers with nothing, and a request with a bad CRC does nothing. -/
def Obligations.SafetyPortAnswersInTheNextTransaction : Prop :=
  (∀ (s : State) (req : BitVec 72), s.hoopRuns = true → crc8 (spiBody req) = spiByte req 8 → spiByte req 0 = 1 →
    spiOffset req % 4 = 0 → (computeBlock (spiOffset req) && s.computeInReset) = false →
    ∃ t : State, exec (.safetySpiRead req) s = .next t ∧
      t.hoop.resp = spiResponse false 0 (spiOffset req) (s.readReg 0x08 (spiOffset req)) ∧
      t.out = s.out ++ [.readData 0x08 (spiSent s)] ∧ t.units = s.units ∧ t.ctxs = s.ctxs ∧ sameStores s t) ∧
  (∀ (s : State) (req : BitVec 72), s.hoopRuns = true → crc8 (spiBody req) = spiByte req 8 → spiByte req 0 = 2 →
    spiOffset req % 4 = 0 → s.spiWritable (spiOffset req) = false →
    ∃ t : State, exec (.safetySpiWrite req) s = .next t ∧ t.hoop.resp = spiResponse false 2 (spiOffset req) 0#32 ∧ spiFirst s t ∧
      t.hoop.err = s.hoop.err ∧ t.mbox = s.mbox ∧ t.evr = s.evr ∧ t.units = s.units ∧ t.ctxs = s.ctxs ∧ sameStores s t) ∧
  (∀ (s : State) (req : BitVec 72), s.hoopRuns = true → crc8 (spiBody req) = spiByte req 8 → spiByte req 0 = 2 →
    spiOffset req = 0x830000 →
    ∃ t : State, exec (.safetySpiWrite req) s = .next t ∧ t.hoop.resp = spiResponse false 0 0x830000 0#32 ∧ spiFirst s t ∧
      t.hoop.err = s.hoop.err &&& ~~~(spiData req) ∧ t.units = s.units ∧ t.ctxs = s.ctxs ∧ sameStores s t) ∧
  (∀ (s : State) (req : BitVec 72), s.hoopRuns = true → crc8 (spiBody req) = spiByte req 8 → spiByte req 0 = 0 →
    ∃ t : State, exec (.safetySpiNone req) s = .next t ∧ t.hoop.resp = spiResponse false 0 (spiOffset req) 0#32 ∧ spiFirst s t ∧
      t.hoop.err = s.hoop.err ∧ t.units = s.units ∧ sameStores s t) ∧
  (∀ (s : State) (req : BitVec 72), s.hoopRuns = true → crc8 (spiBody req) ≠ spiByte req 8 →
    (∃ t : State, exec (.safetySpiRead req) s = .next t ∧ requestRefused req s t) ∧
    (∃ t : State, exec (.safetySpiWrite req) s = .next t ∧ requestRefused req s t) ∧
    (∃ t : State, exec (.safetySpiNone req) s = .next t ∧ requestRefused req s t))

/-- The tables are checked and repaired, a compute-domain reset returns to service, and one whose image fails reloads it or waits in
PCIe recovery. -/
def Obligations.TablesAndTheComputeDomainReset : Prop :=
  Claims.TablesAreCheckedAndRepaired ∧ Claims.ComputeDomainResetReturnsToService ∧ Claims.ResetReloadsTheImageOrWaits

/-! ### Power, clocks and boot (17) -/

/-- Power-on reset and boot (R494, R500 to R506): the loss of VDD_AO and POR_N low give every register its reset value while fuses,
straps and the NOR stay; a boot from a good image runs it with its version and SVN and fixes the chip ID and the enabled cores; a
boot mode of recovery, an xSPI error or a bad image waits for a recovery image, the first check that fails as its error; a good
recovery image in the hamper runs; the anti-rollback fuse of the image is blown after ADMIN_READY. That memory and registers without
a reset value hold 0 (logs 3 and 11), the layout of the signed configuration and what a boot is given (log 51), the hash and the
signatures of the standards named (log 7), and ADMIN_READY for the fuse (log 52) are the model's choices. -/
def Obligations.BootRunsAGoodImageOrWaits : Prop :=
  (∀ s : State,
    (∃ t : State, exec .vddAoLoss s = .next t ∧ t.id = s.id ∧ t.mem = [] ∧ t.tags = [] ∧ t.ties = [] ∧ t.ctxs = [] ∧
      t.units = State.reset.units ∧ t.tu = TimeUnit.init ∧ t.hoop = HoopState.init ∧ t.links = State.reset.links ∧
      t.power.phase = .off ∧ t.power.svnFuses = s.power.svnFuses ∧ t.evr.slots = s.evr.slots ∧
      (s.tu.ppsEn = true → Out.pps none ∈ t.out)) ∧
    (∃ t : State, exec (.porN false) s = .next t ∧ t.power.porLow = true ∧ t.power.phase = .off ∧ t.mem = [] ∧ t.ctxs = [] ∧
      t.units = State.reset.units ∧ t.hoop = HoopState.init ∧ t.power.svnFuses = s.power.svnFuses) ∧
    exec (.porN true) s = .next { s with power := { s.power with porLow := false } }) ∧
  (∀ (s : State) (i : BootInput) (f : FwImage),
    s.power.phase = .off → s.power.porLow = false → s.id.strapBoot ≠ 1#2 → s.id.strapBoot ≠ 2#2 →
    s.power.norImage = none → i.nor = some f → s.imageError f = none → i.miswrites = [] → i.tallyFails = [] →
    s.hoop = HoopState.init →
    ∃ t run, exec (.coldBoot i) s = .next t ∧ t.power.phase = .up ∧ t.power.image = some run ∧
      run.version = f.header.extractLsb' 64 32 ∧ run.svn = bytesNat f.header 12 1 ∧ run.config = f.config ∧
      run.hash = BitVec.ofNat 384 (imageHash f) ∧ run.entry = f.header.extractLsb' 192 32 ∧
      t.power.recovery = false ∧ t.id.chip = s.id.strapChip ∧ t.id.tcEn = ~~~s.id.disabledFuse ∧
      t.hoop.startupDone = true ∧ t.hoop.errOut = false ∧ t.dram.lock = true ∧ t.disp.lock = true ∧ t.fabric.lock = true ∧
      t.mem = s.mem ∧ t.ties = s.ties) ∧
  (∀ (s : State) (i : BootInput),
    s.power.phase = .off → s.power.porLow = false →
    (s.id.strapBoot = 1#2 ∨ s.id.strapBoot = 2#2 ∨ i.nor = none ∨
      (s.power.norImage = none ∧ ∃ f e, i.nor = some f ∧ s.imageError f = some e)) →
    ∃ t : State, exec (.coldBoot i) s = .next t ∧ t.power.recovery = true ∧ t.power.phase = .recovery ∧
      t.power.image = s.power.image ∧
      (∀ f e, s.id.strapBoot ≠ 1#2 → s.id.strapBoot ≠ 2#2 → i.nor = some f → s.power.norImage = none →
        s.imageError f = some e → t.power.error = e) ∧ sameStores s t) ∧
  (∀ (s : State) (v : Word) (img : FwImage) (i : BootInput),
    s.power.recovery = true → bitAt v 31 = true → 17 ≤ fieldNat v 0 16 → fieldNat v 0 16 ≤ 6416 →
    ceilDiv (4096 + bytesNat s.hamperHeader 16 4 + bytesNat s.hamperHeader 20 4) 256 = fieldNat v 0 16 →
    s.imageError (s.hamperImage (fieldNat v 0 16) img) = none →
    ∃ t run, exec (.bootRecov 1#8 v img i) s = .next t ∧ t.power.phase = .up ∧ t.power.recovery = false ∧
      t.power.image = some run ∧ run.version = s.hamperHeader.extractLsb' 64 32 ∧
      run.hash = BitVec.ofNat 384 (imageHash (s.hamperImage (fieldNat v 0 16) img)) ∧
      t.power.source = (if s.power.bootMode = 2 then 2 else 1)) ∧
  (∀ s : State, s.power.svnPending = true → s.adminReady = true → s.power.warnLow = false →
    exec .svnFuseWrite s = .next { s with power := { s.power with
      svnPending := false
      svnFuses := s.power.svnFuses ||| (1#63 <<< (s.power.imageSvn - 1)) } })

/-- Power states (R495 to R498, R517; model's choices in logs 3 and 43 to 46): a request for a deeper state is refused while
work is under way and begins an entry otherwise; each step goes one state deeper, and one past Nap puts the links OFF; a wake
event starts an exit, which ends in Run; JTAG takes IDCODE, which gives PART and STEPPING, and BYPASS always, and every
instruction while POR_N is low. -/
def Obligations.PowerStatesAreEnteredAndLeft : Prop :=
  (∀ (s : State) (m : Byte) (v : Word), (m = 1#8 ∨ m = 2#8) → 1 ≤ fieldNat v 0 3 → fieldNat v 0 3 ≤ 5 →
    s.power.exiting = false → s.power.st < fieldNat v 0 3 →
    ∃ t : State, exec (.pwrCtrlReq m v) s = .next t ∧ t.power.req = fieldNat v 0 3 ∧
      (s.powerBusy = true → t.power.refused = true ∧ t.power.entering = none) ∧
      (s.powerBusy = false → t.power.entering = some (fieldNat v 0 3) ∧ t.power.refused = s.power.refused) ∧
      t.power.st = s.power.st ∧ t.units = s.units ∧ t.ctxs = s.ctxs ∧ sameStores s t) ∧
  (∀ (s : State) (n : Nat), s.power.entering = some n → s.power.exiting = false → s.power.st < n →
    (s.power.st ≤ 1 → s.powerBusy = false) →
    ∃ t : State, exec .powerStateStep s = .next t ∧ t.power.st = s.power.st + 1 ∧
      t.power.entering = (if s.power.st + 1 = n then none else some n) ∧
      (s.power.st + 1 = 1 → t.units = s.units ∧ t.ctxs = s.ctxs ∧ t.links = s.links ∧ sameStores s t) ∧
      (s.power.st + 1 = 2 → (∀ l, (t.link l).st = 0) ∧ (∀ u, (t.unit u).run = none) ∧ t.ties = s.ties ∧
        (noWrites s → sameStores s t ∧ (s.isManager = false → t.ctxs = s.ctxs))) ∧
      (s.power.st + 1 = 3 → t.ties = [] ∧ (∀ k, k < 0x10000000 → t.line k = s.line k) ∧
        (∀ k, 0x110000000 ≤ k → k < 0x110100000 → t.line k = 0#2048)) ∧
      (s.power.st + 1 = 4 → t.ctxs = [] ∧ (∀ k, 0x100000000 ≤ k → k < 0x100080000 → t.line k = 0#2048) ∧
        (∀ k, k < 0x10000000 → t.line k = s.line k)) ∧
      (s.power.st + 1 = 5 → t.hif.linkUp = false)) ∧
  (∀ s : State, s.power.exiting = false → (s.power.st ≠ 0 ∨ s.power.entering.isSome = true) →
    ∃ t : State, exec .wakeN s = .next t ∧
      t.power = { s.power with entering := none, exiting := decide (s.power.st ≠ 0) } ∧ t.units = s.units ∧
      t.ctxs = s.ctxs ∧ sameStores s t) ∧
  (∀ (s : State) (n : Nat), s.power.exiting = true → s.power.entering = none →
    ∃ t : State, exec (.powerStateExit n) s = .next t ∧ t.power.st = 0 ∧ t.power.exiting = false ∧ t.mem = s.mem ∧
      t.tags = s.tags ∧ (s.power.warnLow = false → ∀ u, (t.unit u).run = (s.unit u).run) ∧
      (3 ≤ s.power.st → t.tu.pending = some (((n * 40 / 1000000000 : Nat) : Int), ((n * 40 % 1000000000 * 2 ^ 32 : Nat) : Int)))) ∧
  (∀ (s : State) (k : JtagKind) (ir : Nat),
    ∃ t : State, exec (.jtagInstruction k ir) s = .next t ∧
      t.out = s.out ++ [.jtag (s.power.porLow || k != .other)] ++
        (if k = .idcode then [.idcode (s.devId / 2 ^ 16) (s.devId / 2 ^ 8 % 16)] else []) ∧
      t.power.jtag = (if s.power.porLow || k != .other then ir else s.power.jtag) ∧ t.units = s.units ∧ t.ctxs = s.ctxs ∧
      sameStores s t)

/-! ### The time unit and the recorder (15, 16) -/

/-- Time (R470, R471, R473, R474, R477; the idle step and PPS_W are the model's choices, logs 1 and 49): a step written with
STEP is pending and applied with the next tick, which without one adds the increment, carries into the seconds and starts a
pulse; an increment within 1,000 ppm takes effect with its staged fraction when TU_INC_NS is written; a read of TU_NOW_FRAC
latches the rest; PPS_IN is captured. -/
def Obligations.TimeIsSteppedTickedAndRead : Prop :=
  (∀ (s : State) (m : Byte) (v : Word), (m = 2#8 ∨ m = 3#8) → bitAt v 0 = true → bitAt v 1 = true →
    s.tu.follow = false → -999999999 ≤ s.tu.stepNs.toInt → s.tu.stepNs.toInt ≤ 999999999 →
    ∃ t : State, exec (.tuCtrlStep m v) s = .next t ∧
      t.tu.pending = some (s.tu.stepS.toInt, s.tu.stepNs.toInt * 4294967296) ∧ t.tu.ppsEn = true ∧
      t.tu.ppsW = (if fieldNat v 8 8 = 0 then s.tu.ppsW else fieldNat v 8 8) ∧ t.tu.sec = s.tu.sec ∧ t.tu.ns = s.tu.ns ∧
      t.tu.inc = s.tu.inc ∧ t.units = s.units ∧ sameStores s t) ∧
  (∀ (s : State) (m : Byte) (v : Word), (m = 2#8 ∨ m = 3#8) → s.tu.follow = false →
    (∃ t : State, exec (.tuIncFrac m v) s = .next t ∧ t.tu = { s.tu with stagedFrac := v } ∧ t.units = s.units ∧
      sameStores s t) ∧
    (∃ t : State, exec (.tuIncNs m v) s = .next t ∧
      (let i := fieldNat v 0 4 * 2 ^ 32 + s.tu.stagedFrac.toNat
       t.tu.inc = if 0x27F5C28F6 ≤ i ∧ i ≤ 0x280A3D70A then i else s.tu.inc) ∧ t.tu.sec = s.tu.sec ∧ t.tu.ns = s.tu.ns ∧
      t.units = s.units ∧ sameStores s t)) ∧
  (∀ (s : State) (m : Byte), s.reaches m.toNat 0x810000 = true →
    ∃ t : State, exec (.tuNowFrac m) s = .next t ∧ t.out = s.out ++ [.readData m.toNat (toBytes s.tu.frac 4)] ∧
      t.tu = { s.tu with shadow := sparsePut 0#96 s.tu.shadow m.toNat (timeWord s.tu.sec.toNat s.tu.ns) } ∧
      t.units = s.units ∧ sameStores s t) ∧
  (∀ s : State, s.rootOn = true → s.tu.pending = none → s.tu.ns < 1000000000 → s.tu.halved = false → incOk s.tu.inc = true →
    ∃ t : State, exec .secondCarry s = .next t ∧ t.tu.sec = s.tu.sec + 1#48 ∧ t.tu.ns < 7 ∧
      (s.tu.ppsEn = true → s.tu.ppsHigh = false → t.out = s.out ++ [.pps (some true)] ∧ t.tu.ppsHigh = true) ∧
      (s.tu.ppsEn = false → t.out = s.out ∧ t.tu.ppsHigh = s.tu.ppsHigh) ∧ t.units = s.units ∧ sameStores s t) ∧
  (∀ s : State, s.tu.ppsHigh = true →
    ∃ t : State, exec .ppsOutEnd s = .next t ∧ t.tu = { s.tu with ppsHigh := false } ∧ t.out = s.out ++ [.pps (some false)] ∧
      t.units = s.units ∧ sameStores s t) ∧
  (∀ (s : State) (phase : Nat), s.rootOn = true → s.tu.ppsinAt = none →
    ∃ t : State, exec (.ppsIn phase) s = .next t ∧ t.tu.ppsinNew = true ∧
      t.tu.ppsinNs = BitVec.ofNat 32 (s.stamp phase).ns ∧ t.tu.ppsinSec = BitVec.ofNat 48 (s.stamp phase).sec ∧
      t.tu.ppsinFrac = BitVec.ofNat 32 (s.stamp phase).frac ∧ t.tu.sec = s.tu.sec ∧ t.tu.ns = s.tu.ns ∧ t.units = s.units ∧
      sameStores s t) ∧
  (∀ s : State, s.pending = [] → s.rootOn = true → s.tu.pending = none → s.tu.halved = false →
    s.tu.ns + (s.tu.inc + s.tu.frac.toNat) / 4294967296 < 1000000000 →
    ∃ t : State, step s = .next t ∧ t.tu.sec = s.tu.sec ∧
      t.tu.ns * 4294967296 + t.tu.frac.toNat = s.tu.ns * 4294967296 + s.tu.frac.toNat + s.tu.inc ∧ t.out = s.out ∧
      t.units = s.units ∧ sameStores s t)

/-- The recorder (R478 to R483; model's choices in logs 38, 39, 51 and 61): the oldest event of the queue takes the next slot
with its source, code and sequence number, and a slot that is programmed in part has no COMMIT; an erase empties the partition
and is recorded next, in slot 0, and acknowledged with that record's COMMIT; a record reads through the window of the master's
page; a counter entry takes the next sequence number; every thousandth tick of HOOP_ALIVE adds a second of operating hours. -/
def Obligations.EventsAreRecordedReadAndErased : Prop :=
  (∀ (s : State) (e : Event) (rest : List Event), s.evr.queue = e :: rest → s.hoopRuns = true → s.evr.run = true →
    s.evr.full = false → s.evr.erasing = false → s.evr.prog = none → s.evr.count + 2 < s.evr.cap → e.source < 256 → e.code < 65536 →
    ∃ (t : State) (r : Packet), exec (.eventRecord 64) s = .next t ∧ t.evr.queue = rest ∧ t.evr.count = s.evr.count + 1 ∧
      sparseGet erasedSlot t.evr.slots s.evr.count = r ∧ bytesNat r 0 1 = e.source ∧ bytesNat r 2 2 = e.code ∧
      r.extractLsb' 32 32 = e.seq ∧ r.extractLsb' 64 32 = s.evr.hours ∧ r.extractLsb' 96 32 = s.evr.pcycle ∧
      r.extractLsb' 128 96 = e.time ∧ r.extractLsb' 224 192 = e.data ∧ bytesNat r 60 4 = 0x4D16EC01 ∧
      (∀ k, k ≠ s.evr.count → sparseGet erasedSlot t.evr.slots k = sparseGet erasedSlot s.evr.slots k) ∧
      t.units = s.units ∧ t.hoop = s.hoop ∧ sameStores s t) ∧
  (∀ (s : State) (n m : Nat) (r : Packet), s.hoopRuns = true → s.evr.run = true → s.evr.full = false →
    s.evr.erasing = false → s.evr.count < s.evr.cap → s.evr.prog = some (r, m) → m ≤ n → n < 64 →
    ∃ t : State, exec (.eventRecord n) s = .next t ∧ t.evr.prog = some (r, n) ∧ t.evr.count = s.evr.count ∧
      sparseGet erasedSlot t.evr.slots s.evr.count = partSlot r n ∧
      (partSlot r n).extractLsb' 480 32 = 0xFFFFFFFF#32 ∧ t.evr.queue = s.evr.queue ∧ t.units = s.units ∧ sameStores s t) ∧
  (∀ s : State, s.evr.erasing = true → s.hoopRuns = true →
    ∃ (t : State) (r : Packet), exec .eraseComplete s = .next t ∧ t.evr.erasing = false ∧ t.evr.full = false ∧
      t.evr.count = 0 ∧ t.evr.slots = [] ∧ t.evr.prog = some (r, 0) ∧ t.evr.eraseAck = true ∧ bytesNat r 0 1 = 0 ∧
      bytesNat r 2 2 = 0x000B ∧ t.mbox = s.mbox ∧ t.units = s.units ∧ sameStores s t) ∧
  (∀ (s : State) (r : Packet) (m : Nat), s.hoopRuns = true → s.evr.run = true → s.evr.full = false →
    s.evr.erasing = false → s.evr.prog = some (r, m) → s.evr.eraseAck = true → s.evr.count + 2 < s.evr.cap →
    s.hoop.fsrs = [] → (∀ h : s.evr.eraseCh < 64, s.fragmentOn ⟨s.evr.eraseCh, h⟩ = none) → linksIdle s →
    ∃ t : State, exec (.eventRecord 64) s = .next t ∧ t.evr.prog = none ∧ t.evr.count = s.evr.count + 1 ∧
      sparseGet erasedSlot t.evr.slots s.evr.count = r ∧ t.evr.eraseAck = false ∧
      (∀ h : s.evr.eraseCh < 64, (t.chan ⟨s.evr.eraseCh, h⟩).st = 2 ∧ (t.chan ⟨s.evr.eraseCh, h⟩).ack = 0#16) ∧
      t.evr.queue = s.evr.queue ∧ t.units = s.units ∧ sameStores s t) ∧
  (∀ (s : State) (m : Byte) (off : BitVec 15), s.reaches m.toNat 0x828000 = true →
    ∃ t : State, exec (.evrWindowRead m off) s = .next t ∧
      t.out = s.out ++ [.readData m.toNat (toBytes (s.evrWindow m.toNat off.toNat) 4)] ∧
      (s.evr.cap ≤ 512 * s.evrPage m.toNat → s.evrWindow m.toNat off.toNat = 0xFFFFFFFF#32) ∧ t.evr = s.evr ∧
      t.units = s.units ∧ sameStores s t) ∧
  (∀ s : State, s.hoopRuns = true → s.evr.entryDue = true →
    ∃ t : State, exec .hoursEntry s = .next t ∧ t.evr.entrySeq = s.evr.entrySeq + 1#32 ∧ t.evr.hours = s.evr.hours ∧
      (counterEntry s.evr.hours s.evr.pcycle s.evr.entrySeq ∈ t.evr.sectorA ∨
        counterEntry s.evr.hours s.evr.pcycle s.evr.entrySeq ∈ t.evr.sectorB) ∧ t.evr.queue = s.evr.queue ∧
      t.units = s.units ∧ sameStores s t) ∧
  (∀ s : State, s.hoopRuns = true → s.hoop.subSecond < 1000 →
    ∃ t : State, exec .hoopAliveTick s = .next t ∧ t.hoop.alive = s.hoop.alive + 1#32 ∧
      t.evr.hours = (if s.hoop.subSecond = 999 then s.evr.hours + 1#32 else s.evr.hours) ∧
      t.hoop.subSecond = (s.hoop.subSecond + 1) % 1000 ∧
      (s.hoop.subSecond = 999 → s.power.stretchCount ≠ 0 → recorderOpen s →
        oneEvent s t .droop (words [s.power.stretchCount, s.power.stretchCycles])) ∧ t.units = s.units ∧ sameStores s t)

/-! ### The whole machine -/

/-- The canonical form of the stores and the range of the nanoseconds are kept by every step, from every state that has them
(R455, R470): no command, and no tick of the time unit, leaves it. -/
def Obligations.EveryStepKeepsTheStoresCanonical : Prop :=
  ∀ s t : State, s.storesWf = true → s.tu.ns < 1000000000 → step s = .next t →
    t.storesWf = true ∧ t.tu.ns < 1000000000

/-- The state at reset is canonical with no command waiting, and these registers hold the values of their Reset columns: of
every unit the BUSY, QUARANTINE and sticky bits of its status register, none set (R100, R101), where no unit runs a command;
DSP_CFG0 (R354), HIF_ADMIN_CFG (R360), DDR_CFG (R310), PWR_CTRL and TU_INC_NS (R477, R509) as a master reads them; the time
unit's increment, pulse width, seconds and fraction (R470, R477); of every link STATE OFF (R412), with the expected FSEQ 0 (the
model's start of the sequence); every context FREE (R324) and every tie 0 (R327, R329). -/
def Obligations.ResetIsCanonicalAndHoldsTheResetValues : Prop :=
  State.reset.storesWf = true ∧ State.reset.tu.ns < 1000000000 ∧ State.reset.pending = [] ∧
  (∀ u, (State.reset.unit u).run = none ∧ (State.reset.unit u).regs.busy = false ∧
    (State.reset.unit u).regs.quarantine = false ∧ (State.reset.unit u).regs.sticky = 0#32) ∧
  State.reset.tu.inc = 0x280000000 ∧ State.reset.tu.ppsW = 0x0A ∧ State.reset.tu.sec = 0#48 ∧ State.reset.tu.frac = 0#32 ∧
  State.reset.readReg 0x02 0x000020 = 0x07D08214#32 ∧ State.reset.readReg 0x02 0x001004 = 0x44#32 ∧
  State.reset.readReg 0x03 0x840000 = 0#32 ∧ State.reset.readReg 0x03 0x81000C = 0x00000002#32 ∧
  State.reset.readReg 0x02 0x500000 = 0x20#32 ∧
  (∀ l, (State.reset.link l).st = 0 ∧ (State.reset.link l).rxNext = 0#16) ∧
  (∀ c, (State.reset.ctx c).state = .free) ∧ (∀ k, State.reset.tieVal k = 0#32)
end

