-- ==== Sys2Proof/Laws/Bits.lean ====
section
/-! SUPPORT. Laws of the byte strings and fields of Machine/Bits.lean: what a number is made of its bytes, and what reading
back gives. -/

namespace Sys2Proof.Machine

@[simp] theorem natOfBytes_nil : natOfBytes [] = 0 := rfl

@[simp] theorem natOfBytes_cons (b : Byte) (bs : List Byte) : natOfBytes (b :: bs) = b.toNat + 256 * natOfBytes bs := rfl

/-- The bytes that come later weigh more. -/
theorem natOfBytes_append (as bs : List Byte) :
    natOfBytes (as ++ bs) = natOfBytes as + 256 ^ as.length * natOfBytes bs := by
  induction as with
  | nil => simp
  | cons a as ih =>
    simp only [List.cons_append, natOfBytes_cons, ih, List.length_cons, Nat.pow_succ]
    rw [Nat.mul_add, Nat.mul_comm (256 ^ as.length) 256, Nat.mul_assoc]
    omega

@[simp] theorem toBytes_length {w : Nat} (x : BitVec w) (n : Nat) : (toBytes x n).length = n := by simp [toBytes]

@[simp] theorem natToBytes_length (n v : Nat) : (natToBytes n v).length = n := by simp [natToBytes]

theorem toBytes_succ {w : Nat} (x : BitVec w) (n : Nat) : toBytes x (n + 1) = toBytes x n ++ [x.extractLsb' (8 * n) 8] := by
  simp [toBytes, List.range_succ]

/-- The low `n` bytes of a bit vector are its value modulo 256^n. -/
theorem natOfBytes_toBytes {w : Nat} (x : BitVec w) (n : Nat) : natOfBytes (toBytes x n) = x.toNat % 256 ^ n := by
  induction n with
  | zero => simp [toBytes, Nat.mod_one]
  | succ n ih =>
    rw [toBytes_succ, natOfBytes_append, ih, toBytes_length, Nat.pow_succ, Nat.mod_mul]
    simp only [natOfBytes_cons, natOfBytes_nil, BitVec.extractLsb'_toNat, Nat.shiftRight_eq_div_pow, Nat.pow_mul]
    rfl

theorem natToBytes_succ (n v : Nat) : natToBytes (n + 1) v = natToBytes n v ++ [BitVec.ofNat 8 (v >>> (8 * n))] := by
  simp [natToBytes, List.range_succ]

/-- The low `n` bytes of a number are the number modulo 256^n. -/
theorem natOfBytes_natToBytes (n v : Nat) : natOfBytes (natToBytes n v) = v % 256 ^ n := by
  induction n with
  | zero => simp [natToBytes, Nat.mod_one]
  | succ n ih =>
    rw [natToBytes_succ, natOfBytes_append, ih, natToBytes_length, Nat.pow_succ, Nat.mod_mul]
    simp only [natOfBytes_cons, natOfBytes_nil, BitVec.toNat_ofNat, Nat.shiftRight_eq_div_pow, Nat.pow_mul]
    rfl

theorem natOfBytes_lt (bs : List Byte) : natOfBytes bs < 256 ^ bs.length := by
  induction bs with
  | nil => simp
  | cons b bs ih =>
    have := b.isLt
    simp only [natOfBytes_cons, List.length_cons, Nat.pow_succ]
    omega

/-- The bytes of consecutive lines, as a number of base 2^2048. -/
theorem natOfBytes_lines (ls : List Line) :
    natOfBytes (ls.flatMap fun l => toBytes l 256) = ls.foldr (fun l acc => l.toNat + 256 ^ 256 * acc) 0 := by
  induction ls with
  | nil => rfl
  | cons l ls ih =>
    rw [List.flatMap_cons, natOfBytes_append, ih, natOfBytes_toBytes, toBytes_length, List.foldr_cons,
      Nat.mod_eq_of_lt (Nat.lt_of_lt_of_eq l.isLt (Nat.pow_mul 2 8 256))]

/-- A line is made of its own bytes. -/
@[simp] theorem lineOfBytes_toBytes (l : Line) : lineOfBytes (toBytes l 256) = l := by
  have h : (toBytes l 256).take 256 = toBytes l 256 := List.take_of_length_le (by simp)
  rw [lineOfBytes, h, natOfBytes_toBytes]
  apply BitVec.eq_of_toNat_eq
  simp only [BitVec.toNat_ofNat]
  have := l.isLt
  omega

theorem linesOfBytes_length (n : Nat) (bs : List Byte) : (linesOfBytes n bs).length = n := by
  induction n generalizing bs with
  | zero => rfl
  | succ n ih => simp [linesOfBytes, ih]

end Sys2Proof.Machine
end

