-- ==== Sys2Proof/Laws/State.lean ====
section
/-! SUPPORT. What each update of the state leaves and what it changes: one lemma for each field and update, so that no proof
unfolds a record update. -/

namespace Sys2Proof.Machine

/-! ### Units -/

/-- Two units with one index are one unit. -/
theorem unitIx_inj {u v : UnitId} (h : unitIx u = unitIx v) : u = v := by
  cases u <;> cases v <;> simp only [unitIx, Fin.mk.injEq] at h <;> first | omega | (congr 1; omega)

@[simp] theorem unit_setUnit_self (s : State) (u : UnitId) (x : UnitState) : (s.setUnit u x).unit u = x := by
  simp [State.setUnit, State.unit]

theorem unit_setUnit_ne (s : State) {u v : UnitId} (x : UnitState) (h : v ≠ u) : (s.setUnit u x).unit v = s.unit v := by
  have : (unitIx u).val ≠ (unitIx v).val := fun e => h (unitIx_inj (Fin.ext e.symm))
  simp [State.setUnit, State.unit, this]

theorem unit_setUnit (s : State) (u v : UnitId) (x : UnitState) :
    (s.setUnit u x).unit v = if v = u then x else s.unit v := by
  split
  · next h => subst h; simp
  · next h => exact unit_setUnit_ne s x h

/-! ### Cores and links -/

@[simp] theorem core_setCore_self (s : State) (n : Fin 16) (x : CoreState) : (s.setCore n x).core n = x := by
  simp [State.setCore, State.core]

theorem core_setCore_ne (s : State) {n m : Fin 16} (x : CoreState) (h : m ≠ n) :
    (s.setCore n x).core m = s.core m := by
  have : n.val ≠ m.val := fun e => h (Fin.ext e.symm)
  simp [State.setCore, State.core, this]

@[simp] theorem link_setLink_self (s : State) (l : Fin 6) (x : LinkState) : (s.setLink l x).link l = x := by
  simp [State.setLink, State.link]

theorem link_setLink_ne (s : State) {l k : Fin 6} (x : LinkState) (h : k ≠ l) :
    (s.setLink l x).link k = s.link k := by
  have : l.val ≠ k.val := fun e => h (Fin.ext e.symm)
  simp [State.setLink, State.link, this]

/-! ### Writing a line leaves every other field -/

@[simp] theorem putLine_id (s : State) (k : Nat) (l : Line) : (s.putLine k l).id = s.id := rfl
@[simp] theorem putLine_ties (s : State) (k : Nat) (l : Line) : (s.putLine k l).ties = s.ties := rfl
@[simp] theorem putLine_units (s : State) (k : Nat) (l : Line) : (s.putLine k l).units = s.units := rfl
@[simp] theorem putLine_cores (s : State) (k : Nat) (l : Line) : (s.putLine k l).cores = s.cores := rfl
@[simp] theorem putLine_copies (s : State) (k : Nat) (l : Line) : (s.putLine k l).copies = s.copies := rfl
@[simp] theorem putLine_cams (s : State) (k : Nat) (l : Line) : (s.putLine k l).cams = s.cams := rfl
@[simp] theorem putLine_macs (s : State) (k : Nat) (l : Line) : (s.putLine k l).macs = s.macs := rfl
@[simp] theorem putLine_ethLock (s : State) (k : Nat) (l : Line) : (s.putLine k l).ethLock = s.ethLock := rfl
@[simp] theorem putLine_lidars (s : State) (k : Nat) (l : Line) : (s.putLine k l).lidars = s.lidars := rfl
@[simp] theorem putLine_mgmtQ (s : State) (k : Nat) (l : Line) : (s.putLine k l).mgmtQ = s.mgmtQ := rfl
@[simp] theorem putLine_ptpQ (s : State) (k : Nat) (l : Line) : (s.putLine k l).ptpQ = s.ptpQ := rfl
@[simp] theorem putLine_skeps (s : State) (k : Nat) (l : Line) : (s.putLine k l).skeps = s.skeps := rfl
@[simp] theorem putLine_dram (s : State) (k : Nat) (l : Line) : (s.putLine k l).dram = s.dram := rfl
@[simp] theorem putLine_disp (s : State) (k : Nat) (l : Line) : (s.putLine k l).disp = s.disp := rfl
@[simp] theorem putLine_ctxs (s : State) (k : Nat) (l : Line) : (s.putLine k l).ctxs = s.ctxs := rfl
@[simp] theorem putLine_hif (s : State) (k : Nat) (l : Line) : (s.putLine k l).hif = s.hif := rfl
@[simp] theorem putLine_mbox (s : State) (k : Nat) (l : Line) : (s.putLine k l).mbox = s.mbox := rfl
@[simp] theorem putLine_links (s : State) (k : Nat) (l : Line) : (s.putLine k l).links = s.links := rfl
@[simp] theorem putLine_fabric (s : State) (k : Nat) (l : Line) : (s.putLine k l).fabric = s.fabric := rfl
@[simp] theorem putLine_hoop (s : State) (k : Nat) (l : Line) : (s.putLine k l).hoop = s.hoop := rfl
@[simp] theorem putLine_evr (s : State) (k : Nat) (l : Line) : (s.putLine k l).evr = s.evr := rfl
@[simp] theorem putLine_tu (s : State) (k : Nat) (l : Line) : (s.putLine k l).tu = s.tu := rfl
@[simp] theorem putLine_power (s : State) (k : Nat) (l : Line) : (s.putLine k l).power = s.power := rfl
@[simp] theorem putLine_pending (s : State) (k : Nat) (l : Line) : (s.putLine k l).pending = s.pending := rfl
@[simp] theorem putLine_out (s : State) (k : Nat) (l : Line) : (s.putLine k l).out = s.out := rfl
@[simp] theorem putLine_freeCtr (s : State) (k : Nat) (l : Line) : (s.putLine k l).freeCtr = s.freeCtr := rfl

/-! ### Writing a line with its tag leaves every other field -/

@[simp] theorem putLineTag_id (s : State) (k : Nat) (l : Line) (t : Option Word) : (s.putLineTag k l t).id = s.id := rfl
@[simp] theorem putLineTag_ties (s : State) (k : Nat) (l : Line) (t : Option Word) : (s.putLineTag k l t).ties = s.ties := rfl
@[simp] theorem putLineTag_units (s : State) (k : Nat) (l : Line) (t : Option Word) : (s.putLineTag k l t).units = s.units := rfl
@[simp] theorem putLineTag_cores (s : State) (k : Nat) (l : Line) (t : Option Word) : (s.putLineTag k l t).cores = s.cores := rfl
@[simp] theorem putLineTag_copies (s : State) (k : Nat) (l : Line) (t : Option Word) : (s.putLineTag k l t).copies = s.copies := rfl
@[simp] theorem putLineTag_cams (s : State) (k : Nat) (l : Line) (t : Option Word) : (s.putLineTag k l t).cams = s.cams := rfl
@[simp] theorem putLineTag_macs (s : State) (k : Nat) (l : Line) (t : Option Word) : (s.putLineTag k l t).macs = s.macs := rfl
@[simp] theorem putLineTag_ethLock (s : State) (k : Nat) (l : Line) (t : Option Word) : (s.putLineTag k l t).ethLock = s.ethLock := rfl
@[simp] theorem putLineTag_lidars (s : State) (k : Nat) (l : Line) (t : Option Word) : (s.putLineTag k l t).lidars = s.lidars := rfl
@[simp] theorem putLineTag_mgmtQ (s : State) (k : Nat) (l : Line) (t : Option Word) : (s.putLineTag k l t).mgmtQ = s.mgmtQ := rfl
@[simp] theorem putLineTag_ptpQ (s : State) (k : Nat) (l : Line) (t : Option Word) : (s.putLineTag k l t).ptpQ = s.ptpQ := rfl
@[simp] theorem putLineTag_skeps (s : State) (k : Nat) (l : Line) (t : Option Word) : (s.putLineTag k l t).skeps = s.skeps := rfl
@[simp] theorem putLineTag_dram (s : State) (k : Nat) (l : Line) (t : Option Word) : (s.putLineTag k l t).dram = s.dram := rfl
@[simp] theorem putLineTag_disp (s : State) (k : Nat) (l : Line) (t : Option Word) : (s.putLineTag k l t).disp = s.disp := rfl
@[simp] theorem putLineTag_ctxs (s : State) (k : Nat) (l : Line) (t : Option Word) : (s.putLineTag k l t).ctxs = s.ctxs := rfl
@[simp] theorem putLineTag_hif (s : State) (k : Nat) (l : Line) (t : Option Word) : (s.putLineTag k l t).hif = s.hif := rfl
@[simp] theorem putLineTag_mbox (s : State) (k : Nat) (l : Line) (t : Option Word) : (s.putLineTag k l t).mbox = s.mbox := rfl
@[simp] theorem putLineTag_links (s : State) (k : Nat) (l : Line) (t : Option Word) : (s.putLineTag k l t).links = s.links := rfl
@[simp] theorem putLineTag_fabric (s : State) (k : Nat) (l : Line) (t : Option Word) : (s.putLineTag k l t).fabric = s.fabric := rfl
@[simp] theorem putLineTag_hoop (s : State) (k : Nat) (l : Line) (t : Option Word) : (s.putLineTag k l t).hoop = s.hoop := rfl
@[simp] theorem putLineTag_evr (s : State) (k : Nat) (l : Line) (t : Option Word) : (s.putLineTag k l t).evr = s.evr := rfl
@[simp] theorem putLineTag_tu (s : State) (k : Nat) (l : Line) (t : Option Word) : (s.putLineTag k l t).tu = s.tu := rfl
@[simp] theorem putLineTag_power (s : State) (k : Nat) (l : Line) (t : Option Word) : (s.putLineTag k l t).power = s.power := rfl
@[simp] theorem putLineTag_pending (s : State) (k : Nat) (l : Line) (t : Option Word) : (s.putLineTag k l t).pending = s.pending := rfl
@[simp] theorem putLineTag_out (s : State) (k : Nat) (l : Line) (t : Option Word) : (s.putLineTag k l t).out = s.out := rfl
@[simp] theorem putLineTag_freeCtr (s : State) (k : Nat) (l : Line) (t : Option Word) : (s.putLineTag k l t).freeCtr = s.freeCtr := rfl

/-! ### Setting a tie leaves every other field -/

@[simp] theorem tieSet_id (s : State) (t : Nat) (v : Word) : (s.tieSet t v).id = s.id := rfl
@[simp] theorem tieSet_mem (s : State) (t : Nat) (v : Word) : (s.tieSet t v).mem = s.mem := rfl
@[simp] theorem tieSet_tags (s : State) (t : Nat) (v : Word) : (s.tieSet t v).tags = s.tags := rfl
@[simp] theorem tieSet_units (s : State) (t : Nat) (v : Word) : (s.tieSet t v).units = s.units := rfl
@[simp] theorem tieSet_cores (s : State) (t : Nat) (v : Word) : (s.tieSet t v).cores = s.cores := rfl
@[simp] theorem tieSet_copies (s : State) (t : Nat) (v : Word) : (s.tieSet t v).copies = s.copies := rfl
@[simp] theorem tieSet_cams (s : State) (t : Nat) (v : Word) : (s.tieSet t v).cams = s.cams := rfl
@[simp] theorem tieSet_macs (s : State) (t : Nat) (v : Word) : (s.tieSet t v).macs = s.macs := rfl
@[simp] theorem tieSet_ethLock (s : State) (t : Nat) (v : Word) : (s.tieSet t v).ethLock = s.ethLock := rfl
@[simp] theorem tieSet_lidars (s : State) (t : Nat) (v : Word) : (s.tieSet t v).lidars = s.lidars := rfl
@[simp] theorem tieSet_mgmtQ (s : State) (t : Nat) (v : Word) : (s.tieSet t v).mgmtQ = s.mgmtQ := rfl
@[simp] theorem tieSet_ptpQ (s : State) (t : Nat) (v : Word) : (s.tieSet t v).ptpQ = s.ptpQ := rfl
@[simp] theorem tieSet_skeps (s : State) (t : Nat) (v : Word) : (s.tieSet t v).skeps = s.skeps := rfl
@[simp] theorem tieSet_dram (s : State) (t : Nat) (v : Word) : (s.tieSet t v).dram = s.dram := rfl
@[simp] theorem tieSet_disp (s : State) (t : Nat) (v : Word) : (s.tieSet t v).disp = s.disp := rfl
@[simp] theorem tieSet_ctxs (s : State) (t : Nat) (v : Word) : (s.tieSet t v).ctxs = s.ctxs := rfl
@[simp] theorem tieSet_hif (s : State) (t : Nat) (v : Word) : (s.tieSet t v).hif = s.hif := rfl
@[simp] theorem tieSet_mbox (s : State) (t : Nat) (v : Word) : (s.tieSet t v).mbox = s.mbox := rfl
@[simp] theorem tieSet_links (s : State) (t : Nat) (v : Word) : (s.tieSet t v).links = s.links := rfl
@[simp] theorem tieSet_fabric (s : State) (t : Nat) (v : Word) : (s.tieSet t v).fabric = s.fabric := rfl
@[simp] theorem tieSet_hoop (s : State) (t : Nat) (v : Word) : (s.tieSet t v).hoop = s.hoop := rfl
@[simp] theorem tieSet_evr (s : State) (t : Nat) (v : Word) : (s.tieSet t v).evr = s.evr := rfl
@[simp] theorem tieSet_tu (s : State) (t : Nat) (v : Word) : (s.tieSet t v).tu = s.tu := rfl
@[simp] theorem tieSet_power (s : State) (t : Nat) (v : Word) : (s.tieSet t v).power = s.power := rfl
@[simp] theorem tieSet_pending (s : State) (t : Nat) (v : Word) : (s.tieSet t v).pending = s.pending := rfl
@[simp] theorem tieSet_out (s : State) (t : Nat) (v : Word) : (s.tieSet t v).out = s.out := rfl
@[simp] theorem tieSet_freeCtr (s : State) (t : Nat) (v : Word) : (s.tieSet t v).freeCtr = s.freeCtr := rfl

/-! ### Replacing a context-table entry leaves every other field -/

@[simp] theorem setCtx_id (s : State) (c : Nat) (x : Ctx) : (s.setCtx c x).id = s.id := rfl
@[simp] theorem setCtx_mem (s : State) (c : Nat) (x : Ctx) : (s.setCtx c x).mem = s.mem := rfl
@[simp] theorem setCtx_tags (s : State) (c : Nat) (x : Ctx) : (s.setCtx c x).tags = s.tags := rfl
@[simp] theorem setCtx_ties (s : State) (c : Nat) (x : Ctx) : (s.setCtx c x).ties = s.ties := rfl
@[simp] theorem setCtx_units (s : State) (c : Nat) (x : Ctx) : (s.setCtx c x).units = s.units := rfl
@[simp] theorem setCtx_cores (s : State) (c : Nat) (x : Ctx) : (s.setCtx c x).cores = s.cores := rfl
@[simp] theorem setCtx_copies (s : State) (c : Nat) (x : Ctx) : (s.setCtx c x).copies = s.copies := rfl
@[simp] theorem setCtx_cams (s : State) (c : Nat) (x : Ctx) : (s.setCtx c x).cams = s.cams := rfl
@[simp] theorem setCtx_macs (s : State) (c : Nat) (x : Ctx) : (s.setCtx c x).macs = s.macs := rfl
@[simp] theorem setCtx_ethLock (s : State) (c : Nat) (x : Ctx) : (s.setCtx c x).ethLock = s.ethLock := rfl
@[simp] theorem setCtx_lidars (s : State) (c : Nat) (x : Ctx) : (s.setCtx c x).lidars = s.lidars := rfl
@[simp] theorem setCtx_mgmtQ (s : State) (c : Nat) (x : Ctx) : (s.setCtx c x).mgmtQ = s.mgmtQ := rfl
@[simp] theorem setCtx_ptpQ (s : State) (c : Nat) (x : Ctx) : (s.setCtx c x).ptpQ = s.ptpQ := rfl
@[simp] theorem setCtx_skeps (s : State) (c : Nat) (x : Ctx) : (s.setCtx c x).skeps = s.skeps := rfl
@[simp] theorem setCtx_dram (s : State) (c : Nat) (x : Ctx) : (s.setCtx c x).dram = s.dram := rfl
@[simp] theorem setCtx_disp (s : State) (c : Nat) (x : Ctx) : (s.setCtx c x).disp = s.disp := rfl
@[simp] theorem setCtx_hif (s : State) (c : Nat) (x : Ctx) : (s.setCtx c x).hif = s.hif := rfl
@[simp] theorem setCtx_mbox (s : State) (c : Nat) (x : Ctx) : (s.setCtx c x).mbox = s.mbox := rfl
@[simp] theorem setCtx_links (s : State) (c : Nat) (x : Ctx) : (s.setCtx c x).links = s.links := rfl
@[simp] theorem setCtx_fabric (s : State) (c : Nat) (x : Ctx) : (s.setCtx c x).fabric = s.fabric := rfl
@[simp] theorem setCtx_hoop (s : State) (c : Nat) (x : Ctx) : (s.setCtx c x).hoop = s.hoop := rfl
@[simp] theorem setCtx_evr (s : State) (c : Nat) (x : Ctx) : (s.setCtx c x).evr = s.evr := rfl
@[simp] theorem setCtx_tu (s : State) (c : Nat) (x : Ctx) : (s.setCtx c x).tu = s.tu := rfl
@[simp] theorem setCtx_power (s : State) (c : Nat) (x : Ctx) : (s.setCtx c x).power = s.power := rfl
@[simp] theorem setCtx_pending (s : State) (c : Nat) (x : Ctx) : (s.setCtx c x).pending = s.pending := rfl
@[simp] theorem setCtx_out (s : State) (c : Nat) (x : Ctx) : (s.setCtx c x).out = s.out := rfl
@[simp] theorem setCtx_freeCtr (s : State) (c : Nat) (x : Ctx) : (s.setCtx c x).freeCtr = s.freeCtr := rfl

/-! ### Replacing a unit leaves every other field -/

@[simp] theorem setUnit_id (s : State) (u : UnitId) (x : UnitState) : (s.setUnit u x).id = s.id := rfl
@[simp] theorem setUnit_mem (s : State) (u : UnitId) (x : UnitState) : (s.setUnit u x).mem = s.mem := rfl
@[simp] theorem setUnit_tags (s : State) (u : UnitId) (x : UnitState) : (s.setUnit u x).tags = s.tags := rfl
@[simp] theorem setUnit_ties (s : State) (u : UnitId) (x : UnitState) : (s.setUnit u x).ties = s.ties := rfl
@[simp] theorem setUnit_cores (s : State) (u : UnitId) (x : UnitState) : (s.setUnit u x).cores = s.cores := rfl
@[simp] theorem setUnit_copies (s : State) (u : UnitId) (x : UnitState) : (s.setUnit u x).copies = s.copies := rfl
@[simp] theorem setUnit_cams (s : State) (u : UnitId) (x : UnitState) : (s.setUnit u x).cams = s.cams := rfl
@[simp] theorem setUnit_macs (s : State) (u : UnitId) (x : UnitState) : (s.setUnit u x).macs = s.macs := rfl
@[simp] theorem setUnit_ethLock (s : State) (u : UnitId) (x : UnitState) : (s.setUnit u x).ethLock = s.ethLock := rfl
@[simp] theorem setUnit_lidars (s : State) (u : UnitId) (x : UnitState) : (s.setUnit u x).lidars = s.lidars := rfl
@[simp] theorem setUnit_mgmtQ (s : State) (u : UnitId) (x : UnitState) : (s.setUnit u x).mgmtQ = s.mgmtQ := rfl
@[simp] theorem setUnit_ptpQ (s : State) (u : UnitId) (x : UnitState) : (s.setUnit u x).ptpQ = s.ptpQ := rfl
@[simp] theorem setUnit_skeps (s : State) (u : UnitId) (x : UnitState) : (s.setUnit u x).skeps = s.skeps := rfl
@[simp] theorem setUnit_dram (s : State) (u : UnitId) (x : UnitState) : (s.setUnit u x).dram = s.dram := rfl
@[simp] theorem setUnit_disp (s : State) (u : UnitId) (x : UnitState) : (s.setUnit u x).disp = s.disp := rfl
@[simp] theorem setUnit_ctxs (s : State) (u : UnitId) (x : UnitState) : (s.setUnit u x).ctxs = s.ctxs := rfl
@[simp] theorem setUnit_hif (s : State) (u : UnitId) (x : UnitState) : (s.setUnit u x).hif = s.hif := rfl
@[simp] theorem setUnit_mbox (s : State) (u : UnitId) (x : UnitState) : (s.setUnit u x).mbox = s.mbox := rfl
@[simp] theorem setUnit_links (s : State) (u : UnitId) (x : UnitState) : (s.setUnit u x).links = s.links := rfl
@[simp] theorem setUnit_fabric (s : State) (u : UnitId) (x : UnitState) : (s.setUnit u x).fabric = s.fabric := rfl
@[simp] theorem setUnit_hoop (s : State) (u : UnitId) (x : UnitState) : (s.setUnit u x).hoop = s.hoop := rfl
@[simp] theorem setUnit_evr (s : State) (u : UnitId) (x : UnitState) : (s.setUnit u x).evr = s.evr := rfl
@[simp] theorem setUnit_tu (s : State) (u : UnitId) (x : UnitState) : (s.setUnit u x).tu = s.tu := rfl
@[simp] theorem setUnit_power (s : State) (u : UnitId) (x : UnitState) : (s.setUnit u x).power = s.power := rfl
@[simp] theorem setUnit_pending (s : State) (u : UnitId) (x : UnitState) : (s.setUnit u x).pending = s.pending := rfl
@[simp] theorem setUnit_out (s : State) (u : UnitId) (x : UnitState) : (s.setUnit u x).out = s.out := rfl
@[simp] theorem setUnit_freeCtr (s : State) (u : UnitId) (x : UnitState) : (s.setUnit u x).freeCtr = s.freeCtr := rfl

/-! ### Replacing a core leaves every other field -/

@[simp] theorem setCore_id (s : State) (n : Fin 16) (x : CoreState) : (s.setCore n x).id = s.id := rfl
@[simp] theorem setCore_mem (s : State) (n : Fin 16) (x : CoreState) : (s.setCore n x).mem = s.mem := rfl
@[simp] theorem setCore_tags (s : State) (n : Fin 16) (x : CoreState) : (s.setCore n x).tags = s.tags := rfl
@[simp] theorem setCore_ties (s : State) (n : Fin 16) (x : CoreState) : (s.setCore n x).ties = s.ties := rfl
@[simp] theorem setCore_units (s : State) (n : Fin 16) (x : CoreState) : (s.setCore n x).units = s.units := rfl
@[simp] theorem setCore_copies (s : State) (n : Fin 16) (x : CoreState) : (s.setCore n x).copies = s.copies := rfl
@[simp] theorem setCore_cams (s : State) (n : Fin 16) (x : CoreState) : (s.setCore n x).cams = s.cams := rfl
@[simp] theorem setCore_macs (s : State) (n : Fin 16) (x : CoreState) : (s.setCore n x).macs = s.macs := rfl
@[simp] theorem setCore_ethLock (s : State) (n : Fin 16) (x : CoreState) : (s.setCore n x).ethLock = s.ethLock := rfl
@[simp] theorem setCore_lidars (s : State) (n : Fin 16) (x : CoreState) : (s.setCore n x).lidars = s.lidars := rfl
@[simp] theorem setCore_mgmtQ (s : State) (n : Fin 16) (x : CoreState) : (s.setCore n x).mgmtQ = s.mgmtQ := rfl
@[simp] theorem setCore_ptpQ (s : State) (n : Fin 16) (x : CoreState) : (s.setCore n x).ptpQ = s.ptpQ := rfl
@[simp] theorem setCore_skeps (s : State) (n : Fin 16) (x : CoreState) : (s.setCore n x).skeps = s.skeps := rfl
@[simp] theorem setCore_dram (s : State) (n : Fin 16) (x : CoreState) : (s.setCore n x).dram = s.dram := rfl
@[simp] theorem setCore_disp (s : State) (n : Fin 16) (x : CoreState) : (s.setCore n x).disp = s.disp := rfl
@[simp] theorem setCore_ctxs (s : State) (n : Fin 16) (x : CoreState) : (s.setCore n x).ctxs = s.ctxs := rfl
@[simp] theorem setCore_hif (s : State) (n : Fin 16) (x : CoreState) : (s.setCore n x).hif = s.hif := rfl
@[simp] theorem setCore_mbox (s : State) (n : Fin 16) (x : CoreState) : (s.setCore n x).mbox = s.mbox := rfl
@[simp] theorem setCore_links (s : State) (n : Fin 16) (x : CoreState) : (s.setCore n x).links = s.links := rfl
@[simp] theorem setCore_fabric (s : State) (n : Fin 16) (x : CoreState) : (s.setCore n x).fabric = s.fabric := rfl
@[simp] theorem setCore_hoop (s : State) (n : Fin 16) (x : CoreState) : (s.setCore n x).hoop = s.hoop := rfl
@[simp] theorem setCore_evr (s : State) (n : Fin 16) (x : CoreState) : (s.setCore n x).evr = s.evr := rfl
@[simp] theorem setCore_tu (s : State) (n : Fin 16) (x : CoreState) : (s.setCore n x).tu = s.tu := rfl
@[simp] theorem setCore_power (s : State) (n : Fin 16) (x : CoreState) : (s.setCore n x).power = s.power := rfl
@[simp] theorem setCore_pending (s : State) (n : Fin 16) (x : CoreState) : (s.setCore n x).pending = s.pending := rfl
@[simp] theorem setCore_out (s : State) (n : Fin 16) (x : CoreState) : (s.setCore n x).out = s.out := rfl
@[simp] theorem setCore_freeCtr (s : State) (n : Fin 16) (x : CoreState) : (s.setCore n x).freeCtr = s.freeCtr := rfl

/-! ### Replacing a link leaves every other field -/

@[simp] theorem setLink_id (s : State) (l : Fin 6) (x : LinkState) : (s.setLink l x).id = s.id := rfl
@[simp] theorem setLink_mem (s : State) (l : Fin 6) (x : LinkState) : (s.setLink l x).mem = s.mem := rfl
@[simp] theorem setLink_tags (s : State) (l : Fin 6) (x : LinkState) : (s.setLink l x).tags = s.tags := rfl
@[simp] theorem setLink_ties (s : State) (l : Fin 6) (x : LinkState) : (s.setLink l x).ties = s.ties := rfl
@[simp] theorem setLink_units (s : State) (l : Fin 6) (x : LinkState) : (s.setLink l x).units = s.units := rfl
@[simp] theorem setLink_cores (s : State) (l : Fin 6) (x : LinkState) : (s.setLink l x).cores = s.cores := rfl
@[simp] theorem setLink_copies (s : State) (l : Fin 6) (x : LinkState) : (s.setLink l x).copies = s.copies := rfl
@[simp] theorem setLink_cams (s : State) (l : Fin 6) (x : LinkState) : (s.setLink l x).cams = s.cams := rfl
@[simp] theorem setLink_macs (s : State) (l : Fin 6) (x : LinkState) : (s.setLink l x).macs = s.macs := rfl
@[simp] theorem setLink_ethLock (s : State) (l : Fin 6) (x : LinkState) : (s.setLink l x).ethLock = s.ethLock := rfl
@[simp] theorem setLink_lidars (s : State) (l : Fin 6) (x : LinkState) : (s.setLink l x).lidars = s.lidars := rfl
@[simp] theorem setLink_mgmtQ (s : State) (l : Fin 6) (x : LinkState) : (s.setLink l x).mgmtQ = s.mgmtQ := rfl
@[simp] theorem setLink_ptpQ (s : State) (l : Fin 6) (x : LinkState) : (s.setLink l x).ptpQ = s.ptpQ := rfl
@[simp] theorem setLink_skeps (s : State) (l : Fin 6) (x : LinkState) : (s.setLink l x).skeps = s.skeps := rfl
@[simp] theorem setLink_dram (s : State) (l : Fin 6) (x : LinkState) : (s.setLink l x).dram = s.dram := rfl
@[simp] theorem setLink_disp (s : State) (l : Fin 6) (x : LinkState) : (s.setLink l x).disp = s.disp := rfl
@[simp] theorem setLink_ctxs (s : State) (l : Fin 6) (x : LinkState) : (s.setLink l x).ctxs = s.ctxs := rfl
@[simp] theorem setLink_hif (s : State) (l : Fin 6) (x : LinkState) : (s.setLink l x).hif = s.hif := rfl
@[simp] theorem setLink_mbox (s : State) (l : Fin 6) (x : LinkState) : (s.setLink l x).mbox = s.mbox := rfl
@[simp] theorem setLink_fabric (s : State) (l : Fin 6) (x : LinkState) : (s.setLink l x).fabric = s.fabric := rfl
@[simp] theorem setLink_hoop (s : State) (l : Fin 6) (x : LinkState) : (s.setLink l x).hoop = s.hoop := rfl
@[simp] theorem setLink_evr (s : State) (l : Fin 6) (x : LinkState) : (s.setLink l x).evr = s.evr := rfl
@[simp] theorem setLink_tu (s : State) (l : Fin 6) (x : LinkState) : (s.setLink l x).tu = s.tu := rfl
@[simp] theorem setLink_power (s : State) (l : Fin 6) (x : LinkState) : (s.setLink l x).power = s.power := rfl
@[simp] theorem setLink_pending (s : State) (l : Fin 6) (x : LinkState) : (s.setLink l x).pending = s.pending := rfl
@[simp] theorem setLink_out (s : State) (l : Fin 6) (x : LinkState) : (s.setLink l x).out = s.out := rfl
@[simp] theorem setLink_freeCtr (s : State) (l : Fin 6) (x : LinkState) : (s.setLink l x).freeCtr = s.freeCtr := rfl

/-! ### A message out leaves every other field -/

@[simp] theorem emit_id (s : State) (o : Out) : (s.emit o).id = s.id := rfl
@[simp] theorem emit_mem (s : State) (o : Out) : (s.emit o).mem = s.mem := rfl
@[simp] theorem emit_tags (s : State) (o : Out) : (s.emit o).tags = s.tags := rfl
@[simp] theorem emit_ties (s : State) (o : Out) : (s.emit o).ties = s.ties := rfl
@[simp] theorem emit_units (s : State) (o : Out) : (s.emit o).units = s.units := rfl
@[simp] theorem emit_cores (s : State) (o : Out) : (s.emit o).cores = s.cores := rfl
@[simp] theorem emit_copies (s : State) (o : Out) : (s.emit o).copies = s.copies := rfl
@[simp] theorem emit_cams (s : State) (o : Out) : (s.emit o).cams = s.cams := rfl
@[simp] theorem emit_macs (s : State) (o : Out) : (s.emit o).macs = s.macs := rfl
@[simp] theorem emit_ethLock (s : State) (o : Out) : (s.emit o).ethLock = s.ethLock := rfl
@[simp] theorem emit_lidars (s : State) (o : Out) : (s.emit o).lidars = s.lidars := rfl
@[simp] theorem emit_mgmtQ (s : State) (o : Out) : (s.emit o).mgmtQ = s.mgmtQ := rfl
@[simp] theorem emit_ptpQ (s : State) (o : Out) : (s.emit o).ptpQ = s.ptpQ := rfl
@[simp] theorem emit_skeps (s : State) (o : Out) : (s.emit o).skeps = s.skeps := rfl
@[simp] theorem emit_dram (s : State) (o : Out) : (s.emit o).dram = s.dram := rfl
@[simp] theorem emit_disp (s : State) (o : Out) : (s.emit o).disp = s.disp := rfl
@[simp] theorem emit_ctxs (s : State) (o : Out) : (s.emit o).ctxs = s.ctxs := rfl
@[simp] theorem emit_hif (s : State) (o : Out) : (s.emit o).hif = s.hif := rfl
@[simp] theorem emit_mbox (s : State) (o : Out) : (s.emit o).mbox = s.mbox := rfl
@[simp] theorem emit_links (s : State) (o : Out) : (s.emit o).links = s.links := rfl
@[simp] theorem emit_fabric (s : State) (o : Out) : (s.emit o).fabric = s.fabric := rfl
@[simp] theorem emit_hoop (s : State) (o : Out) : (s.emit o).hoop = s.hoop := rfl
@[simp] theorem emit_evr (s : State) (o : Out) : (s.emit o).evr = s.evr := rfl
@[simp] theorem emit_tu (s : State) (o : Out) : (s.emit o).tu = s.tu := rfl
@[simp] theorem emit_power (s : State) (o : Out) : (s.emit o).power = s.power := rfl
@[simp] theorem emit_pending (s : State) (o : Out) : (s.emit o).pending = s.pending := rfl
@[simp] theorem emit_freeCtr (s : State) (o : Out) : (s.emit o).freeCtr = s.freeCtr := rfl

/-! ### Setting a bit of HOOP_ERR leaves every other field -/

@[simp] theorem hoopErr_id (s : State) (b : Nat) : (s.hoopErr b).id = s.id := rfl
@[simp] theorem hoopErr_mem (s : State) (b : Nat) : (s.hoopErr b).mem = s.mem := rfl
@[simp] theorem hoopErr_tags (s : State) (b : Nat) : (s.hoopErr b).tags = s.tags := rfl
@[simp] theorem hoopErr_ties (s : State) (b : Nat) : (s.hoopErr b).ties = s.ties := rfl
@[simp] theorem hoopErr_units (s : State) (b : Nat) : (s.hoopErr b).units = s.units := rfl
@[simp] theorem hoopErr_cores (s : State) (b : Nat) : (s.hoopErr b).cores = s.cores := rfl
@[simp] theorem hoopErr_copies (s : State) (b : Nat) : (s.hoopErr b).copies = s.copies := rfl
@[simp] theorem hoopErr_cams (s : State) (b : Nat) : (s.hoopErr b).cams = s.cams := rfl
@[simp] theorem hoopErr_macs (s : State) (b : Nat) : (s.hoopErr b).macs = s.macs := rfl
@[simp] theorem hoopErr_ethLock (s : State) (b : Nat) : (s.hoopErr b).ethLock = s.ethLock := rfl
@[simp] theorem hoopErr_lidars (s : State) (b : Nat) : (s.hoopErr b).lidars = s.lidars := rfl
@[simp] theorem hoopErr_mgmtQ (s : State) (b : Nat) : (s.hoopErr b).mgmtQ = s.mgmtQ := rfl
@[simp] theorem hoopErr_ptpQ (s : State) (b : Nat) : (s.hoopErr b).ptpQ = s.ptpQ := rfl
@[simp] theorem hoopErr_skeps (s : State) (b : Nat) : (s.hoopErr b).skeps = s.skeps := rfl
@[simp] theorem hoopErr_dram (s : State) (b : Nat) : (s.hoopErr b).dram = s.dram := rfl
@[simp] theorem hoopErr_disp (s : State) (b : Nat) : (s.hoopErr b).disp = s.disp := rfl
@[simp] theorem hoopErr_ctxs (s : State) (b : Nat) : (s.hoopErr b).ctxs = s.ctxs := rfl
@[simp] theorem hoopErr_hif (s : State) (b : Nat) : (s.hoopErr b).hif = s.hif := rfl
@[simp] theorem hoopErr_mbox (s : State) (b : Nat) : (s.hoopErr b).mbox = s.mbox := rfl
@[simp] theorem hoopErr_links (s : State) (b : Nat) : (s.hoopErr b).links = s.links := rfl
@[simp] theorem hoopErr_fabric (s : State) (b : Nat) : (s.hoopErr b).fabric = s.fabric := rfl
@[simp] theorem hoopErr_evr (s : State) (b : Nat) : (s.hoopErr b).evr = s.evr := rfl
@[simp] theorem hoopErr_tu (s : State) (b : Nat) : (s.hoopErr b).tu = s.tu := rfl
@[simp] theorem hoopErr_power (s : State) (b : Nat) : (s.hoopErr b).power = s.power := rfl
@[simp] theorem hoopErr_pending (s : State) (b : Nat) : (s.hoopErr b).pending = s.pending := rfl
@[simp] theorem hoopErr_out (s : State) (b : Nat) : (s.hoopErr b).out = s.out := rfl
@[simp] theorem hoopErr_freeCtr (s : State) (b : Nat) : (s.hoopErr b).freeCtr = s.freeCtr := rfl

/-! ### Raising an event leaves every other field -/

@[simp] theorem event_id (s : State) (k : EventKind) (d : List Byte) : (s.event k d).id = s.id := by
  unfold State.event; dsimp only; split <;> rfl
@[simp] theorem event_mem (s : State) (k : EventKind) (d : List Byte) : (s.event k d).mem = s.mem := by
  unfold State.event; dsimp only; split <;> rfl
@[simp] theorem event_tags (s : State) (k : EventKind) (d : List Byte) : (s.event k d).tags = s.tags := by
  unfold State.event; dsimp only; split <;> rfl
@[simp] theorem event_ties (s : State) (k : EventKind) (d : List Byte) : (s.event k d).ties = s.ties := by
  unfold State.event; dsimp only; split <;> rfl
@[simp] theorem event_units (s : State) (k : EventKind) (d : List Byte) : (s.event k d).units = s.units := by
  unfold State.event; dsimp only; split <;> rfl
@[simp] theorem event_cores (s : State) (k : EventKind) (d : List Byte) : (s.event k d).cores = s.cores := by
  unfold State.event; dsimp only; split <;> rfl
@[simp] theorem event_copies (s : State) (k : EventKind) (d : List Byte) : (s.event k d).copies = s.copies := by
  unfold State.event; dsimp only; split <;> rfl
@[simp] theorem event_cams (s : State) (k : EventKind) (d : List Byte) : (s.event k d).cams = s.cams := by
  unfold State.event; dsimp only; split <;> rfl
@[simp] theorem event_macs (s : State) (k : EventKind) (d : List Byte) : (s.event k d).macs = s.macs := by
  unfold State.event; dsimp only; split <;> rfl
@[simp] theorem event_ethLock (s : State) (k : EventKind) (d : List Byte) : (s.event k d).ethLock = s.ethLock := by
  unfold State.event; dsimp only; split <;> rfl
@[simp] theorem event_lidars (s : State) (k : EventKind) (d : List Byte) : (s.event k d).lidars = s.lidars := by
  unfold State.event; dsimp only; split <;> rfl
@[simp] theorem event_mgmtQ (s : State) (k : EventKind) (d : List Byte) : (s.event k d).mgmtQ = s.mgmtQ := by
  unfold State.event; dsimp only; split <;> rfl
@[simp] theorem event_ptpQ (s : State) (k : EventKind) (d : List Byte) : (s.event k d).ptpQ = s.ptpQ := by
  unfold State.event; dsimp only; split <;> rfl
@[simp] theorem event_skeps (s : State) (k : EventKind) (d : List Byte) : (s.event k d).skeps = s.skeps := by
  unfold State.event; dsimp only; split <;> rfl
@[simp] theorem event_dram (s : State) (k : EventKind) (d : List Byte) : (s.event k d).dram = s.dram := by
  unfold State.event; dsimp only; split <;> rfl
@[simp] theorem event_disp (s : State) (k : EventKind) (d : List Byte) : (s.event k d).disp = s.disp := by
  unfold State.event; dsimp only; split <;> rfl
@[simp] theorem event_ctxs (s : State) (k : EventKind) (d : List Byte) : (s.event k d).ctxs = s.ctxs := by
  unfold State.event; dsimp only; split <;> rfl
@[simp] theorem event_hif (s : State) (k : EventKind) (d : List Byte) : (s.event k d).hif = s.hif := by
  unfold State.event; dsimp only; split <;> rfl
@[simp] theorem event_mbox (s : State) (k : EventKind) (d : List Byte) : (s.event k d).mbox = s.mbox := by
  unfold State.event; dsimp only; split <;> rfl
@[simp] theorem event_links (s : State) (k : EventKind) (d : List Byte) : (s.event k d).links = s.links := by
  unfold State.event; dsimp only; split <;> rfl
@[simp] theorem event_fabric (s : State) (k : EventKind) (d : List Byte) : (s.event k d).fabric = s.fabric := by
  unfold State.event; dsimp only; split <;> rfl
@[simp] theorem event_hoop (s : State) (k : EventKind) (d : List Byte) : (s.event k d).hoop = s.hoop := by
  unfold State.event; dsimp only; split <;> rfl
@[simp] theorem event_tu (s : State) (k : EventKind) (d : List Byte) : (s.event k d).tu = s.tu := by
  unfold State.event; dsimp only; split <;> rfl
@[simp] theorem event_power (s : State) (k : EventKind) (d : List Byte) : (s.event k d).power = s.power := by
  unfold State.event; dsimp only; split <;> rfl
@[simp] theorem event_pending (s : State) (k : EventKind) (d : List Byte) : (s.event k d).pending = s.pending := by
  unfold State.event; dsimp only; split <;> rfl
@[simp] theorem event_out (s : State) (k : EventKind) (d : List Byte) : (s.event k d).out = s.out := by
  unfold State.event; dsimp only; split <;> rfl
@[simp] theorem event_freeCtr (s : State) (k : EventKind) (d : List Byte) : (s.event k d).freeCtr = s.freeCtr := by
  unfold State.event; dsimp only; split <;> rfl

/-! ### An interrupt message leaves every other field -/

@[simp] theorem msix_id (s : State) (v : Nat) : (s.msix v).id = s.id := by
  unfold State.msix; split <;> rfl
@[simp] theorem msix_mem (s : State) (v : Nat) : (s.msix v).mem = s.mem := by
  unfold State.msix; split <;> rfl
@[simp] theorem msix_tags (s : State) (v : Nat) : (s.msix v).tags = s.tags := by
  unfold State.msix; split <;> rfl
@[simp] theorem msix_ties (s : State) (v : Nat) : (s.msix v).ties = s.ties := by
  unfold State.msix; split <;> rfl
@[simp] theorem msix_units (s : State) (v : Nat) : (s.msix v).units = s.units := by
  unfold State.msix; split <;> rfl
@[simp] theorem msix_cores (s : State) (v : Nat) : (s.msix v).cores = s.cores := by
  unfold State.msix; split <;> rfl
@[simp] theorem msix_copies (s : State) (v : Nat) : (s.msix v).copies = s.copies := by
  unfold State.msix; split <;> rfl
@[simp] theorem msix_cams (s : State) (v : Nat) : (s.msix v).cams = s.cams := by
  unfold State.msix; split <;> rfl
@[simp] theorem msix_macs (s : State) (v : Nat) : (s.msix v).macs = s.macs := by
  unfold State.msix; split <;> rfl
@[simp] theorem msix_ethLock (s : State) (v : Nat) : (s.msix v).ethLock = s.ethLock := by
  unfold State.msix; split <;> rfl
@[simp] theorem msix_lidars (s : State) (v : Nat) : (s.msix v).lidars = s.lidars := by
  unfold State.msix; split <;> rfl
@[simp] theorem msix_mgmtQ (s : State) (v : Nat) : (s.msix v).mgmtQ = s.mgmtQ := by
  unfold State.msix; split <;> rfl
@[simp] theorem msix_ptpQ (s : State) (v : Nat) : (s.msix v).ptpQ = s.ptpQ := by
  unfold State.msix; split <;> rfl
@[simp] theorem msix_skeps (s : State) (v : Nat) : (s.msix v).skeps = s.skeps := by
  unfold State.msix; split <;> rfl
@[simp] theorem msix_dram (s : State) (v : Nat) : (s.msix v).dram = s.dram := by
  unfold State.msix; split <;> rfl
@[simp] theorem msix_disp (s : State) (v : Nat) : (s.msix v).disp = s.disp := by
  unfold State.msix; split <;> rfl
@[simp] theorem msix_ctxs (s : State) (v : Nat) : (s.msix v).ctxs = s.ctxs := by
  unfold State.msix; split <;> rfl
@[simp] theorem msix_mbox (s : State) (v : Nat) : (s.msix v).mbox = s.mbox := by
  unfold State.msix; split <;> rfl
@[simp] theorem msix_links (s : State) (v : Nat) : (s.msix v).links = s.links := by
  unfold State.msix; split <;> rfl
@[simp] theorem msix_fabric (s : State) (v : Nat) : (s.msix v).fabric = s.fabric := by
  unfold State.msix; split <;> rfl
@[simp] theorem msix_hoop (s : State) (v : Nat) : (s.msix v).hoop = s.hoop := by
  unfold State.msix; split <;> rfl
@[simp] theorem msix_evr (s : State) (v : Nat) : (s.msix v).evr = s.evr := by
  unfold State.msix; split <;> rfl
@[simp] theorem msix_tu (s : State) (v : Nat) : (s.msix v).tu = s.tu := by
  unfold State.msix; split <;> rfl
@[simp] theorem msix_power (s : State) (v : Nat) : (s.msix v).power = s.power := by
  unfold State.msix; split <;> rfl
@[simp] theorem msix_pending (s : State) (v : Nat) : (s.msix v).pending = s.pending := by
  unfold State.msix; split <;> rfl
@[simp] theorem msix_freeCtr (s : State) (v : Nat) : (s.msix v).freeCtr = s.freeCtr := by
  unfold State.msix; split <;> rfl

/-! ### Asserting ERR_OUT_N leaves every other field -/

@[simp] theorem assertErr_id (s : State) (c : Nat) (p : Bool) : (s.assertErr c p).id = s.id := by
  unfold State.assertErr; split <;> rfl
@[simp] theorem assertErr_mem (s : State) (c : Nat) (p : Bool) : (s.assertErr c p).mem = s.mem := by
  unfold State.assertErr; split <;> rfl
@[simp] theorem assertErr_tags (s : State) (c : Nat) (p : Bool) : (s.assertErr c p).tags = s.tags := by
  unfold State.assertErr; split <;> rfl
@[simp] theorem assertErr_ties (s : State) (c : Nat) (p : Bool) : (s.assertErr c p).ties = s.ties := by
  unfold State.assertErr; split <;> rfl
@[simp] theorem assertErr_units (s : State) (c : Nat) (p : Bool) : (s.assertErr c p).units = s.units := by
  unfold State.assertErr; split <;> rfl
@[simp] theorem assertErr_cores (s : State) (c : Nat) (p : Bool) : (s.assertErr c p).cores = s.cores := by
  unfold State.assertErr; split <;> rfl
@[simp] theorem assertErr_copies (s : State) (c : Nat) (p : Bool) : (s.assertErr c p).copies = s.copies := by
  unfold State.assertErr; split <;> rfl
@[simp] theorem assertErr_cams (s : State) (c : Nat) (p : Bool) : (s.assertErr c p).cams = s.cams := by
  unfold State.assertErr; split <;> rfl
@[simp] theorem assertErr_macs (s : State) (c : Nat) (p : Bool) : (s.assertErr c p).macs = s.macs := by
  unfold State.assertErr; split <;> rfl
@[simp] theorem assertErr_ethLock (s : State) (c : Nat) (p : Bool) : (s.assertErr c p).ethLock = s.ethLock := by
  unfold State.assertErr; split <;> rfl
@[simp] theorem assertErr_lidars (s : State) (c : Nat) (p : Bool) : (s.assertErr c p).lidars = s.lidars := by
  unfold State.assertErr; split <;> rfl
@[simp] theorem assertErr_mgmtQ (s : State) (c : Nat) (p : Bool) : (s.assertErr c p).mgmtQ = s.mgmtQ := by
  unfold State.assertErr; split <;> rfl
@[simp] theorem assertErr_ptpQ (s : State) (c : Nat) (p : Bool) : (s.assertErr c p).ptpQ = s.ptpQ := by
  unfold State.assertErr; split <;> rfl
@[simp] theorem assertErr_skeps (s : State) (c : Nat) (p : Bool) : (s.assertErr c p).skeps = s.skeps := by
  unfold State.assertErr; split <;> rfl
@[simp] theorem assertErr_dram (s : State) (c : Nat) (p : Bool) : (s.assertErr c p).dram = s.dram := by
  unfold State.assertErr; split <;> rfl
@[simp] theorem assertErr_disp (s : State) (c : Nat) (p : Bool) : (s.assertErr c p).disp = s.disp := by
  unfold State.assertErr; split <;> rfl
@[simp] theorem assertErr_ctxs (s : State) (c : Nat) (p : Bool) : (s.assertErr c p).ctxs = s.ctxs := by
  unfold State.assertErr; split <;> rfl
@[simp] theorem assertErr_hif (s : State) (c : Nat) (p : Bool) : (s.assertErr c p).hif = s.hif := by
  unfold State.assertErr; split <;> rfl
@[simp] theorem assertErr_mbox (s : State) (c : Nat) (p : Bool) : (s.assertErr c p).mbox = s.mbox := by
  unfold State.assertErr; split <;> rfl
@[simp] theorem assertErr_links (s : State) (c : Nat) (p : Bool) : (s.assertErr c p).links = s.links := by
  unfold State.assertErr; split <;> rfl
@[simp] theorem assertErr_fabric (s : State) (c : Nat) (p : Bool) : (s.assertErr c p).fabric = s.fabric := by
  unfold State.assertErr; split <;> rfl
@[simp] theorem assertErr_evr (s : State) (c : Nat) (p : Bool) : (s.assertErr c p).evr = s.evr := by
  unfold State.assertErr; split <;> rfl
@[simp] theorem assertErr_tu (s : State) (c : Nat) (p : Bool) : (s.assertErr c p).tu = s.tu := by
  unfold State.assertErr; split <;> rfl
@[simp] theorem assertErr_power (s : State) (c : Nat) (p : Bool) : (s.assertErr c p).power = s.power := by
  unfold State.assertErr; split <;> rfl
@[simp] theorem assertErr_pending (s : State) (c : Nat) (p : Bool) : (s.assertErr c p).pending = s.pending := by
  unfold State.assertErr; split <;> rfl
@[simp] theorem assertErr_out (s : State) (c : Nat) (p : Bool) : (s.assertErr c p).out = s.out := by
  unfold State.assertErr; split <;> rfl
@[simp] theorem assertErr_freeCtr (s : State) (c : Nat) (p : Bool) : (s.assertErr c p).freeCtr = s.freeCtr := by
  unfold State.assertErr; split <;> rfl

/-! ### Releasing ERR_OUT_N leaves every other field -/

@[simp] theorem releaseErr_id (s : State) : (s.releaseErr).id = s.id := by
  unfold State.releaseErr; split <;> rfl
@[simp] theorem releaseErr_mem (s : State) : (s.releaseErr).mem = s.mem := by
  unfold State.releaseErr; split <;> rfl
@[simp] theorem releaseErr_tags (s : State) : (s.releaseErr).tags = s.tags := by
  unfold State.releaseErr; split <;> rfl
@[simp] theorem releaseErr_ties (s : State) : (s.releaseErr).ties = s.ties := by
  unfold State.releaseErr; split <;> rfl
@[simp] theorem releaseErr_units (s : State) : (s.releaseErr).units = s.units := by
  unfold State.releaseErr; split <;> rfl
@[simp] theorem releaseErr_cores (s : State) : (s.releaseErr).cores = s.cores := by
  unfold State.releaseErr; split <;> rfl
@[simp] theorem releaseErr_copies (s : State) : (s.releaseErr).copies = s.copies := by
  unfold State.releaseErr; split <;> rfl
@[simp] theorem releaseErr_cams (s : State) : (s.releaseErr).cams = s.cams := by
  unfold State.releaseErr; split <;> rfl
@[simp] theorem releaseErr_macs (s : State) : (s.releaseErr).macs = s.macs := by
  unfold State.releaseErr; split <;> rfl
@[simp] theorem releaseErr_ethLock (s : State) : (s.releaseErr).ethLock = s.ethLock := by
  unfold State.releaseErr; split <;> rfl
@[simp] theorem releaseErr_lidars (s : State) : (s.releaseErr).lidars = s.lidars := by
  unfold State.releaseErr; split <;> rfl
@[simp] theorem releaseErr_mgmtQ (s : State) : (s.releaseErr).mgmtQ = s.mgmtQ := by
  unfold State.releaseErr; split <;> rfl
@[simp] theorem releaseErr_ptpQ (s : State) : (s.releaseErr).ptpQ = s.ptpQ := by
  unfold State.releaseErr; split <;> rfl
@[simp] theorem releaseErr_skeps (s : State) : (s.releaseErr).skeps = s.skeps := by
  unfold State.releaseErr; split <;> rfl
@[simp] theorem releaseErr_dram (s : State) : (s.releaseErr).dram = s.dram := by
  unfold State.releaseErr; split <;> rfl
@[simp] theorem releaseErr_disp (s : State) : (s.releaseErr).disp = s.disp := by
  unfold State.releaseErr; split <;> rfl
@[simp] theorem releaseErr_ctxs (s : State) : (s.releaseErr).ctxs = s.ctxs := by
  unfold State.releaseErr; split <;> rfl
@[simp] theorem releaseErr_hif (s : State) : (s.releaseErr).hif = s.hif := by
  unfold State.releaseErr; split <;> rfl
@[simp] theorem releaseErr_mbox (s : State) : (s.releaseErr).mbox = s.mbox := by
  unfold State.releaseErr; split <;> rfl
@[simp] theorem releaseErr_links (s : State) : (s.releaseErr).links = s.links := by
  unfold State.releaseErr; split <;> rfl
@[simp] theorem releaseErr_fabric (s : State) : (s.releaseErr).fabric = s.fabric := by
  unfold State.releaseErr; split <;> rfl
@[simp] theorem releaseErr_evr (s : State) : (s.releaseErr).evr = s.evr := by
  unfold State.releaseErr; split <;> rfl
@[simp] theorem releaseErr_tu (s : State) : (s.releaseErr).tu = s.tu := by
  unfold State.releaseErr; split <;> rfl
@[simp] theorem releaseErr_power (s : State) : (s.releaseErr).power = s.power := by
  unfold State.releaseErr; split <;> rfl
@[simp] theorem releaseErr_pending (s : State) : (s.releaseErr).pending = s.pending := by
  unfold State.releaseErr; split <;> rfl
@[simp] theorem releaseErr_out (s : State) : (s.releaseErr).out = s.out := by
  unfold State.releaseErr; split <;> rfl
@[simp] theorem releaseErr_freeCtr (s : State) : (s.releaseErr).freeCtr = s.freeCtr := by
  unfold State.releaseErr; split <;> rfl

end Sys2Proof.Machine
end

