-- ==== Sys2Proof/Laws/Memory.lean ====
section
/-! SUPPORT. The stores: a read after a write, every other place unchanged, and the canonical form kept by every operation
that writes memory, tags, ties or the context table. -/

namespace Sys2Proof.Machine

/-! ### One sparse store -/

section
variable {α : Type} [DecidableEq α] {d : α}

/-- Every listed index is above `k`. -/
def above (k : Nat) (m : Sparse α) : Prop := ∀ x ∈ m, k < x.1

theorem sparseWf_cons {i : Nat} {v : α} {m : Sparse α} :
    sparseWf d ((i, v) :: m) = true ↔ v ≠ d ∧ above i m ∧ sparseWf d m = true := by
  induction m generalizing i v with
  | nil => simp [sparseWf, above]
  | cons y m ih =>
    obtain ⟨j, w⟩ := y
    simp only [sparseWf, Bool.and_eq_true, decide_eq_true_eq, and_assoc]
    constructor
    · rintro ⟨hv, hij, hm⟩
      refine ⟨hv, ?_, hm⟩
      have ha := (ih.mp hm).2.1
      intro x hx
      rcases List.mem_cons.mp hx with rfl | hx
      · exact hij
      · exact Nat.lt_trans hij (ha x hx)
    · rintro ⟨hv, ha, hm⟩
      exact ⟨hv, ha _ (List.mem_cons_self ..), hm⟩

omit [DecidableEq α] in
theorem sparseGet_above {k : Nat} {m : Sparse α} (h : above k m) : sparseGet d m k = d := by
  induction m with
  | nil => rfl
  | cons x m ih =>
    have hx := h x (List.mem_cons_self ..)
    have hm : above k m := fun y hy => h y (List.mem_cons_of_mem _ hy)
    simp only [sparseGet]
    rw [if_neg (by omega), ih hm]

/-- A read of another index gives what it gave. -/
theorem sparseGet_put_ne {m : Sparse α} {j k : Nat} {v : α} (h : j ≠ k) :
    sparseGet d (sparsePut d m k v) j = sparseGet d m j := by
  have hk : k ≠ j := fun e => h e.symm
  induction m with
  | nil => simp only [sparsePut]; split <;> simp [sparseGet, hk]
  | cons x m ih =>
    obtain ⟨i, w⟩ := x
    simp only [sparsePut]
    split
    · split <;> simp [sparseGet, hk]
    · split
      · next e => subst e; split <;> simp [sparseGet, hk]
      · simp only [sparseGet, ih]

/-- A read of the index written gives the value written. -/
theorem sparseGet_put_self {m : Sparse α} {k : Nat} {v : α} (h : sparseWf d m = true) :
    sparseGet d (sparsePut d m k v) k = v := by
  induction m with
  | nil =>
    simp only [sparsePut]
    split
    · next e => simp [sparseGet, e]
    · simp [sparseGet]
  | cons x m ih =>
    obtain ⟨i, w⟩ := x
    have hc := sparseWf_cons.mp h
    simp only [sparsePut]
    split
    · next hlt =>
      split
      · next e =>
        have ha : above k ((i, w) :: m) := by
          intro y hy
          rcases List.mem_cons.mp hy with rfl | hy
          · exact hlt
          · exact Nat.lt_trans hlt (hc.2.1 y hy)
        rw [sparseGet_above ha, e]
      · simp [sparseGet]
    · split
      · next e =>
        subst e
        split
        · next e => rw [sparseGet_above hc.2.1, e]
        · simp [sparseGet]
      · next hk => simp only [sparseGet, if_neg (fun e => hk (Eq.symm e)), ih hc.2.2]

theorem sparsePut_above {m : Sparse α} {j k : Nat} {v : α} (h : above j m) (hk : j < k) :
    above j (sparsePut d m k v) := by
  induction m with
  | nil =>
    simp only [sparsePut]
    split
    · exact h
    · intro x hx; simp at hx; subst hx; exact hk
  | cons y m ih =>
    obtain ⟨i, w⟩ := y
    have hi : j < i := h (i, w) (List.mem_cons_self ..)
    have hm : above j m := fun y hy => h y (List.mem_cons_of_mem _ hy)
    simp only [sparsePut]
    split
    · split
      · exact h
      · intro x hx
        rcases List.mem_cons.mp hx with rfl | hx
        · exact hk
        · exact h x hx
    · split
      · split
        · exact hm
        · intro x hx
          rcases List.mem_cons.mp hx with rfl | hx
          · exact hk
          · exact hm x hx
      · intro x hx
        rcases List.mem_cons.mp hx with rfl | hx
        · exact hi
        · exact ih hm x hx

/-- A write keeps the canonical form. -/
theorem sparsePut_wf {m : Sparse α} {k : Nat} {v : α} (h : sparseWf d m = true) :
    sparseWf d (sparsePut d m k v) = true := by
  induction m with
  | nil =>
    simp only [sparsePut]
    split
    · rfl
    · next hv => simpa [sparseWf] using hv
  | cons x m ih =>
    obtain ⟨i, w⟩ := x
    have hc := sparseWf_cons.mp h
    simp only [sparsePut]
    split
    · next hlt =>
      split
      · exact h
      · next hv =>
        refine sparseWf_cons.mpr ⟨hv, ?_, h⟩
        intro y hy
        rcases List.mem_cons.mp hy with rfl | hy
        · exact hlt
        · exact Nat.lt_trans hlt (hc.2.1 y hy)
    · next hle =>
      split
      · next e =>
        subst e
        split
        · exact hc.2.2
        · next hv => exact sparseWf_cons.mpr ⟨hv, hc.2.1, hc.2.2⟩
      · next hk => exact sparseWf_cons.mpr ⟨hc.1, sparsePut_above hc.2.1 (by omega), ih hc.2.2⟩

/-- Dropping entries keeps the canonical form. -/
theorem sparseFilter_wf {p : Nat → Bool} {m : Sparse α} (h : sparseWf d m = true) :
    sparseWf d (sparseFilter p m) = true := by
  induction m with
  | nil => rfl
  | cons x m ih =>
    obtain ⟨i, w⟩ := x
    have hc := sparseWf_cons.mp h
    have hm := ih hc.2.2
    unfold sparseFilter at hm ⊢
    rw [List.filter_cons]
    split
    · exact sparseWf_cons.mpr ⟨hc.1, fun y hy => hc.2.1 y (List.mem_filter.mp hy).1, hm⟩
    · exact hm

end

/-! ### Memory: lines and their tags -/

theorem storesWf_iff {s : State} : s.storesWf = true ↔
    sparseWf 0#2048 s.mem = true ∧ sparseWf none s.tags = true ∧ sparseWf 0#32 s.ties = true ∧
    sparseWf Ctx.init s.ctxs = true := by
  simp only [State.storesWf, Memory.wf, Bool.and_eq_true, and_assoc]

/-- Two states with the same stores are canonical together. -/
theorem storesWf_congr {s t : State} (h : t.mem = s.mem ∧ t.tags = s.tags ∧ t.ties = s.ties ∧ t.ctxs = s.ctxs) :
    t.storesWf = s.storesWf := by
  obtain ⟨h1, h2, h3, h4⟩ := h
  simp only [State.storesWf, Memory.wf, h1, h2, h3, h4]

theorem Memory_wf_reset : Memory.wf State.reset = true := by decide

theorem Memory_wf_putLine {s : State} (k : Nat) (l : Line) (h : Memory.wf s = true) :
    Memory.wf (s.putLine k l) = true := by
  simp only [Memory.wf, Bool.and_eq_true] at h ⊢
  exact ⟨sparsePut_wf h.1, sparsePut_wf h.2⟩

theorem Memory_wf_putLineTag {s : State} (k : Nat) (l : Line) (t : Option Word) (h : Memory.wf s = true) :
    Memory.wf (s.putLineTag k l t) = true := by
  simp only [Memory.wf, Bool.and_eq_true] at h ⊢
  exact ⟨sparsePut_wf h.1, sparsePut_wf h.2⟩

theorem Memory_wf_putLines {s : State} (k : Nat) (ls : List Line) (h : Memory.wf s = true) :
    Memory.wf (s.putLines k ls) = true := by
  induction ls generalizing s k with
  | nil => exact h
  | cons l ls ih => exact ih (k + 1) (Memory_wf_putLine k l h)

theorem storesWf_putLine {s : State} (k : Nat) (l : Line) (h : s.storesWf = true) : (s.putLine k l).storesWf = true := by
  have := storesWf_iff.mp h
  exact storesWf_iff.mpr ⟨sparsePut_wf this.1, sparsePut_wf this.2.1, this.2.2⟩

theorem storesWf_putLineTag {s : State} (k : Nat) (l : Line) (t : Option Word) (h : s.storesWf = true) :
    (s.putLineTag k l t).storesWf = true := by
  have := storesWf_iff.mp h
  exact storesWf_iff.mpr ⟨sparsePut_wf this.1, sparsePut_wf this.2.1, this.2.2⟩

theorem storesWf_putLines {s : State} (k : Nat) (ls : List Line) (h : s.storesWf = true) :
    (s.putLines k ls).storesWf = true := by
  induction ls generalizing s k with
  | nil => exact h
  | cons l ls ih => exact ih (k + 1) (storesWf_putLine k l h)

/-- A read of another line gives what it gave. -/
theorem line_putLine_ne (s : State) {j k : Nat} (l : Line) (h : j ≠ k) : (s.putLine k l).line j = s.line j :=
  sparseGet_put_ne h

/-- A read of the line written gives the line written. -/
theorem line_putLine_self {s : State} (k : Nat) (l : Line) (h : s.storesWf = true) : (s.putLine k l).line k = l :=
  sparseGet_put_self (storesWf_iff.mp h).1

/-- A line just written has a tag that matches (R15). -/
theorem tagOk_putLine_self {s : State} (k : Nat) (l : Line) (h : s.storesWf = true) :
    (s.putLine k l).tagOk k = true := by
  have : (s.putLine k l).badTag k = none := sparseGet_put_self (storesWf_iff.mp h).2.1
  simp only [State.tagOk, this]

theorem tagOk_putLine_ne (s : State) {j k : Nat} (l : Line) (h : j ≠ k) : (s.putLine k l).tagOk j = s.tagOk j := by
  have h1 : (s.putLine k l).badTag j = s.badTag j := sparseGet_put_ne h
  simp only [State.tagOk, h1, line_putLine_ne s l h]

/-- A run of lines written leaves every line outside it. -/
theorem line_putLines_ne (s : State) {j k : Nat} (ls : List Line) (h : j < k ∨ k + ls.length ≤ j) :
    (s.putLines k ls).line j = s.line j := by
  induction ls generalizing s k with
  | nil => rfl
  | cons l ls ih =>
    simp only [List.length_cons] at h
    show ((s.putLine k l).putLines (k + 1) ls).line j = s.line j
    rw [ih (s.putLine k l) (by omega), line_putLine_ne s l (by omega)]

/-- A run of lines written reads back. -/
theorem line_putLines_get {s : State} (k : Nat) (ls : List Line) (i : Nat) (hi : i < ls.length) (h : s.storesWf = true) :
    (s.putLines k ls).line (k + i) = ls[i] := by
  induction ls generalizing s k i with
  | nil => simp at hi
  | cons l ls ih =>
    show ((s.putLine k l).putLines (k + 1) ls).line (k + i) = _
    cases i with
    | zero =>
      rw [line_putLines_ne _ _ (by omega)]
      exact line_putLine_self k l h
    | succ i =>
      have := ih (k := k + 1) (i := i) (by simpa using hi) (storesWf_putLine k l h)
      rw [show k + (i + 1) = k + 1 + i by omega, this]
      rfl

/-! ### Ties (R327, R329) -/

theorem storesWf_tieSet {s : State} (t : Nat) (v : Word) (h : s.storesWf = true) : (s.tieSet t v).storesWf = true := by
  have := storesWf_iff.mp h
  exact storesWf_iff.mpr ⟨this.1, this.2.1, sparsePut_wf this.2.2.1, this.2.2.2⟩

theorem storesWf_tieAdds {s : State} (m : List (Nat × Nat)) (h : s.storesWf = true) : (s.tieAdds m).storesWf = true := by
  induction m generalizing s with
  | nil => exact h
  | cons x m ih => exact ih (storesWf_tieSet _ _ h)

theorem tieVal_tieSet_self {s : State} (t : Nat) (v : Word) (h : s.storesWf = true) : (s.tieSet t v).tieVal t = v :=
  sparseGet_put_self (storesWf_iff.mp h).2.2.1

theorem tieVal_tieSet_ne (s : State) {t u : Nat} (v : Word) (h : u ≠ t) : (s.tieSet t v).tieVal u = s.tieVal u :=
  sparseGet_put_ne h

/-- What the adds of a list of signals come to for one tie (R329): the sum of its own amounts, modulo 2^32. -/
theorem tieVal_tieAdds {s : State} (m : List (Nat × Nat)) (t : Nat) (h : s.storesWf = true) :
    (s.tieAdds m).tieVal t = s.tieVal t + BitVec.ofNat 32 ((m.filter fun x => x.1 == t).map (·.2)).sum := by
  induction m generalizing s with
  | nil => simp [State.tieAdds]
  | cons x m ih =>
    obtain ⟨u, a⟩ := x
    show ((s.tieAdd u (BitVec.ofNat 32 a)).tieAdds m).tieVal t = _
    have hw : (s.tieAdd u (BitVec.ofNat 32 a)).storesWf = true := storesWf_tieSet _ _ h
    rw [ih hw]
    unfold State.tieAdd
    by_cases e : u = t
    · subst e
      rw [tieVal_tieSet_self _ _ h]
      simp [BitVec.ofNat_add, BitVec.add_assoc]
    · rw [tieVal_tieSet_ne s _ (fun e' => e e'.symm)]
      simp [e]

/-! ### The context table -/

theorem storesWf_setCtx {s : State} (c : Nat) (x : Ctx) (h : s.storesWf = true) : (s.setCtx c x).storesWf = true := by
  have := storesWf_iff.mp h
  exact storesWf_iff.mpr ⟨this.1, this.2.1, this.2.2.1, sparsePut_wf this.2.2.2⟩

theorem ctx_setCtx_self {s : State} (c : Nat) (x : Ctx) (h : s.storesWf = true) : (s.setCtx c x).ctx c = x :=
  sparseGet_put_self (storesWf_iff.mp h).2.2.2

theorem ctx_setCtx_ne (s : State) {b c : Nat} (x : Ctx) (h : b ≠ c) : (s.setCtx c x).ctx b = s.ctx b :=
  sparseGet_put_ne h

/-! ### Reset -/

theorem storesWf_reset : State.reset.storesWf = true := by decide

end Sys2Proof.Machine
end

