-- ==== Sys2Proof/Laws/Operations.lean ====
section
/-! SUPPORT. One law for each shared operation: everything that it can do. -/

namespace Sys2Proof.Machine

/-! ### A step -/

/-- A step runs the front command on the queue's rest. -/
theorem step_cons {s : State} {c : Instr} {rest : List Instr} (h : s.pending = c :: rest) :
    step s = exec c { s with pending := rest } := by simp only [step, h]

/-- A step on an empty queue is one tick of TCLK, while it runs. -/
theorem step_nil {s : State} (h : s.pending = []) : step s = .next (idleTick s) := by simp only [step, h]

/-! ### Events (R478, R479, R484) -/

/-- A recorder that takes events queues one, numbered by its source. -/
theorem event_taken {s : State} {k : EventKind} {d : List Byte}
    (h : (s.evr.stopped || decide (s.evr.queue.length ≥ 256)) = false) :
    (s.event k d).evr = { s.evr with
      seqs := sparsePut 0#32 s.evr.seqs k.source (sparseGet 0#32 s.evr.seqs k.source + 1#32)
      queue := s.evr.queue ++ [{ source := k.source, code := k.code, seq := sparseGet 0#32 s.evr.seqs k.source,
                                 time := s.nowWord, data := BitVec.ofNat 192 (natOfBytes (d.take 24)) }] } := by
  simp only [State.event, h, Bool.false_eq_true, if_false]

/-- A full queue, or a recorder that has stopped, counts the event as dropped. -/
theorem event_dropped {s : State} {k : EventKind} {d : List Byte}
    (h : (s.evr.stopped || decide (s.evr.queue.length ≥ 256)) = true) :
    (s.event k d).evr = { s.evr with
      seqs := sparsePut 0#32 s.evr.seqs k.source (sparseGet 0#32 s.evr.seqs k.source + 1#32)
      drop := if s.evr.drop = 0xFFFFFFFF#32 then s.evr.drop else s.evr.drop + 1#32 } := by
  simp only [State.event, h, if_true]

/-- An event never drops what the queue holds. -/
theorem event_queue (s : State) (k : EventKind) (d : List Byte) :
    ∃ es, (s.event k d).evr.queue = s.evr.queue ++ es ∧ es.length ≤ 1 := by
  cases h : (s.evr.stopped || decide (s.evr.queue.length ≥ 256)) with
  | false => exact ⟨_, by rw [event_taken h], by simp⟩
  | true => exact ⟨[], by rw [event_dropped h]; simp, by simp⟩

/-! ### The host interface -/

/-- An interrupt message leaves the chip, or turns pending when its vector is masked (R372). -/
theorem msix_cases (s : State) (v : Nat) :
    (s.hif.msixMask.getLsbD v = true ∧
      s.msix v = { s with hif := { s.hif with msixPend := s.hif.msixPend ||| (1#64 <<< v) } }) ∨
    (s.hif.msixMask.getLsbD v = false ∧ s.msix v = { s with out := s.out ++ [.msix v] }) := by
  cases h : s.hif.msixMask.getLsbD v with
  | true => exact .inl ⟨rfl, by simp only [State.msix, h, if_true]⟩
  | false => exact .inr ⟨rfl, by simp only [State.msix, h, Bool.false_eq_true, if_false]; rfl⟩

/-- A sticky bit of HIF_STATUS that is set stays, and raises nothing again (R360). -/
theorem hifSticky_set {s : State} {b : Nat} (h : s.hif.sticky.getLsbD b = true) : s.hifSticky b = s := by
  simp only [State.hifSticky, h, if_true]

/-- A packet with its own opcode that passes every check is acted on, and the answer follows (R364, R367). -/
theorem servePacket_acts {s : State} {ring op : Nat} {r : Ring} {p : Packet} {act : Packet → State → Acted}
    (hr : s.ringOf ring = some r) (hh : r.sqHost = true) (hm : s.mayRead ring r = true) (ht : s.ringTurn ring = true) (ho : pktOp p = op)
    (hd : (pktParams op).isSome = true)
    (hc : packetCheck (s.takePacket ring r) ring r.h p = none)
    (hs : (s.takePacket ring r).serviceStatus = none) :
    servePacket ring op p act s =
      match act p (s.takePacket ring r) with
      | (t, some st) => t.answer ring st.code (if ring = 0 then pktCtx p else ring) (pktSeq p)
          (if pktOp p = 0x23 then bytesNat p 8 4 else 0) (pktNoirq p)
      | (t, none) => t := by
  have hk : s.ringPacket r p = (p, true) := by simp only [State.ringPacket, hh, if_true]
  have hn : (pktParams (pktOp p)).isNone = false := by rw [ho]; revert hd; cases pktParams op <;> simp
  have hn' : (pktParams op).isNone = false := ho ▸ hn
  unfold servePacket
  rw [hr]
  simp only [hk, hm, ht, ho, hn', hs, hc, Bool.not_true, Bool.or_self, Bool.false_eq_true, if_false, beq_self_eq_true,
    Option.isSome_none, and_false] <;>
  rcases act p (s.takePacket ring r) with ⟨t, _ | st⟩ <;> rfl

/-- A ring that Protil may not read stays as it is (R364, R369). -/
theorem servePacket_waits {s : State} {ring op : Nat} {p : Packet} {act : Packet → State → Acted}
    (h : ∀ r, s.ringOf ring = some r → s.mayRead ring r = false) : servePacket ring op p act s = s := by
  unfold servePacket
  cases hr : s.ringOf ring with
  | none => rfl
  | some r => simp only [h r hr, Bool.not_false, Bool.true_or, if_true]

/-! ### Tensor cores -/

/-- An issue whose own part gives a run without fault: that run after the sequencer's step, and nothing else (R109). -/
theorem coreIssue_ok {s y : State} {n : Fin 16} {ups : List Upset} {op t : Nat} {p : Placed} {w : TcWord} {r r' : CoreRun}
    {f : Header → TcWord → Nat → CoreRun → Issued} (h : Claims.Issues s n op p w t y r) (hf : f p.hdr w t r = .ok r')
    (hq : firstFault r' = none) : coreIssue op n ups s f = Claims.withRun y n (afterIssue t r') := by
  have h1 := h.worked
  have h2 : firstFault (afterIssue t r') = none := hq
  simp only [coreIssue, h.running, h.word, h.cycle, h1, h.started, h.notEnded, h.opcode, h.quiet, hf, h2]
  simp [Claims.withRun]

/-- A core without the row's instruction next stays as it is. -/
theorem coreIssue_idle {s : State} {n : Fin 16} {ups : List Upset} {op : Nat} {f : Header → TcWord → Nat → CoreRun → Issued}
    (h : ∀ p w, (s.unit (.tc n)).run = some p → p.prog[(s.core n).run.pc]? = some w → tcOpcode w ≠ op) :
    coreIssue op n ups s f = s := by
  unfold coreIssue
  split
  · rfl
  · next p hp =>
    dsimp only
    split
    · rfl
    · split
      · rfl
      · next w hw => rw [if_pos (h p w hp hw)]

/-! ### Engines -/

theorem working_running {s : State} {u : UnitId} {p : Placed} (h : s.working u = some p) :
    (s.unit u).run = some p ∧ p.stage = .running ∧ p.fin = none := by
  unfold State.working at h
  split at h
  · next q hq =>
    split at h
    · next hc =>
      simp only [Option.some.injEq] at h
      subst h
      simp only [Bool.and_eq_true, decide_eq_true_eq, Option.isNone_iff_eq_none] at hc
      exact ⟨hq, hc.1.1, hc.1.2⟩
    · cases h
  · cases h

/-- Ending a unit's work leaves the result on it, and every other field as it was. -/
theorem finish_run {s : State} {u : UnitId} {p : Placed} (e : RunEnd) (h : (s.unit u).run = some p) :
    ((s.finish u e).unit u).run = some { p with fin := some e } := by
  simp only [State.finish, State.modRun, State.modUnit, unit_setUnit_self, h, Option.map_some]

theorem finish_frame (s : State) (u : UnitId) (e : RunEnd) :
    s.finish u e = { s with units := (s.finish u e).units } := rfl

/-! ### Links -/

/-- A link row on a flit of another type does nothing. -/
theorem linkRow_other {l : Fin 6} {f : Flit} {typ : Byte} {act : State → State} {s : State} (h : f.typ ≠ typ) :
    linkRow l f typ act s = .next s := by simp only [linkRow, h, ne_eq, not_false_eq_true, if_true]

/-- On a link that is not ACTIVE the link layer accepts nothing (R392). -/
theorem linkRx_inactive {l : Fin 6} {f : Flit} {s : State} (h : (s.link l).active = false) : linkRx l f s = (s, false) := by
  simp only [linkRx, h, Bool.not_false, if_true]

end Sys2Proof.Machine
end

