-- ==== Sys2Proof/Laws/Tables.lean ====
section
/-! SUPPORT. Laws of the check of the triplicated tables (R434, R435). -/

namespace Sys2Proof.Machine

/-- A copy as it is written passes its CRC. -/
@[simp] theorem copyPasses_writeCopy (t : Fin 3) (v : BitVec 1024) : copyPasses t (writeCopy t v) = true := by
  simp [copyPasses, writeCopy]

@[simp] theorem writeCopy_val (t : Fin 3) (v : BitVec 1024) : (writeCopy t v).val = v := rfl

/-- Three copies written alike are whole. -/
theorem checkTable_whole (s : State) (t : Fin 3) (v : BitVec 1024)
    (h : s.hoop.tables[t] = #v[writeCopy t v, writeCopy t v, writeCopy t v]) : s.checkTable t = .whole := by
  simp [State.checkTable, h]

/-- The first copy of a table, as it is written, is the one that passes first. -/
theorem passing_first (s : State) (t : Fin 3) (v : BitVec 1024) (a b : TableCopy)
    (h : s.hoop.tables[t] = #v[writeCopy t v, a, b]) : s.passing t = some v := by
  simp [State.passing, h]

/-- Two copies that pass and differ are divergent. -/
theorem checkTable_divergent (s : State) (t : Fin 3) (v w : BitVec 1024) (hv : v ≠ w)
    (h : s.hoop.tables[t] = #v[writeCopy t w, writeCopy t v, writeCopy t v]) : s.checkTable t = .divergent := by
  simp [State.checkTable, h, hv]

end Sys2Proof.Machine
end

