-- ==== Sys2Proof/Laws/Writes.lean ====
section
/-! SUPPORT. Laws of the lines that a running engine or mover command writes: noting what a line held, writing it, and taking
the write back (R207, R317, R321, R451). -/

namespace Sys2Proof.Machine

/-- Noting a write changes nothing but the note of the unit. -/
theorem noteWrite_frame (s : State) (u : UnitId) (i : Nat) (c : Option Nat) (k : Nat) (t : Option (Option Nat)) :
    s.noteWrite u i c k t = { s with units := (s.noteWrite u i c k t).units } := rfl

/-- The note says what the line held, with its tag where that was bad. -/
theorem noteWrite_undo (s : State) (u : UnitId) (i : Nat) (c : Option Nat) (k : Nat) (t : Option (Option Nat)) :
    ((s.noteWrite u i c k t).unit u).undo = (s.unit u).undo ++ [⟨i, c, k, s.line k, s.badTag k, t⟩] := by
  simp only [State.noteWrite, State.modUnit, unit_setUnit_self]

@[simp] theorem noteWrite_line (s : State) (u : UnitId) (i : Nat) (c : Option Nat) (k j : Nat) (t : Option (Option Nat)) :
    (s.noteWrite u i c k t).line j = s.line j := rfl

@[simp] theorem noteWrite_badTag (s : State) (u : UnitId) (i : Nat) (c : Option Nat) (k j : Nat) (t : Option (Option Nat)) :
    (s.noteWrite u i c k t).badTag j = s.badTag j := rfl

theorem storesWf_noteWrite {s : State} (u : UnitId) (i : Nat) (c : Option Nat) (k : Nat) (t : Option (Option Nat))
    (h : s.storesWf = true) : (s.noteWrite u i c k t).storesWf = true := h

theorem storesWf_putNoted {s : State} (u : UnitId) (ls : List (Nat × Line)) (h : s.storesWf = true) :
    (s.putNoted u ls).storesWf = true := by
  unfold State.putNoted
  generalize ls.zipIdx (s.unit u).undo.length = xs
  induction xs generalizing s with
  | nil => exact h
  | cons x xs ih => exact ih (storesWf_putLine _ _ (storesWf_noteWrite u x.2 none x.1.1 none h))

/-- A run of noted writes leaves every line that it does not name. -/
theorem line_putNoted_ne (s : State) (u : UnitId) {ls : List (Nat × Line)} {j : Nat} (h : ∀ x ∈ ls, x.1 ≠ j) :
    (s.putNoted u ls).line j = s.line j := by
  have hx : ∀ x ∈ ls.zipIdx (s.unit u).undo.length, x.1.1 ≠ j := fun x hx => h x.1 (List.fst_mem_of_mem_zipIdx hx)
  clear h
  unfold State.putNoted
  revert hx
  generalize ls.zipIdx (s.unit u).undo.length = xs
  intro hx
  induction xs generalizing s with
  | nil => rfl
  | cons x xs ih =>
    rw [List.foldl_cons, ih _ fun y hy => hx y (.tail _ hy), line_putLine_ne _ _ fun e => hx x (.head _) e.symm,
      noteWrite_line]

/-- What lines held, put back in order. -/
theorem storesWf_putBack {s : State} (ws : List Undo) (h : s.storesWf = true) :
    (ws.foldl (fun (s : State) w => s.putLineTag w.key w.old w.tag) s).storesWf = true := by
  induction ws generalizing s with
  | nil => exact h
  | cons w ws ih => exact ih (storesWf_putLineTag _ _ _ h)

theorem line_putBack_ne (s : State) {ws : List Undo} {j : Nat} (h : ∀ w ∈ ws, w.key ≠ j) :
    (ws.foldl (fun (s : State) w => s.putLineTag w.key w.old w.tag) s).line j = s.line j := by
  induction ws generalizing s with
  | nil => rfl
  | cons w ws ih =>
    rw [List.foldl_cons, ih _ fun y hy => h y (.tail _ hy)]
    exact sparseGet_put_ne fun e => h w (.head _) e.symm

/-- Taking writes back keeps the stores canonical. -/
theorem storesWf_unwrite {s : State} (u : UnitId) (cut : Undo → Bool) (h : s.storesWf = true) :
    (s.unwrite u cut).storesWf = true := storesWf_putBack (s := s) ((s.unit u).undo.filter cut).reverse h

/-- Taking writes back touches no line but those of the notes that it cuts. -/
theorem line_unwrite_ne (s : State) (u : UnitId) {cut : Undo → Bool} {j : Nat}
    (h : ∀ w ∈ (s.unit u).undo, cut w = true → w.key ≠ j) : (s.unwrite u cut).line j = s.line j :=
  line_putBack_ne (ws := ((s.unit u).undo.filter cut).reverse) s fun w hw => by
    rw [List.mem_reverse, List.mem_filter] at hw
    exact h w hw.1 hw.2

/-- What is not cut stays noted. -/
theorem unwrite_undo (s : State) (u : UnitId) (cut : Undo → Bool) :
    ((s.unwrite u cut).unit u).undo = (s.unit u).undo.filter fun w => !cut w := by
  simp only [State.unwrite, State.modUnit, unit_setUnit_self]

/-! ### Reads before or after another unit's write (R300) -/

/-- A command that reads every line as it stands does its work on the memory as it is. -/
@[simp] theorem asRead_nil (s : State) (u : UnitId) (work : State → Result) : s.asRead u [] work = work s := rfl

/-- Where no other unit has written a line, reading it early finds what it holds. -/
theorem earlier_none {s : State} {u : UnitId} {k : Nat}
    (h : ∀ v ≠ u, ∀ w ∈ (s.unit v).undo, w.key ≠ k) : s.earlier (some u) k = (s.line k, s.badTag k) := by
  have e : ((allUnits.filter fun v => some v != some u).flatMap fun v => (s.unit v).undo).find? (·.key == k) = none := by
    rw [List.find?_eq_none]
    intro w hw
    obtain ⟨v, hv, hw⟩ := List.mem_flatMap.1 hw
    simpa using h v (by simpa using (List.mem_filter.1 hv).2) w hw
  simp only [State.earlier, e]

end Sys2Proof.Machine
end

