-- ==== Sys2Proof/Tests/Slice0.lean ====
section
/-! SUPPORT. The model's own tests: ill-formed commands refused, worked examples of the manual, and for every clause of
the obligations that has hypotheses a theorem that a concrete state and operands meet them together. -/

open Sys2Proof Sys2Proof.Machine Sys2Proof.Claims

namespace Sys2Proof.Tests

set_option Elab.async false

/-! ### Ill-formed commands are refused: one for each check of `Instr.wf` -/


theorem test_wf_array_row : (Instr.loadw 0 [.array 65535 0 1]).wf = false := by decide
theorem test_wf_array_column : (Instr.conv 0 [.array 0 130 1]).wf = false := by decide
theorem test_wf_feed_row : (Instr.pass 0 [.feed 65535]).wf = false := by decide
theorem test_wf_special_column : (Instr.lbf 0 [.special 0 128]).wf = false := by decide
theorem test_wf_adder_column : (Instr.drain 0 [.adder 0 128]).wf = false := by decide
theorem test_wf_residue_row : (Instr.setd 0 [.residue 32 0 0]).wf = false := by decide
theorem test_wf_residue_bit : (Instr.setd 0 [.residue 0 0 32]).wf = false := by decide
theorem test_wf_weight_rows : (Instr.loadw 0 [.weightFeed 128]).wf = false ∧ (Instr.pass 0 [.weightPrep 128]).wf = false := by
  decide
theorem test_wf_line_buffer : (Instr.conv 0 [.lineBuffer 65535]).wf = false := by decide
theorem test_wf_tag_race : (Instr.copy 0 [.tagRace 0x10000000]).wf = false := by decide
theorem test_wf_early_line : (Instr.copy 0 [.early 524288]).wf = false := by decide
theorem test_wf_late_line : (Instr.copy 0 [.late 524288 0 none]).wf = false := by decide
theorem test_wf_bar2_orders : (Instr.bar2Read 0 [.early 524288]).wf = false := by decide
theorem test_wf_extra_cycles : (Instr.append 0 [.vector 0, .store, .extraCycles 0]).wf = false := by decide
theorem test_wf_engine_upsets : (Instr.copy 0 [.overrun, .buffer 3, .extraCycles 0]).wf = false := by decide
theorem test_wf_receive_phase : (Instr.ethernetFrameReceive 0 [] 80 false).wf = false := by decide
theorem test_wf_transmit_phase : (Instr.ethernetFrameTransmit 0 [] 80).wf = false := by decide
theorem test_wf_beacon_phase : (Instr.beacon 0 (mkFlit tIdle 0 0 0#32 []) 80).wf = false := by decide
theorem test_wf_delay_request_phase : (Instr.delayReq 0 (mkFlit tIdle 0 0 0#32 []) 80).wf = false := by decide
theorem test_wf_delay_response_phase : (Instr.delayResp 0 (mkFlit tIdle 0 0 0#32 []) 80).wf = false := by decide
theorem test_wf_pps_phase : (Instr.ppsIn 80).wf = false := by decide
theorem test_wf_tables : (SlotTables.mk [] [] [] []).wf = false := by decide
theorem test_wf_master_low : (Instr.adminEnable 0#8 0#32).wf = false := by decide
theorem test_wf_master_debug : (Instr.registerWrite 4#8 0#24 0#32).wf = false := by decide
theorem test_wf_master_high : (Instr.hoopKick 0x18#8 0x5A#32).wf = false := by decide
theorem test_wf_masters_mailbox : (Instr.mbRing 0#8 0 0#32).wf = false ∧ (Instr.mbAck 0x18#8 0 0#32).wf = false := by
  decide
theorem test_wf_masters_ties : (Instr.tieOpAdd 0#8 0 1#31).wf = false ∧ (Instr.tieOpSet 0x18#8 0 1#31).wf = false := by
  decide
theorem test_wf_master_write : (Instr.registerWrite 0#8 0#24 0#32).wf = false := by decide
theorem test_wf_masters_link : (Instr.retrain 0#8 0 1#32).wf = false ∧ (Instr.linkEnable 0x18#8 0 1#32).wf = false := by
  decide
theorem test_wf_master_power : (Instr.pwrCtrlReq 0#8 1#32).wf = false := by decide
theorem test_wf_masters_time :
    (Instr.tuCtrlStep 0#8 1#32).wf = false ∧ (Instr.tuIncNs 0#8 1#32).wf = false ∧
    (Instr.tuIncFrac 0#8 1#32).wf = false ∧ (Instr.tuNowFrac 0#8).wf = false := by decide
theorem test_wf_master_window : (Instr.evrWindowRead 0#8 0#15).wf = false := by decide
theorem test_wf_bar2_line : (Instr.bar2Write 524288 0 [0#8]).wf = false ∧ (Instr.bar2Read 524288 []).wf = false := by decide
theorem test_wf_bar2_bytes : (Instr.bar2Write 0 255 [0#8, 0#8]).wf = false ∧ (Instr.bar2Write 0 0 []).wf = false := by
  decide
theorem test_wf_temperatures : (Instr.temperatureRead [100]).wf = false := by decide
theorem test_wf_droop : (Instr.droopEnd 750000 63).wf = false := by decide
theorem test_wf_record : (Instr.eventRecord 0).wf = false ∧ (Instr.eventRecord 65).wf = false := by decide
theorem test_wf_pcie : (Instr.pcieLinkUp 3 1).wf = false ∧ (Instr.pcieLinkUp 4 6).wf = false := by decide

/-! ### Worked examples of the manual -/

/-- The value of an integer. -/
def whole (n : Int) : Fp := Fp.ofInt n

/-- The digests of "abc" in FIPS 180-4's examples. -/
theorem test_sha : sha256 3 0x616263 = 0xba7816bf8f01cfea414140de5dae2223b00361a396177a9cb410ff61f20015ad ∧
    sha384 3 0x616263 = 0xcb00753f45a35e8bb5a03d699ac65007272c32ab0eded1631a8b605a43ff5bed8086072ba1e7cc2358baeca134c825a7 := by
  decide +kernel

-- "Formats": 300, 304, 500 and 70,000 in E4M3 and E5M2.
theorem test_fp8_tie : fpEncode .e4m3 (whole 304) = 0x7A ∧ fpEncode .e4m3 (whole 300) = 0x79 ∧
    fpEncode .e5m2 (whole 300) = 0x5D := by decide +kernel
theorem test_fp8_range : fpEncode .e4m3 (whole 500) = 0x7E ∧ fpEncode .e5m2 (whole 500) = 0x60 ∧
    fpEncode .e4m3 (whole 70000) = 0x7E ∧ fpEncode .e5m2 (whole 70000) = 0x7C := by decide +kernel
-- "The tensor core's array": the scaled subsums of one column, 1,450 in all.
/-- A column whose first element of each group of 32 is 1, and the activations that meet them. -/
def scaledRow : ActRow :=
  { a := [1000] ++ List.replicate 31 0 ++ [-2000] ++ List.replicate 31 0 ++ [300] ++ List.replicate 31 0 ++ [4000]
    inc := List.replicate 97 true, codes := [0x38, 0x38, 0x38, 0x38], s2 := 0x3F800000#32 }
@[inherit_doc scaledRow] def scaledTile : Tile :=
  mkTile 0 0 true 97 [[1] ++ List.replicate 31 0 ++ [1] ++ List.replicate 31 0 ++ [1] ++ List.replicate 31 0 ++ [1]]
    [[0x38, 0x30, 0x3C, 0x28]] [0x3F800000#32]
theorem test_scaled_total : colSum 0 true scaledTile 0 (rowFix 0 0 true scaledRow) scaledRow = 1450 * 2 ^ 40 := by
  decide +kernel
-- R60 and R61: requantisation to INT8 and table indexes.
theorem test_requant : requantNormal 45678 1234567890 40 0 (-127) 127 = 51 ∧
    requantNormal 200000 1234567890 40 0 (-127) 127 = 127 ∧
    requantNormal 40 1 4 0 (-127) 127 = 3 ∧ requantNormal (-40) 1 4 0 (-127) 127 = -2 := by decide +kernel
theorem test_table_index : tableIndex 1000 3 (-2048) = 2173 ∧ tableIndex 1016 3 (-2048) = 2175 ∧
    tableIndex (-40000) 3 (-2048) = 0 ∧ tableIndex 20000 3 (-2048) = 4095 := by decide +kernel
-- R94: INT8 from 32.5 and −32.5, ties toward +∞.
theorem test_narrow : narrowElem .int8 0x42020000#32 = 33 ∧ narrowElem .int8 0xC2020000#32 = wrapNat 8 (-32) := by
  decide +kernel
-- "Example: quantising one key vector".
theorem test_kv_int8 : kvQuant false true true (.fin false 1 (-7))
      [.fin false 99 (-5), whole (-1), .fin false 13 (-10), .fin true 13 (-10)] =
    { code := 0x45, elems := [122, wrapNat 8 (-39), 1, 0], esc := none, sat := false, nonfinite := false } := by
  decide +kernel
theorem test_kv_int4 : kvQuant true true true (.fin false 1 (-7)) [.fin false 99 (-5), whole (-1)] =
    { code := 0x5A, elems := [8, wrapNat 4 (-6)], esc := some (0, 20), sat := false, nonfinite := false } := by
  decide +kernel
-- "Example: one deformable-attention group".
theorem test_sample_occupancy : sampleOcc ⟨0, 4, 0, 16, 0, 0, 10000, 0⟩
    [⟨0, 160, 96, 0#32⟩, ⟨0, 80, 48, 0#32⟩, ⟨0, 40, 24, 0#32⟩, ⟨0, 20, 12, 0#32⟩] = 180456 := by decide +kernel
theorem test_sample_weights :
    (sampleCorners 1 160 96 0x4124CCCD#32 0x40B80000#32).map (·.2) = [11456, 4928, 34368, 14784] := by decide +kernel
-- "Example: a pillar sweep".
/-- The sweep record of the example: NX, NY, NZ, PMAX, VMAX. -/
def pillars : Line := BitVec.ofNat 2048 (512 * 2 ^ 32 + 512 * 2 ^ 48 + 2 ^ 64 + 32 * 2 ^ 80 + 16384 * 2 ^ 96)
theorem test_scatter_occupancy :
    scatterOcc (BitVec.ofNat 1024 (2 ^ 104 + 16384 * 2 ^ 288)) pillars = 574528 := by decide +kernel
-- "Example: rotated suppression of vehicle boxes".
theorem test_waling_occupancy : walOcc ⟨3, 0, false, 1000, 0, 20000, 0, 0, 0#32, 500⟩ = 83729 := by decide +kernel
/-- A box of half length 2 and half width 1 at the origin, heading by its cosine and sine. -/
def box (c s : Nat) : Cand :=
  ⟨0, .nan, 0, BitVec.ofNat 256 (0x40000000 * 2 ^ 128 + 0x3F800000 * 2 ^ 160 + c * 2 ^ 192 + s * 2 ^ 224)⟩
theorem test_boxes_cross : coveredBev 0x3E99999A#32 (box 0x3F800000 0) (box 0 0x3F800000) = true ∧
    coveredBev 0x3F000000#32 (box 0x3F800000 0) (box 0 0x3F800000) = false := by decide +kernel
-- "Example: one red pixel".
/-- The descriptor of the example; `fp8` for the FP8 output. -/
def redPixel (nm ns : Nat) : Line :=
  BitVec.ofNat 2048 (256 * 2 ^ 192 + 7168 * 2 ^ 256 + 31000 * 2 ^ 576 + nm * 2 ^ 672 + ns * 2 ^ 768)
theorem test_white_balance : whiteBalance (redPixel 18000 20) 1100 0 0 = 1477 := by decide +kernel
theorem test_normalise : normalise (redPixel 18000 20) ⟨[1477], false⟩ 0 = BitVec.ofInt 8 (-126) := by decide +kernel
theorem test_pyramid : ((nextLevel true 2 1 1 #[⟨[1000, 0, 0], false⟩, ⟨[1200, 0, 0], false⟩, ⟨[1400, 0, 0], false⟩,
    ⟨[1600, 0, 0], false⟩]).getD 0 ⟨[], false⟩).c.getD 0 0 = 1200 := by decide +kernel
-- R276: one constant coefficient.
theorem test_transform : idct 8 (Array.ofFn fun (i : Fin 64) => if i.val = 0 then 80 else 0) = Array.replicate 64 138 := by
  decide +kernel
-- R419: an error in column 1 alone is located there.
theorem test_rim : rimVerdict 128 (rimD 64 [5, 8 + 7, 9] (5 + 7 + 9) (5 + 2 * 7 + 3 * 9)) = some (some 1) := by decide +kernel
-- R147: one line per cycle, a stall per assembled count line.
theorem test_compare_count : (cmpReads 512 64 600 100 0 []).1.getLastD 0 = 618 := by decide +kernel
-- "Example: a copy's slots": 225 lines.
theorem test_slots : dataFlits 225 = 240 ∧ slotsOf 225 = 243 ∧ slotSpan 243 = 2171 := by decide +kernel
-- R323's example: BASE 12, STEP 12, frame 9.
theorem test_wait_threshold : waitThreshold (BitVec.ofNat 64 (12 * 2 ^ 32 + 12 * 2 ^ 48)) 9 = 120#32 := by decide +kernel
-- The check values of the four polynomials over the digits 1 to 9.
/-- The digits 1 to 9. -/
def digits : List Byte := (List.range 9).map fun i => BitVec.ofNat 8 (0x31 + i)
theorem test_crc : crc32c digits = 0xE3069283 ∧ crc32 digits = 0xCBF43926 ∧ crc64 digits = 0x6C40DF5F0B497347 ∧
    crc8 digits = 0xDF := by decide +kernel
-- "Example: one voxel grid" in the pillar sweep: Cartesian, 1,920 slots of 240 points.
theorem test_voxel_occupancy :
    voxelOcc (BitVec.ofNat 1024 (1920 * 2 ^ 112)) (BitVec.ofNat 2048 (1 + 240 * 2 ^ 32)) pillars = 613184 := by
  decide +kernel
-- R470's example: the tick that carries into the next second, and a stamp 37 phase steps later.
/-- The counter of the example before the tick. -/
def counter : TimeUnit :=
  { TimeUnit.init with sec := 1700000000#48, ns := 999999998, frac := 0x40000000#32, ppsEn := true }
theorem test_tick : counter.tick.sec = 1700000001#48 ∧ counter.tick.ns = 0 ∧ counter.tick.frac = 0xC0000000#32 ∧
    counter.tick.ppsHigh = true := by decide +kernel
theorem test_stamp : let t := ({ State.reset with tu := counter.tick }).stamp 37
    t.ns = 1 ∧ t.frac = 0xE8000000 := by decide +kernel
-- R3's example: an M16-B.
theorem test_device_id : ({ State.reset with id := { State.reset.id with grade := 2 } }).devId = 0x4D162120 := by
  decide +kernel
-- Nothing of the opcode table gives a command bits.
theorem test_table_word : decodeTableWord 0 0 = none ∧ (State.reset.withFetchWord 32 5).pending = [] := by decide +kernel
-- A step runs the command at the front, then nothing is left.
theorem test_step : (match step { State.reset with pending := [.errOutMinHold] } with
    | .next s => s.pending.isEmpty
    | _ => false) = true := by decide +kernel

/-! ### States to start from -/

/-- The machine in operation: booted, out of reset, at its first instant. -/
def up : State :=
  { State.reset with
    power := { PowerState.init with phase := .up }
    hoop := { HoopState.init with startupDone := true, minHold := false, errOut := false, cause := 0x1F }
    evr := { Recorder.init with run := true, cap := 100 } }

/-- A command of context 1 on a unit. -/
def placed (h : Header) : Placed :=
  { ctx := 1, frame := 0, origin := .queue false 0 0, hdr := h, prog := [], stage := .running, windows := [], fin := none,
    slowed := false, begun := false, posted := false, recvDone := false, sendBegun := false, sendDone := false, ups := [] }

/-- `s` with a command on unit `u`. -/
def running (s : State) (u : UnitId) (p : Placed) : State := s.setUnit u { s.unit u with run := some p }

/-- A header from its fields: place in bits and value. -/
def hdrOf (fs : List (Nat × Nat)) : Header := BitVec.ofNat 1024 (fs.map fun f => f.2 * 2 ^ f.1).sum

/-- A graph image with one queue. -/
def image (q : List Cmd) : GraphImage :=
  { signedOk := true, readError := false, arithRev := 0, minCreel := 12, ncore := 1, graphId := 7#32, queues := [q],
    checkpoints := [(1, 1)], fallback := some ⟨8#32, [[]], [[0]], [], [], []⟩, recon := [⟨1024, 5#32, 0#32⟩], restart := [],
    refetch := [], peers := [], job := [0, 1], outputs := [], pbase := 0, nprec := 0, originSet := 0#32, prelude := [],
    preludeNs := 0, progSection := [], plan := ⟨[], []⟩, tables := none, cameras := [], lidars := [], replays := [] }

theorem test_wf_region_list : ({ image [] with roi := [[0#2048]] } : GraphImage).wf = false := by decide

/-- A current frame at its beginning. -/
def frameRun : FrameRun :=
  { req := none, begunNs := 0, heads := [0], fbHeads := [0], originKnown := true, reached := [], switched := false,
    firstPlaced := false, stallLogged := false, missLogged := false, fallback := false, unverified := false,
    rimFlagged := false, configFault := false, aborted := false, logical := [0], released := none, outTags := [] }

/-- A ring pair in host memory with one packet unread. -/
def ring : Ring :=
  { sqHost := true, sqAddr := 0x10000, rqHost := true, rqAddr := 0x20000, sqLog2 := 4, rqLog2 := 4, vector := 0, h := 0#32,
    tail := 1#32, rqHead := 0#32, r := 0#32, waiting := [] }

/-- A context in state RUN. -/
def ctxRun (q : List Cmd) : Ctx :=
  { Ctx.init with
    state := .run, fbId := 8#32, tieBase := 1024, tieCount := 64, coreMask := 1#16, ncore := 1, nq := 1, img := some (image q)
    ring := some ring, run := some frameRun }

/-- The machine in operation with an entry for context 1. -/
def withCtx (x : Ctx) : State := { up with ctxs := [(1, x)] }

/-- A pair whose second part is known. -/
theorem pair_eq {α β : Type} {x : α × β} {b : β} (h : x.2 = b) : x = (x.1, b) := by
  subst h
  rfl

/-- A command at a stage. -/
def staged (st : Stage) (h : Header) (q : List TcWord) : Placed := { placed h with stage := st, prog := q }

/-- The machine in operation with hamper lines that hold something. -/
def withLines (ls : List (Nat × Line)) : State := { up with mem := ls.map fun x => (hamKey x.1, x.2) }

/-- A line from its fields: byte and value. -/
def lineFields (fs : List (Nat × Nat)) : Line := BitVec.ofNat 2048 (fs.map fun f => f.2 * 2 ^ (8 * f.1)).sum

/-- A ring of two chips, this one chip 0, every link ACTIVE. -/
def linked : State :=
  { up with
    fabric := { Fabric.init with nm1 := 1, en := true }
    links := Vector.replicate 6 { LinkState.init with en := true, st := 5 } }

/-- `linked` with another state on link 0. -/
def onLink (x : LinkState) : State := linked.setLink 0 x

/-- Link 0 ACTIVE. -/
def link0 : LinkState := { LinkState.init with en := true, st := 5 }

/-! ### Tensor cores -/

/-- A header with a working set of 64 lines at line 0. -/
def coreHdr : Header := BitVec.ofNat 1024 (64 * 2 ^ 176)

/-- An instruction word from its opcode and the fields it has: place and value. -/
def tcWord (op : Nat) (fs : List (Nat × Nat)) : TcWord :=
  BitVec.ofNat 128 (op * 2 ^ 120 + (fs.map fun f => f.2 * 2 ^ f.1).sum)

/-- Core 0 about to run one instruction. -/
def onCore (w : TcWord) (r : CoreRun) : State :=
  running (up.setCore 0 { CoreState.init with run := r }) (.tc 0) { placed coreHdr with prog := [w] }

/-- What core 0 has reached when it runs the instruction in cycle `t`. -/
def reached (w : TcWord) (r : CoreRun) (t : Nat) : State × CoreRun := coreRunTo 0 t (onCore w r, r)

theorem issues_onCore (w : TcWord) (r : CoreRun) (op t : Nat) 
    (h : r.ended = false ∧ r.pc = 0 ∧ tcOpcode w = op ∧ issueCycle r w = some t ∧
      firstFault (reached w r t).2 = none) :
    Issues (onCore w r) 0 op { placed coreHdr with prog := [w] } w t (reached w r t).1 (reached w r t).2 := by
  obtain ⟨he, hp, ho, hc, hq⟩ := h
  have hr : ((onCore w r).core 0).run = r := rfl
  refine ⟨rfl, rfl, ?_, ?_, ho, ?_, ?_, hq⟩ <;> rw [hr]
  · exact he
  · rw [hp]; rfl
  · exact hc
  · rfl

/-- A tile of one INT8 weight row, 128 wide, at byte 0x1000. -/
def tile0 : TileRef :=
  { wfmt := 0, xmode := 0, bs := false, esc := false, k := 1, n := 128, tile := 0x1000, srec := 0, list := 0, issue := 0,
    prefixLines := 0, serial := 0 }

/-- A drain setup on PATH 2. -/
def setup0 : Setup :=
  { path := 2, ofmt := .int8, esc := false, out := 0x1000, vreg := 0, param := 0, table := 0, issue := 0, ready := 0, slot := 0,
    serial := 0 }

/-- Address register 1 at byte 0x1000, a tile active, a setup captured. -/
def run0 : CoreRun :=
  { CoreRun.init with
    areg := AddrReg.zero :: List.replicate 15 { base := 0x1000#32, strides := [0, 0, 0, 0] }
    active := some tile0
    setup := some setup0 }

/-- A command of 5 declared cycles whose FENCE may issue in cycle 10. -/
def faultWait : Placed := { placed (hdrOf [(64, 5)]) with prog := [tcWord 0x05 [(112, 1)]] }

/-- A conflict of the creel in cycle 3. -/
def conflict3 : CoreFault := { cycle := 3, status := .creelConflict, info := .none, sticky := 0#32 }

/-- Core 0 with it, and a conflict of the creel found for cycle 3. -/
def faultSoon : State :=
  running (up.setCore 0 { CoreState.init with run :=
    { CoreRun.init with
      complete := [some 9, none, none, none, none, none, none]
      faults := [conflict3] } }) (.tc 0) faultWait

theorem faultSoon_waits (w : TcWord) (k : Nat) (hw : faultWait.prog[(faultSoon.core 0).run.pc]? = some w)
    (hk : issueCycle (faultSoon.core 0).run w = some k) : hdrDecl faultWait.hdr < k := by
  have e : faultWait.prog[(faultSoon.core 0).run.pc]? = some (tcWord 0x05 [(112, 1)]) := by decide +kernel
  have d : issueCycle (faultSoon.core 0).run (tcWord 0x05 [(112, 1)]) = some 10 := by decide +kernel
  rw [← Option.some.inj (e.symm.trans hw), d] at hk
  rw [← Option.some.inj hk]
  decide +kernel

/-- What it has reached when its declared cycles have run. -/
def faultRun : State × CoreRun := coreRunTo 0 (hdrDecl faultWait.hdr + 1) (faultSoon, (faultSoon.core 0).run)

theorem faultRun_eq :
    coreRunTo 0 (hdrDecl faultWait.hdr + 1) (faultSoon, (faultSoon.core 0).run) = (faultRun.1, faultRun.2) := by
  rw [faultRun, Prod.eta]

theorem witness_step_runs_the_front_command :
    ∃ (s : State) (c : Instr) (rest : List Instr),
      s.pending = c :: rest := by
  refine ⟨{ up with pending := [.completionTimeout 0] }, .completionTimeout 0, [], ?_⟩ <;>
    decide +kernel

theorem witness_seta_loads_base_and_strides :
    ∃ (s : State) (n : Fin 16) (p : Placed) (w : TcWord) (t : Nat) (y : State) (r : CoreRun),
      Issues s n 0x01 p w t y r ∧ fieldNat w 80 5 = 0 ∧ fieldNat w 116 4 ≠ 0 := by
  refine ⟨onCore (tcWord 0x01 [(116, 1), (85, 5)]) CoreRun.init, 0, _, (tcWord 0x01 [(116, 1), (85, 5)]), 0, _, _,
    issues_onCore _ _ _ _ (by decide +kernel), ?_, ?_⟩ <;>
    decide +kernel

theorem witness_sets_lands_in_the_next_cycle :
    ∃ (s : State) (n : Fin 16) (p : Placed) (w : TcWord) (t : Nat) (y : State) (r : CoreRun),
      Issues s n 0x02 p w t y r := by
  refine ⟨onCore (tcWord 0x02 [(112, 7), (0, 5)]) CoreRun.init, 0, _, (tcWord 0x02 [(112, 7), (0, 5)]), 0, _, _,
    issues_onCore _ _ _ _ (by decide +kernel)⟩

theorem witness_loop_enters_its_body :
    ∃ (s : State) (n : Fin 16) (p : Placed) (w : TcWord) (t : Nat) (y : State) (r : CoreRun),
      Issues s n 0x03 p w t y r ∧ fieldNat w 84 12 ≠ 0 := by
  refine ⟨onCore (tcWord 0x03 [(84, 1), (96, 0)]) CoreRun.init, 0, _, (tcWord 0x03 [(84, 1), (96, 0)]), 0, _, _,
    issues_onCore _ _ _ _ (by decide +kernel), ?_⟩ <;>
    decide +kernel

theorem witness_idle_delays_the_next_issue_1 :
    ∃ (s : State) (n : Fin 16) (p : Placed) (w : TcWord) (t : Nat) (y : State) (r : CoreRun),
      Issues s n 0x04 p w t y r ∧ fieldNat w 96 16 ≠ 0 := by
  refine ⟨onCore (tcWord 0x04 [(96, 65535)]) CoreRun.init, 0, _, (tcWord 0x04 [(96, 65535)]), 0, _, _,
    issues_onCore _ _ _ _ (by decide +kernel), ?_⟩ <;>
    decide +kernel

theorem witness_idle_delays_the_next_issue_2 :
    ∃ (s : State) (n : Fin 16) (p : Placed) (w : TcWord) (t : Nat) (y : State) (r : CoreRun),
      Issues s n 0x04 p w t y r ∧ fieldNat w 96 16 = 0 ∧ onlyFault n y r t .rejectFormat 0#32 ∧ p.origin ≠ .tally ∧
        s.hoop.inReset = false := by
  refine ⟨onCore (tcWord 0x04 [(96, 0)]) CoreRun.init, 0, _, (tcWord 0x04 [(96, 0)]), 0, _, _, issues_onCore _ _ _
    _ (by decide +kernel), ?_, ⟨by decide +kernel, by decide +kernel⟩, ?_, ?_⟩ <;>
    decide +kernel

theorem witness_fence_issues_after_the_named_units :
    ∃ (s : State) (n : Fin 16) (p : Placed) (w : TcWord) (t : Nat) (y : State) (r : CoreRun),
      Issues s n 0x05 p w t y r := by
  refine ⟨onCore (tcWord 0x05 [(112, 1)]) { CoreRun.init with complete := [some 9, none, none, none, none, none,
    none] }, 0, _, (tcWord 0x05 [(112, 1)]), 10, _, _, issues_onCore _ _ _ _ (by decide +kernel)⟩

theorem witness_check_ends_a_command_out_of_its_cycle_1 :
    ∃ (s : State) (n : Fin 16) (p : Placed) (w : TcWord) (t : Nat) (y : State) (r : CoreRun),
      Issues s n 0x06 p w t y r ∧ fieldNat w 80 32 = t := by
  refine ⟨onCore (tcWord 0x06 [(80, 0)]) CoreRun.init, 0, _, (tcWord 0x06 [(80, 0)]), 0, _, _, issues_onCore _ _ _
    _ (by decide +kernel), ?_⟩ <;>
    decide +kernel

theorem witness_check_ends_a_command_out_of_its_cycle_2 :
    ∃ (s : State) (n : Fin 16) (p : Placed) (w : TcWord) (t : Nat) (y : State) (r : CoreRun),
      Issues s n 0x06 p w t y r ∧ fieldNat w 80 32 ≠ t ∧ onlyFault n y r t .cycleFault stCycle ∧ p.origin ≠ .tally ∧
        s.hoop.inReset = false := by
  refine ⟨onCore (tcWord 0x06 [(80, 1)]) CoreRun.init, 0, _, (tcWord 0x06 [(80, 1)]), 0, _, _, issues_onCore _ _ _
    _ (by decide +kernel), ?_, ⟨by decide +kernel, by decide +kernel⟩, ?_, ?_⟩ <;>
    decide +kernel

theorem witness_tie_records_an_add_and_end_closes_the_program_1 :
    ∃ (s : State) (n : Fin 16) (p : Placed) (w : TcWord) (t : Nat) (y : State) (r : CoreRun),
      Issues s n 0x07 p w t y r ∧ fieldNat w 88 14 ≠ 0 := by
  refine ⟨onCore (tcWord 0x07 [(102, 1024), (88, 1)]) CoreRun.init, 0, _, (tcWord 0x07 [(102, 1024), (88, 1)]), 0,
    _, _, issues_onCore _ _ _ _ (by decide +kernel), ?_⟩ <;>
    decide +kernel

theorem witness_tie_records_an_add_and_end_closes_the_program_2 :
    ∃ (s : State) (n : Fin 16) (p : Placed) (w : TcWord) (t : Nat) (y : State) (r : CoreRun),
      Issues s n 0x0F p w t y r := by
  refine ⟨onCore (tcWord 0x0F []) CoreRun.init, 0, _, (tcWord 0x0F []), 0, _, _, issues_onCore _ _ _ _
    (by decide +kernel)⟩

theorem witness_setd_captures_a_drain_setup :
    ∃ (s : State) (n : Fin 16) (p : Placed) (w : TcWord) (t : Nat) (y : State) (r : CoreRun),
      Issues s n 0x10 p w t y r ∧ (fieldNat w 118 2 < 2 → (ofmtOf (fieldNat w 115 3)).isSome ∧ inWorkingSet p.hdr
        (spanLines (aopAddr r w 59) 2048)) ∧ (fieldNat w 118 2 = 3 → fieldNat w 83 5 % 2 = 0) ∧ aopAddr r w 88 % 256 =
        0 ∧ aopAddr r w 59 % 16 = 0 := by
  refine ⟨onCore (tcWord 0x10 [(118, 0), (115, 1), (79, 1), (108, 1)]) run0, 0, _, (tcWord 0x10 [(118, 0), (115,
    1), (79, 1), (108, 1)]), 1, _, _, issues_onCore _ _ _ _ (by decide +kernel), ?_, ?_, ?_, ?_⟩ <;>
    decide +kernel

theorem witness_loadw_names_the_next_tile :
    ∃ (s : State) (n : Fin 16) (p : Placed) (w : TcWord) (t : Nat) (y : State) (r : CoreRun),
      Issues s n 0x11 p w t y r ∧ loadwOk (fieldNat w 117 3) (fieldNat w 115 2) (bitAt w 114) (bitAt w 113) = true ∧
        aopAddr r w 74 % 256 = 0 ∧ (bitAt w 114 = true → aopAddr r w 50 % 256 = 0) ∧ (bitAt w 113 = true → aopAddr r w
        26 % 256 = 0) ∧
        (let np := prefixCount (fieldNat w 117 3) (fieldNat w 115 2) (bitAt w 114) (bitAt w 113) (fieldNat w 105 7 +
            1);
         let sl := if bitAt w 114 then (if fieldNat w 117 3 = 1 then 6 else 4) else 0;
         inWorkingSet p.hdr ((List.range np).map fun i => if i < sl then lineOf (aopAddr r w 50) i else lineOf
             (aopAddr r w 26) (i - sl)) = true) := by
  refine ⟨onCore (tcWord 0x11 [(117, 0), (105, 0), (98, 127), (94, 1)]) run0, 0, _, (tcWord 0x11 [(117, 0), (105,
    0), (98, 127), (94, 1)]), 0, _, _, issues_onCore _ _ _ _ (by decide +kernel), ?_, ?_, ?_, ?_, ?_⟩ <;>
    decide +kernel

theorem witness_pass_latches_behind_the_pass_before :
    ∃ (s : State) (n : Fin 16) (p : Placed) (w : TcWord) (t : Nat) (y : State) (r : CoreRun) (q : PassReq) (ref :
      TileRef),
      Issues s n 0x12 p w t y r ∧ passReq w r = some q ∧ (if q.sw then r.nextTile else r.active) = some ref ∧
        passPairOk q ref = true ∧ passBad q ref r = false ∧ inWorkingSet p.hdr (passLines q ref r) = true ∧ q.aligned
        = true := by
  refine ⟨onCore (tcWord 0x12 [(96, 1), (92, 1)]) run0, 0, _, (tcWord 0x12 [(96, 1), (92, 1)]), 0, _, _, ⟨false,
    false, 0, 0, false, 1, .creel 0x1000, 7, true⟩, tile0, issues_onCore _ _ _ _ (by decide +kernel), ?_, ?_, ?_,
    ?_, ?_, ?_⟩ <;>
    decide +kernel

theorem witness_conv_latches_behind_the_pass_before :
    ∃ (s : State) (n : Fin 16) (p : Placed) (w : TcWord) (t : Nat) (y : State) (r : CoreRun) (q : PassReq) (ref :
      TileRef),
      Issues s n 0x13 p w t y r ∧ convReq w = some q ∧ (if q.sw then r.nextTile else r.active) = some ref ∧
        convTapMissing q ref = false ∧ passPairOk q ref = true ∧ passBad q ref r = false ∧ inWorkingSet p.hdr
        (passLines q ref r) = true := by
  refine ⟨onCore (tcWord 0x13 [(52, 1), (44, 1), (17, 1)]) run0, 0, _, (tcWord 0x13 [(52, 1), (44, 1), (17, 1)]),
    0, _, _, ⟨false, false, 0, 0, false, 1, .window 0 1 1 1 1 1 1 0 0 0 0 1 1 0 1 0, 5, true⟩, tile0,
    issues_onCore _ _ _ _ (by decide +kernel), ?_, ?_, ?_, ?_, ?_, ?_⟩ <;>
    decide +kernel

theorem witness_drain_reads_after_the_last_accumulation :
    ∃ (s : State) (n : Fin 16) (p : Placed) (w : TcWord) (t : Nat) (y : State) (r : CoreRun) (u : Setup),
      Issues s n 0x15 p w t y r ∧ r.setup = some u ∧
        (let pl := r.planOf (fieldNat w 119 1);
         let fpOut := decide (u.path < 2) && u.ofmt.fp?.isSome;
         let isFp := (pl.since.map (·.2)).getD fpOut;
         fieldNat w 101 6 ≠ 0 ∧ fieldNat w 107 5 + fieldNat w 101 6 ≤ 32 ∧ (u.path = 1 → isFp = false) ∧ (fpOut = true
             → isFp = true) ∧ inWorkingSet p.hdr ((if u.path = 3 then [] else spanLines u.out (fieldNat w 101 6 *
             outBytes u.path u.ofmt)) ++ (if u.path = 1 then spanLines u.table (8192 * (pl.since.map (·.1)).getD 128)
             else [])) = true) ∧ r.plan.length = 2 := by
  refine ⟨onCore (tcWord 0x15 [(101, 1)]) run0, 0, _, (tcWord 0x15 [(101, 1)]), 0, _, _, setup0, issues_onCore _ _
    _ _ (by decide +kernel), ?_, ?_, ?_⟩ <;>
    decide +kernel

theorem witness_lbf_and_move_take_their_cycles_1 :
    ∃ (s : State) (n : Fin 16) (p : Placed) (w : TcWord) (t : Nat) (y : State) (r : CoreRun),
      Issues s n 0x14 p w t y r ∧ fieldNat w 77 11 + (fieldNat w 65 12 + 1) ≤ 2048 ∧ inWorkingSet p.hdr ((List.range
        (fieldNat w 65 12 + 1)).map (lineOf (aopAddr r w 88))) = true ∧ aopAddr r w 88 % 256 = 0 := by
  refine ⟨onCore (tcWord 0x14 [(77, 2047), (65, 0), (108, 1)]) run0, 0, _, (tcWord 0x14 [(77, 2047), (65, 0),
    (108, 1)]), 0, _, _, issues_onCore _ _ _ _ (by decide +kernel), ?_, ?_, ?_⟩ <;>
    decide +kernel

theorem witness_lbf_and_move_take_their_cycles_2 :
    ∃ (s : State) (n : Fin 16) (p : Placed) (w : TcWord) (t : Nat) (y : State) (r : CoreRun) (q0 : Nat),
      Issues s n 0x40 p w t y r ∧ q0 = (t + (if fieldNat w 119 1 = 0 then 1 else 40) + 7) / 8 ∧ fieldNat w 53 16 ≠ 0 ∧
        fieldNat w 69 19 + fieldNat w 53 16 ≤ 524288 ∧ fieldNat w 69 19 % 32 = (if fieldNat w 119 1 = 0 then q0 + 5
        else q0 - 5) % 32 ∧ inWorkingSet p.hdr ((List.range (fieldNat w 53 16)).map (lineOf (aopAddr r w 88))) = true
        ∧ aopAddr r w 88 % 256 = 0 := by
  refine ⟨onCore (tcWord 0x40 [(53, 1), (69, 6), (108, 1)]) run0, 0, _, (tcWord 0x40 [(53, 1), (69, 6), (108,
    1)]), 0, _, _, 1, issues_onCore _ _ _ _ (by decide +kernel), ?_, ?_, ?_, ?_, ?_, ?_⟩ <;>
    decide +kernel

theorem witness_cmpcnt_reads_one_line_a_cycle :
    ∃ (s : State) (n : Fin 16) (p : Placed) (w : TcWord) (t : Nat) (y : State) (r : CoreRun) (f : ElemFmt),
      Issues s n 0x30 p w t y r ∧ cmpFmt (fieldNat w 117 3) = some f ∧ fieldNat w 114 3 ≠ 7 ∧ fieldNat w 87 16 ≠ 0 ∧
        inWorkingSet p.hdr ((List.range (fieldNat w 87 16)).map (lineOf (aopAddr r w 63)) ++ (List.range (ceilDiv
        (fieldNat w 87 16) (4 * f.bits))).map (lineOf (aopAddr r w 39))) = true ∧ aopAddr r w 63 % 256 = 0 ∧ aopAddr r
        w 39 % 256 = 0 := by
  refine ⟨onCore (tcWord 0x30 [(87, 1), (83, 1), (59, 1)]) run0, 0, _, (tcWord 0x30 [(87, 1), (83, 1), (59, 1)]),
    0, _, _, .int8, issues_onCore _ _ _ _ (by decide +kernel), ?_, ?_, ?_, ?_, ?_, ?_⟩ <;>
    decide +kernel

theorem witness_vec_writes_the_lanes_of_its_predicate :
    ∃ (s : State) (n : Fin 16) (p : Placed) (w : TcWord) (t : Nat) (y : State) (r : CoreRun) (lat gap i : Nat) (x :
      Word),
      Issues s n 0x20 p w t y r ∧ vopTiming (fieldNat w 114 6) = some (lat, gap) ∧ i < 64 ∧ r.vreg.length = 32 ∧
        (let va := r.vreg.getD (fieldNat w 104 5) 0#2048;
         let vb := r.vreg.getD (fieldNat w 99 5) 0#2048;
         let vc := r.vreg.getD (fieldNat w 94 5) 0#2048;
         let sb := r.sreg.getD (fieldNat w 90 3) 0#32;
         let pred := r.preg.getD (fieldNat w 87 2) 0xFFFFFFFFFFFFFFFF#64;
         laneOp (fieldNat w 114 6) (fieldNat w 80 5) (bitAt pred i) (r.tabs.getD (fieldNat w 78 2) 0#10240) (lane va
             i) (if bitAt w 93 then sb else lane vb i) (lane vc i) = some x) := by
  refine ⟨onCore (tcWord 0x20 [(114, 0x10)]) run0, 0, _, (tcWord 0x20 [(114, 0x10)]), 0, _, _, 4, 1, 63, 0#32,
    issues_onCore _ _ _ _ (by decide +kernel), ?_, ?_, ?_, ?_⟩ <;>
    decide +kernel

theorem witness_vec_comparison_sets_the_predicate :
    ∃ (s : State) (n : Fin 16) (p : Placed) (w : TcWord) (t : Nat) (y : State) (r : CoreRun) (i : Nat),
      Issues s n 0x20 p w t y r ∧ 0x08 ≤ fieldNat w 114 6 ∧ fieldNat w 114 6 ≤ 0x0B ∧ i < 64 ∧ r.preg.length = 4 := by
  refine ⟨onCore (tcWord 0x20 [(114, 0x0B)]) run0, 0, _, (tcWord 0x20 [(114, 0x0B)]), 0, _, _, 63, issues_onCore _
    _ _ _ (by decide +kernel), ?_, ?_, ?_, ?_⟩ <;>
    decide +kernel

theorem witness_vec_reduces_or_moves_to_a_scalar_1 :
    ∃ (s : State) (n : Fin 16) (p : Placed) (w : TcWord) (t : Nat) (y : State) (r : CoreRun) (i : Nat),
      Issues s n 0x20 p w t y r ∧ (fieldNat w 114 6 = 0x20 ∨ fieldNat w 114 6 = 0x21) ∧ i < 64 ∧ r.vreg.length = 32 := by
  refine ⟨onCore (tcWord 0x20 [(114, 32)]) run0, 0, _, (tcWord 0x20 [(114, 32)]), 0, _, _, 63, issues_onCore _ _ _
    _ (by decide +kernel), ?_, ?_, ?_⟩ <;>
    decide +kernel

theorem witness_vec_reduces_or_moves_to_a_scalar_2 :
    ∃ (s : State) (n : Fin 16) (p : Placed) (w : TcWord) (t : Nat) (y : State) (r : CoreRun),
      Issues s n 0x20 p w t y r ∧ fieldNat w 114 6 = 0x27 := by
  refine ⟨onCore (tcWord 0x20 [(114, 39)]) run0, 0, _, (tcWord 0x20 [(114, 39)]), 0, _, _, issues_onCore _ _ _ _
    (by decide +kernel), ?_⟩ <;>
    decide +kernel

theorem witness_vld_vtab_read_and_vst_writes_its_line_1 :
    ∃ (s : State) (n : Fin 16) (p : Placed) (w : TcWord) (t : Nat) (y : State) (r : CoreRun),
      Issues s n 0x21 p w t y r ∧
        (let mode := fieldNat w 117 3;
         let fmt := fieldNat w 114 3;
         mode ≤ 3 ∧ (mode = 1 → fmt ≠ 7) ∧ (mode = 3 → fmt = 1 ∨ fmt = 2 ∨ fmt = 7) ∧ aopAddr r w 80 % (if mode = 0
             then 256 else if mode = 1 then cvtBytes fmt else if mode = 2 then 128 else 1024) = 0 ∧ inWorkingSet p.hdr
             (if mode = 3 then spanLines (aopAddr r w 80) 1024 else [lineOf (aopAddr r w 80) 0]) = true) := by
  refine ⟨onCore (tcWord 0x21 [(100, 1)]) run0, 0, _, (tcWord 0x21 [(100, 1)]), 0, _, _, issues_onCore _ _ _ _
    (by decide +kernel), ?_⟩ <;>
    decide +kernel

theorem witness_vld_vtab_read_and_vst_writes_its_line_2 :
    ∃ (s : State) (n : Fin 16) (p : Placed) (w : TcWord) (t : Nat) (y : State) (r : CoreRun),
      Issues s n 0x23 p w t y r ∧ aopAddr r w 86 % 256 = 0 ∧ inWorkingSet p.hdr (spanLines (aopAddr r w 86) 1280) =
        true := by
  refine ⟨onCore (tcWord 0x23 [(106, 1)]) run0, 0, _, (tcWord 0x23 [(106, 1)]), 0, _, _, issues_onCore _ _ _ _
    (by decide +kernel), ?_, ?_⟩ <;>
    decide +kernel

theorem witness_vld_vtab_read_and_vst_writes_its_line_3 :
    ∃ (s : State) (n : Fin 16) (p : Placed) (w : TcWord) (t : Nat) (y : State) (r : CoreRun),
      Issues s n 0x22 p w t y r ∧ fieldNat w 117 3 = 0 ∧ aopAddr r w 83 % 256 = 0 ∧ inWorkingSet p.hdr [lineOf
        (aopAddr r w 83) 0] = true := by
  refine ⟨onCore (tcWord 0x22 [(103, 1)]) run0, 0, _, (tcWord 0x22 [(103, 1)]), 0, _, _, issues_onCore _ _ _ _
    (by decide +kernel), ?_, ?_, ?_⟩ <;>
    decide +kernel

theorem witness_vld_vtab_read_and_vst_writes_its_line_4 :
    ∃ (s : State) (n : Fin 16) (p : Placed) (w : TcWord) (t : Nat) (y : State) (r : CoreRun) (f : ElemFmt),
      Issues s n 0x22 p w t y r ∧ fieldNat w 117 3 = 1 ∧ vldFmt (fieldNat w 114 3) = some f ∧ aopAddr r w 83 %
        cvtBytes (fieldNat w 114 3) = 0 ∧ inWorkingSet p.hdr [lineOf (aopAddr r w 83) 0] = true := by
  refine ⟨onCore (tcWord 0x22 [(117, 1), (114, 1), (103, 1)]) run0, 0, _, (tcWord 0x22 [(117, 1), (114, 1), (103,
    1)]), 0, _, _, .int8, issues_onCore _ _ _ _ (by decide +kernel), ?_, ?_, ?_, ?_⟩ <;>
    decide +kernel


/-! ### Commands, contexts and frames -/

/-- A VOXEL header of 100 declared cycles. -/
def voxHdr : Header := hdrOf [(0, 1), (8, 3), (64, 100), (96, 1)]

/-- Work done in time. -/
def runEnd (used : Nat) : RunEnd :=
  { status := .done, used := used, det := 0, sticky := 0#32, faultAddr := none, stat := 0#32, ahi := 0#32, bound := none }

/-- A COIL unit with a command whose work has ended. -/
def coilDone (used : Nat) : Placed := { placed voxHdr with fin := some (runEnd used) }

/-- A legal tensor-core header of 5 cycles, any core, 64 lines. -/
def tcHdr : Header := hdrOf [(0, 1), (64, 5), (144, 0xFF), (176, 64)]

/-- A program of one END. -/
def endProg : List TcWord := [BitVec.ofNat 128 (0x0F * 2 ^ 120)]

/-- Core 0 after the END of a program of 5 cycles. -/
def coreEnded : State :=
  running (up.setCore 0 { CoreState.init with run := { CoreRun.init with ended := true, lastIssue := some 4 } }) (.tc 0)
    (placed tcHdr)

/-- What it has reached in the cycle of its end. -/
def coreAtEnd : State × CoreRun :=
  coreRunTo 0 (endCycle (coreEnded.core 0).run + 1) (coreEnded, (coreEnded.core 0).run)

theorem coreAtEnd_quiet : firstFault coreAtEnd.2 = none := by decide +kernel

/-- Context 1 with a stall limit of 5 µs, 5 µs later. -/
def stalled : State :=
  { withCtx { ctxRun [] with stallUs := 5#32 } with tu := { TimeUnit.init with ns := 5000 } }

/-- A replay of a command that failed on COIL 0. -/
def replay0 : Replay :=
  { ctx := 1, frame := 0, fallback := false, q := 0, pos := 0, struck := .coil 0, status := .internal, steps := [⟨voxHdr, []⟩],
    placed := false, counts := true, det := 0, loc := [], waitFence := none, sent := false }

/-- Context 1 with a replay waiting. -/
def replaying : State := { withCtx (ctxRun []) with disp := { Dispatcher.init with replays := [replay0] } }

/-- The wait of an ABORT for the end of frame 0. -/
def abortPkt : WaitPkt := { seq := 0#32, noirq := false, admin := false, frame := 0, isAbort := true, silent := false }

/-- Two members of slice group 0; context 1 holds an expired slice, context 2 has a tensor-core command ready. -/
def sliced (expired : Bool) : State :=
  { up with
    ctxs := [(1, { ctxRun [] with cls := 1 }), (2, { ctxRun [⟨tcHdr, []⟩] with cls := 1 })]
    disp := { Dispatcher.init with slices := Vector.replicate 16 (some ⟨1, expired, if expired then some 2 else none⟩) } }

theorem witness_engine_command_end_adds_its_signals :
    ∃ (s : State) (u : UnitId) (p : Placed) (e : RunEnd),
      (s.unit u).run = some p ∧ p.stage = .running ∧ p.origin ≠ .tally ∧ (∀ n, u ≠ .tc n) ∧ p.fin = some e ∧ e.status
        = .done ∧ e.bound = none ∧ e.used = hdrDecl p.hdr ∧ s.hoop.inReset = false ∧ (∀ m n, u = .mv m → (s.core
        n).run.visits.any (·.mover == m) = false) ∧ s.storesWf = true := by
  refine ⟨running up (.coil 0) (coilDone 100), .coil 0, coilDone 100, runEnd 100, ?_, ?_, ?_, ?_, ?_, ?_, ?_, ?_,
    ?_, nofun, ?_⟩ <;>
    decide +kernel

theorem witness_core_command_end_adds_signals_and_ties :
    ∃ (s : State) (n : Fin 16) (p : Placed) (y : State) (r : CoreRun),
      (s.unit (.tc n)).run = some p ∧ p.stage = .running ∧ p.origin ≠ .tally ∧ (s.core n).run.ended = true ∧ coreRunTo
        n (endCycle (s.core n).run + 1) (s, (s.core n).run) = (y, r) ∧ (∀ f, firstFault r = some f → endCycle (s.core
        n).run < f) ∧ endCycle (s.core n).run + 1 = hdrDecl p.hdr ∧ s.hoop.inReset = false ∧ s.storesWf = true := by
  refine ⟨coreEnded, 0, placed tcHdr, coreAtEnd.1, coreAtEnd.2, ?_, ?_, ?_, ?_, rfl, (fun _ h => nomatch
    coreAtEnd_quiet.symm.trans h), ?_, ?_, ?_⟩ <;>
    decide +kernel

theorem witness_late_command_ends_with_cycle_fault :
    ∃ (s : State) (u : UnitId) (p : Placed) (e : RunEnd),
      (s.unit u).run = some p ∧ p.stage = .running ∧ p.origin ≠ .tally ∧ (∀ n, u ≠ .tc n) ∧ p.fin = some e ∧ e.status
        = .done ∧ e.bound = none ∧ hdrDecl p.hdr < e.used ∧ s.hoop.inReset = false := by
  refine ⟨running up (.coil 0) (coilDone 101), .coil 0, coilDone 101, runEnd 101, ?_, ?_, ?_, ?_, ?_, ?_, ?_, ?_,
    ?_⟩ <;>
    decide +kernel

theorem witness_core_stops_at_its_first_fault :
    ∃ (s : State) (n : Fin 16) (p : Placed) (y : State) (r : CoreRun) (f : Nat) (x : CoreFault),
      (s.unit (.tc n)).run = some p ∧ p.stage = .running ∧ p.origin ≠ .tally ∧ (s.core n).run.ended = false ∧ (∀ w k,
        p.prog[(s.core n).run.pc]? = some w → issueCycle (s.core n).run w = some k → hdrDecl p.hdr < k) ∧ coreRunTo n
        (hdrDecl p.hdr + 1) (s, (s.core n).run) = (y, r) ∧ firstFault r = some f ∧ r.faults.filter (·.cycle == f) =
        [x] ∧ x.status.isFault = true ∧ s.hoop.inReset = false := by
  refine ⟨faultSoon, 0, faultWait, faultRun.1, faultRun.2, 3, conflict3, ?_, ?_, ?_, ?_, faultSoon_waits,
    faultRun_eq, ?_, ?_, ?_, ?_⟩ <;>
    decide +kernel

theorem witness_abort_delivery_ends_the_command_aborted :
    ∃ (s : State) (u : UnitId) (_k : Nat) (p : Placed),
      (s.unit u).run = some p ∧ fromGraph p.origin = true ∧ (s.ctx p.ctx).aborting = true ∧ (p.stage ≠ .running ∨ ((∀
        n, u ≠ .tc n) ∧ p.fin = none)) := by
  refine ⟨running (withCtx { ctxRun [] with waitPkt := [abortPkt] }) (.coil 0) (placed voxHdr), .coil 0, 0, placed
    voxHdr, ?_, ?_, ?_, ?_⟩ <;>
    decide +kernel

theorem witness_placement_prefers_latency_critical_contexts :
    ∃ (s : State) (u : UnitId) (h : HeadRef),
      s.computeUp = true ∧ (s.unit u).run = none ∧ s.tallyDue u = false ∧ (∀ r ∈ s.disp.replays, s.replayUnit r ≠ some
        u) ∧ s.preludeFor u = none ∧ s.headFor u = some h := by
  refine ⟨withCtx (ctxRun [⟨voxHdr, []⟩]), .coil 0, ⟨1, 0, 0, ⟨voxHdr, []⟩⟩, ?_, ?_, ?_, ?_, ?_, ?_⟩ <;>
    decide +kernel

theorem witness_placed_command_is_checked_and_starts_1 :
    ∃ (s : State) (u : UnitId) (p : Placed),
      (s.unit u).run = some p ∧ p.stage = .placed ∧ p.origin ≠ .tally ∧ headerCheck s u p = none := by
  refine ⟨running up (.tc 0) { placed tcHdr with stage := .placed }, .tc 0, { placed tcHdr with stage := .placed
    }, ?_, ?_, ?_, ?_⟩ <;>
    decide +kernel

theorem witness_placed_command_is_checked_and_starts_2 :
    ∃ (s : State) (u : UnitId) (p : Placed) (st : Status),
      (s.unit u).run = some p ∧ p.stage = .placed ∧ p.origin ≠ .tally ∧ headerCheck s u p = some st ∧ st.ok = false ∧
        s.hoop.inReset = false := by
  refine ⟨running up (.tc 0) { placed 0#1024 with stage := .placed }, .tc 0, { placed 0#1024 with stage := .placed
    }, .rejectFormat, ?_, ?_, ?_, ?_, ?_, ?_⟩ <;>
    decide +kernel

theorem witness_placed_command_is_checked_and_starts_3 :
    ∃ (s : State) (n : Fin 16) (p : Placed),
      (s.unit (.tc n)).run = some p ∧ p.stage = .checked ∧ crc32c (progBytes p.prog) = bytesNat p.hdr 88 4 := by
  refine ⟨running up (.tc 0) (staged .checked (hdrOf [(704, 0x1c63a6ce)]) endProg), 0, staged .checked (hdrOf
    [(704, 0x1c63a6ce)]) endProg, ?_, ?_, ?_⟩ <;>
    decide +kernel

theorem witness_placed_command_is_checked_and_starts_4 :
    ∃ (s : State) (u : UnitId) (p : Placed),
      (s.unit u).run = some p ∧ p.stage = .ready := by
  refine ⟨running up (.tc 0) { placed tcHdr with stage := .ready }, .tc 0, { placed tcHdr with stage := .ready },
    ?_, ?_⟩ <;>
    decide +kernel

theorem witness_replay_avoids_the_unit_struck :
    ∃ (s : State) (r : Replay) (c : Cmd) (rest : List Cmd) (u : UnitId),
      s.computeUp = true ∧ s.disp.replays.find? (fun r => (s.replayUnit r).isSome) = some r ∧ r.steps = c :: rest ∧
        s.replayUnit r = some u := by
  refine ⟨replaying, replay0, ⟨voxHdr, []⟩, [], .coil 1, ?_, ?_, ?_, ?_⟩ <;>
    decide +kernel

theorem witness_frame_end_reconciles_replies_and_counts :
    ∃ (s : State) (c : Fin 4096) (f : FrameRun) (g : GraphImage) (r : Ring) (ab : Bool) (l : List TieLine),
      c.val ≠ 0 ∧ s.computeUp = true ∧ (s.ctx c.val).run = some f ∧ (s.ctx c.val).img = some g ∧ (s.ctx c.val).ring =
        some r ∧ r.waiting = [] ∧ s.replyMay r = true ∧ (s.ctx c.val).hushed = false ∧ s.frameOver c.val = some ab ∧
        s.storesWf = true ∧ l = g.recon ++ (match g.fallback with | some fb => fb.recon | none => []) ∧ (l.map
        TieLine.tie).Nodup := by
  refine ⟨withCtx (ctxRun []), 1, frameRun, image [], ring, false, [⟨1024, 5#32, 0#32⟩], ?_, ?_, ?_, ?_, ?_, ?_,
    ?_, ?_, ?_, ?_, ?_, ?_⟩ <;>
    decide +kernel

theorem witness_deadline_switches_and_stall_is_noted_1 :
    ∃ (s : State) (c : Fin 4096) (f : FrameRun),
      s.computeUp = true ∧ (s.ctx c.val).run = some f ∧ (s.ctx c.val).monitor = true ∧ (s.ctx c.val).fbId ≠ 0#32 ∧
        f.originKnown = true ∧ f.switched = false ∧ f.aborted = false ∧ (s.ctx c.val).aborting = false ∧ s.limitPassed
        (s.ctx c.val) f = true ∧ recorderOpen s := by
  refine ⟨withCtx (ctxRun []), 1, frameRun, ?_, ?_, ?_, ?_, ?_, ?_, ?_, ?_, ?_, ⟨by decide +kernel,
    by decide +kernel⟩⟩ <;>
    decide +kernel

theorem witness_deadline_switches_and_stall_is_noted_2 :
    ∃ (s : State) (c : Fin 4096) (f : FrameRun),
      s.computeUp = true ∧ (s.ctx c.val).run = some f ∧ (s.ctx c.val).stallUs ≠ 0#32 ∧ f.firstPlaced = false ∧
        f.stallLogged = false ∧ f.begunNs + 1000 * (s.ctx c.val).stallUs.toNat ≤ s.nowNs ∧ recorderOpen s := by
  refine ⟨stalled, 1, frameRun, ?_, ?_, ?_, ?_, ?_, ?_, ⟨by decide +kernel, by decide +kernel⟩⟩ <;>
    decide +kernel

theorem witness_interval_start_asks_every_unit_for_its_test :
    ∃ (s : State),
      s.computeUp = true := by
  refine ⟨up, ?_⟩ <;>
    decide +kernel

theorem witness_slice_boundary_and_switch_pass_the_group_1 :
    ∃ (s : State) (g : Fin 16) (x : Slice),
      s.computeUp = true ∧ s.sliceOf g.val = some x ∧ x.expired = false := by
  refine ⟨sliced false, 0, ⟨1, false, none⟩, ?_, ?_, ?_⟩ <;>
    decide +kernel

theorem witness_slice_boundary_and_switch_pass_the_group_2 :
    ∃ (s : State) (g : Fin 16) (_overrun : Nat) (x : Slice) (c : Nat),
      s.sliceOf g.val = some x ∧ x.expired = true ∧ x.next = some c ∧ s.runsOnCore x.holder = false ∧ s.switchMay
        (Config.switchMover g) (s.switchCores x.holder c) = true := by
  have have_may : ∀ m, (sliced true).switchMay m ((sliced true).switchCores 1 2) = true := by decide +kernel
  refine ⟨sliced true, 0, 3, ⟨1, true, some 2⟩, 2, ?_, ?_, ?_, ?_, have_may _⟩ <;>
    decide +kernel

theorem witness_tally_test_clears_or_quarantines_1 :
    ∃ (s : State) (u : UnitId) (p : Placed) (r : TallyResult),
      s.domainHeld = false ∧ (s.unit u).run = some p ∧ p.origin = .tally ∧ p.stage = .running ∧ (∀ f ∈ r.faults,
        f.injected = true) ∧ r.missed = false ∧ r.digestOk = true := by
  refine ⟨running up (.wal 1) { placed tcHdr with origin := .tally }, .wal 1, { placed tcHdr with origin := .tally
    }, ⟨[⟨3, 7, true⟩], false, true⟩, ?_, ?_, ?_, ?_, ?_, ?_, ?_⟩ <;>
    decide +kernel

theorem witness_tally_test_clears_or_quarantines_2 :
    ∃ (s : State) (u : UnitId) (p : Placed) (r : TallyResult),
      s.domainHeld = false ∧ (s.unit u).run = some p ∧ p.origin = .tally ∧ p.stage = .running ∧ ((∃ f ∈ r.faults,
        f.injected = false) ∨ r.missed = true ∨ r.digestOk = false) := by
  refine ⟨running up (.wal 1) { placed tcHdr with origin := .tally }, .wal 1, { placed tcHdr with origin := .tally
    }, ⟨[⟨3, 7, true⟩], true, true⟩, ?_, ?_, ?_, ?_, .inr (.inl rfl)⟩ <;>
    decide +kernel


/-! ### Engines and movers -/

/-- A KV context of one layer and one head, D 32, INT8, two block records at hamper line 16, scales 1.0 at line 8. -/
def kvState : State :=
  withLines [(0, lineFields [(0, 1), (3, 1), (4, 1), (5, 1), (8, 64), (16, 2), (24, hamKey 16 * 256), (32, hamKey 8 * 256)]),
    (8, lineFields [(0, 0x3F800000), (4, 0x3F800000)])]

/-- What the descriptor line of `kvState` says. -/
def kv0 : KvDesc :=
  { int4 := false, circular := false, d := 32, hkv := 1, layers := 1, len := 64, nb := 2, base := hamKey 16 * 256
    s2t := hamKey 8 * 256 }

/-- A Plait command: OP, ARG and the parameters P0 to P4. -/
def pltHdr (op arg p0 p1 p2 p3 p4 : Nat) : Header :=
  hdrOf [(0, 1), (8, 5), (64, 1000), (96, op), (128, 1), (136, arg), (192, p0), (224, p1), (256, p2), (288, p3), (704, p4)]

/-- A state with a Plait command on instance 0. -/
def onPlait (s : State) (h : Header) : State := running s (.plt 0) (placed h)

/-- A SAMPLE of one query with one sample from a level of 1 x 1: level table at line 0, samples at line 1, output at line 2. -/
def smpHdr : Header :=
  hdrOf [(0, 1), (8, 4), (64, 1000), (96, 1), (112, 1), (128, 1), (192, 1), (224, 1), (256, 2)]

/-- Its level table. -/
def smpState : State :=
  running (withLines [(0, lineFields [(0, 8), (4, 1), (6, 1), (8, 0x3F800000)])]) (.twn 3) (placed smpHdr)

/-- The sweep record of a grid of one cell: NX, NY, NZ, PMAX and VMAX are 1. -/
def sweepRec : Line := lineFields [(0, 1), (4, 1), (6, 1), (8, 1), (10, 1), (12, 1)]

/-- A SCATTER of one feature: sweep record at line 0. -/
def scaState (h : Header) : State := running (withLines [(0, sweepRec)]) (.coil 1) (placed h)

/-- Its header. -/
def scaHdr : Header :=
  hdrOf [(0, 1), (8, 3), (64, 1000), (96, 2), (192, 1), (224, 2), (256, 3), (288, 1), (704, 4)]

/-- A VOXEL of one packet slot of one line: descriptor at line 0, sweep record at line 1. -/
def voxHdr1 : Header :=
  hdrOf [(0, 1), (8, 3), (64, 1000), (96, 1), (104, 1), (112, 1), (192, 2), (224, 1), (256, 3), (288, 4), (704, 5)]

/-- The lidar descriptor of CARTESIAN points of 8 bytes, one in a packet. -/
def lidDesc : Line := lineFields [(0, 1), (4, 1), (6, 8), (14, 1), (17, 2), (18, 4), (19, 6), (20, 7)]

/-- The state of that VOXEL. -/
def voxState : State := running (withLines [(0, lidDesc), (1, sweepRec)]) (.coil 0) (placed voxHdr1)

/-- TOPK of one candidate at line 0, K 1, to line 1. -/
def topHdr : Header := hdrOf [(0, 1), (8, 6), (64, 1000), (96, 1), (128, 1), (192, 1), (224, 1)]

/-- A Waling command of one candidate at line 0, K 1, MAXOUT 1, to line 1. -/
def walHdr0 (op : Nat) : Header :=
  hdrOf [(0, 1), (8, 6), (64, 1000), (96, op), (128, 1), (704, if op = 1 then 0 else 1), (192, 1), (224, 1), (256, 1)]

/-- A window over hamper lines 0 to 255, readable and writable. -/
def hamWindow : DWord := BitVec.ofNat 64 (7 + hamKey 0 / 256 * 2 ^ 32)

/-- A mover command with that window. -/
def mvCmd (h : Header) : Placed := { placed h with windows := List.replicate 16 hamWindow }

/-- A COPY of two lines, from hamper line 0 to line 4. -/
def copyHdr0 : Header := hdrOf [(0, 1), (8, 7), (64, 1000), (96, 1), (112, 1), (224, 4 * 256), (288, 2)]

/-- The same COPY within the creel of core 0. -/
def creelCopy : Placed :=
  { placed copyHdr0 with windows := List.replicate 16 (BitVec.ofNat 64 (7 + creelKey 0 0 / 256 * 2 ^ 32)) }

/-- A COPY whose first of two lines has come from the host, the second awaited. -/
def hostCopy : State :=
  running { up with copies := Vector.replicate 8 { k := 1, waiting := true, stalled := false } } (.mv 2) (mvCmd copyHdr0)

/-- A TIEMSG to chip 1: tie 1,024 of context 1 by 3. -/
def tieHdr : Header := hdrOf [(0, 1), (8, 7), (64, 1000), (96, 4), (104, 1), (160, 3), (224, 1), (288, 1024)]

/-- Context 1 on `linked`, with a command on a mover. -/
def linkCmd (p : Placed) : State := running { linked with ctxs := [(1, ctxRun [])] } (.mv 0) p

/-- A window over the hamper of chip 1. -/
def peerWindow : DWord := BitVec.ofNat 64 (7 + 2 * 2 ^ 7 + 1 * 2 ^ 9 + hamKey 0 / 256 * 2 ^ 32)

/-- A SEND of one line on link 0, from window 0 to window 1. -/
def sendCmd : Placed :=
  { placed (hdrOf [(0, 1), (8, 7), (64, 1000), (96, 2), (224, 2 ^ 40), (288, 1), (832, 9)]) with
    windows := hamWindow :: List.replicate 15 peerWindow }

/-- Its READY has come. -/
def sending : State :=
  running (onLink { link0 with readies := [(9#32, 1, false)] }) (.mv 0) sendCmd

/-- A RECV of one line on link 0. -/
def recvCmd : Placed :=
  { placed (hdrOf [(0, 1), (8, 7), (64, 1000), (96, 3), (288, 1), (832, 9)]) with
    windows := List.replicate 16 hamWindow }

/-- A ROTATE of one line: it sends on link 0 and receives on link 1. -/
def rotCmd : Placed := placed (hdrOf [(0, 1), (8, 5), (64, 1000), (96, 4), (224, 8), (256, 1), (288, 9)])

theorem witness_stage_copies_the_shards_records :
    ∃ (s : State) (p : Fin 2) (c : Placed) (k : KvDesc) (h : PlaitHdr),
      s.working (.plt p) = some c ∧ s.namedMover c.hdr = true ∧ bytesNat c.hdr 12 1 = 3 ∧ h = plaitHdr c.hdr ∧
        s.storesWf = true ∧ s.tagOk (hamKey h.kvd) = true ∧ kvDesc (s.line (hamKey h.kvd)) = some k ∧ stageCheck h k =
        none ∧ (∀ m ∈ stageMoves h k, s.lineAssigned m.1 = true ∧ s.tagOk m.1 = true) ∧ ((stageMoves h k).map
        (·.2)).Nodup := by
  refine ⟨onPlait kvState (pltHdr 3 0 0 1 4096 0 1), 0, placed (pltHdr 3 0 0 1 4096 0 1), kv0, plaitHdr (pltHdr 3
    0 0 1 4096 0 1), ?_, ?_, ?_, ?_, ?_, ?_, ?_, ?_, ?_, ?_⟩ <;>
    decide +kernel

theorem witness_append_grows_the_kv_context_1 :
    ∃ (s : State) (p : Fin 2) (c : Placed) (k : KvDesc) (h : PlaitHdr),
      s.working (.plt p) = some c ∧ s.namedMover c.hdr = true ∧ bytesNat c.hdr 12 1 = 1 ∧ h = plaitHdr c.hdr ∧
        s.storesWf = true ∧ s.tagOk (hamKey h.kvd) = true ∧ kvDesc (s.line (hamKey h.kvd)) = some k ∧ appendCheck s h
        k = none ∧ (∀ e, e < h.nhead → ∀ half, half < 2 → s.lineAssigned (s.kvScale k h.layer (h.head0 + e) half).1 =
        true ∧ s.tagOk (s.kvScale k h.layer (h.head0 + e) half).1 = true) ∧
        (let n := ceilDiv (h.p2 * h.nhead * k.d * (if h.arg = 2 then 4 else 2)) 256;
         ∀ i, i < n → s.tagOk (hamKey (h.p0 + i)) = true ∧ s.tagOk (hamKey (h.p1 + i)) = true) ∧ (∀ a ∈ appendKeys h
             k, s.lineAssigned a = true) ∧ (k.len % 64 ≠ 0 → ∀ e, e < h.nhead → ∀ i, i < k.rs → s.tagOk (k.recKey
             h.layer (h.head0 + e) (k.len / 64) + i) = true) := by
  refine ⟨onPlait kvState (pltHdr 1 0 4096 4097 1 0 0), 0, placed (pltHdr 1 0 4096 4097 1 0 0), kv0, plaitHdr
    (pltHdr 1 0 4096 4097 1 0 0), ?_, ?_, ?_, ?_, ?_, ?_, ?_, ?_, ?_, ?_, ?_, ?_⟩ <;>
    decide +kernel

theorem witness_append_grows_the_kv_context_2 :
    ∃ (s : State) (i : Fin 2) (p : Placed) (e : RunEnd) (d : Nat),
      (s.unit (.plt i)).run = some p ∧ p.stage = .running ∧ p.origin ≠ .tally ∧ p.fin = some e ∧ e.status = .done ∧
        e.bound = none ∧ e.used = hdrDecl p.hdr ∧ bytesNat p.hdr 12 1 = 1 ∧ s.hoop.inReset = false ∧
        s.storesWf = true ∧ d = hamKey (plaitHdr p.hdr).kvd := by
  refine ⟨running kvState (.plt 0) { placed (pltHdr 1 0 4096 4097 1 0 0) with
      fin := some (doneEnd (hdrDecl (pltHdr 1 0 4096 4097 1 0 0))) }, 0,
    { placed (pltHdr 1 0 4096 4097 1 0 0) with fin := some (doneEnd (hdrDecl (pltHdr 1 0 4096 4097 1 0 0))) },
    doneEnd (hdrDecl (pltHdr 1 0 4096 4097 1 0 0)), hamKey (plaitHdr (pltHdr 1 0 4096 4097 1 0 0)).kvd, ?_, ?_, ?_, ?_,
    ?_, ?_, ?_, ?_, ?_, ?_, ?_⟩ <;>
    decide +kernel

theorem witness_feed_writes_only_its_tile_sets :
    ∃ (s : State) (p : Fin 2) (c : Placed) (k : KvDesc) (h : PlaitHdr),
      s.working (.plt p) = some c ∧ s.namedMover c.hdr = true ∧ bytesNat c.hdr 12 1 = 2 ∧ h = plaitHdr c.hdr ∧
        s.storesWf = true ∧ s.tagOk (hamKey h.kvd) = true ∧ kvDesc (s.line (hamKey h.kvd)) = some k ∧ feedCheck h k =
        none ∧ s.lineAssigned (s.kvScale k h.layer h.head0 0).1 = true ∧ s.tagOk (s.kvScale k h.layer h.head0 0).1 =
        true ∧ (∀ n, n < h.p1 → h.p0 + n * h.p4 < ceilDiv k.len 64 → (∀ i, i < k.rs → s.lineAssigned (feedKey k h n
        (h.p0 + n * h.p4) + i) = true ∧ s.tagOk (feedKey k h n (h.p0 + n * h.p4) + i) = true) ∧ bytesNat (s.line
        (feedKey k h n (h.p0 + n * h.p4))) 4 4 = (h.p0 + n * h.p4) % 2 ^ 32) := by
  refine ⟨onPlait kvState (pltHdr 2 0 0 1 4096 0x3F800000 1), 0, placed (pltHdr 2 0 0 1 4096 0x3F800000 1), kv0,
    plaitHdr (pltHdr 2 0 0 1 4096 0x3F800000 1), ?_, ?_, ?_, ?_, ?_, ?_, ?_, ?_, ?_, ?_, ?_⟩ <;>
    decide +kernel

theorem witness_sample_writes_one_record_per_query :
    ∃ (s : State) (e : Fin 4) (c : Placed) (h : SampleHdr) (ls : List Level) (lv : List (Level × Array Byte)) (sa :
      Array Byte),
      s.working (.twn e) = some c ∧ h = sampleHdr c.hdr ∧ s.storesWf = true ∧ s.tagOk (hamKey h.levt) = true ∧
        sampleCheck s c.hdr = none ∧ ls = levelsOf h.nlev (s.line (hamKey h.levt)) ∧ (∀ l ∈ ls, ∀ i, i < ceilDiv (l.w
        * l.h * h.vr) 256 → s.tagOk (hamKey (l.src + i)) = true) ∧ (∀ i, i < ceilDiv (16 * h.nq * h.nsq) 256 → s.tagOk
        (hamKey (h.samp + i)) = true) ∧ lv = ls.map (fun l => (l, (s.bytesAt (hamKey l.src) 0 (l.w * l.h *
        h.vr)).toArray)) ∧ sa = (s.bytesAt (hamKey h.samp) 0 (16 * h.nq * h.nsq)).toArray := by
  refine ⟨smpState, 3, placed smpHdr, sampleHdr smpHdr, [⟨8, 1, 1, 0x3F800000#32⟩], _, _, ?_, ?_, ?_, ?_, ?_, ?_,
    ?_, ?_, rfl, rfl⟩ <;>
    decide +kernel

theorem witness_scatter_places_each_feature_in_its_cell :
    ∃ (s : State) (e : Fin 2) (c : Placed) (w : Line) (fr nv cells : Nat) (cell : Nat → Nat),
      s.working (.coil e) = some c ∧ bytesNat c.hdr 12 1 = 2 ∧ s.storesWf = true ∧ w = s.line (hamKey (bytesNat c.hdr
        20 4)) ∧ s.tagOk (hamKey (bytesNat c.hdr 20 4)) = true ∧ scatterCheck s c.hdr = none ∧ fr = scatterFr c.hdr ∧
        nv = scatterNv c.hdr ∧ cells = sweepNx w * sweepNy w ∧ (∀ i, i < ceilDiv (4 * nv) 256 → s.tagOk (hamKey
        (bytesNat c.hdr 24 4 + i)) = true) ∧ (∀ i, i < ceilDiv (nv * fr) 256 → s.tagOk (hamKey (bytesNat c.hdr 28 4 +
        i)) = true) ∧ (∀ i, i < nv → cell i = natOfBytes (s.bytesAt (hamKey (bytesNat c.hdr 24 4)) (4 * i) 4)) := by
  refine ⟨scaState scaHdr, 1, placed scaHdr, sweepRec, _, _, _, (fun i => natOfBytes ((scaState scaHdr).bytesAt
    (hamKey (bytesNat scaHdr 24 4)) (4 * i) 4)), ?_, ?_, ?_, ?_, ?_, ?_, rfl, rfl, rfl, ?_, ?_, (fun _ _ => rfl)⟩
    <;>
    decide +kernel

theorem witness_voxel_writes_points_coordinates_and_summary :
    ∃ (s : State) (e : Fin 2) (c : Placed) (d w : Line) (r : VoxelRun),
      s.working (.coil e) = some c ∧ bytesNat c.hdr 12 1 = 1 ∧ s.storesWf = true ∧ d = s.line (hamKey (voxDesc c.hdr))
        ∧ w = s.line (hamKey (voxSweep c.hdr)) ∧ s.tagOk (hamKey (voxDesc c.hdr)) = true ∧ s.tagOk (hamKey (voxSweep
        c.hdr)) = true ∧ voxelCheck s c.hdr = none ∧ (bytesNat d 1 1 = 1 → (∀ i, i < ceilDiv (8 * bytesNat d 28 4) 256
        → s.tagOk (hamKey (bytesNat d 32 4 + i)) = true) ∧ ∀ i, i < 12 → s.tagOk (hamKey (bytesNat d 36 4 + i)) =
        true) ∧ (∀ i, i < voxNpkt c.hdr * voxSlotl c.hdr → s.tagOk (hamKey (voxSlot0 c.hdr + i)) = true) ∧ r =
        s.voxelRun c.hdr d w (voxNpkt c.hdr) := by
  refine ⟨voxState, 0, placed voxHdr1, lidDesc, sweepRec, _, ?_, ?_, ?_, ?_, ?_, ?_, ?_, ?_, ?_, ?_, rfl⟩ <;>
    decide +kernel

theorem witness_waling_selects_by_descending_score_1 :
    ∃ (s : State) (e : Fin 2) (c : Placed) (h : WalHdr),
      s.working (.wal e) = some c ∧ h = walHdr c.hdr ∧ walCheck c.hdr = none ∧ s.storesWf = true ∧ (∀ j, j < ceilDiv
        (32 * h.n) 256 → s.tagOk (hamKey (h.inLine + j)) = true) ∧ h.op = 1 := by
  refine ⟨running up (.wal 1) (placed (walHdr0 1)), 1, placed (walHdr0 1), walHdr (walHdr0 1), ?_, ?_, ?_, ?_, ?_,
    ?_⟩ <;>
    decide +kernel

theorem witness_waling_selects_by_descending_score_2 :
    ∃ (s : State) (e : Fin 2) (c : Placed) (h : WalHdr),
      s.working (.wal e) = some c ∧ h = walHdr c.hdr ∧ walCheck c.hdr = none ∧ s.storesWf = true ∧ (∀ j, j < ceilDiv
        (32 * h.n) 256 → s.tagOk (hamKey (h.inLine + j)) = true) ∧ h.op = 2 := by
  refine ⟨running up (.wal 1) (placed (walHdr0 2)), 1, placed (walHdr0 2), walHdr (walHdr0 2), ?_, ?_, ?_, ?_, ?_,
    ?_⟩ <;>
    decide +kernel

theorem witness_waling_selects_by_descending_score_3 :
    ∃ (s : State) (e : Fin 2) (c : Placed) (h : WalHdr),
      s.working (.wal e) = some c ∧ h = walHdr c.hdr ∧ walCheck c.hdr = none ∧ s.storesWf = true ∧ (∀ j, j < ceilDiv
        (32 * h.n) 256 → s.tagOk (hamKey (h.inLine + j)) = true) ∧ h.op = 3 := by
  refine ⟨running up (.wal 1) (placed (walHdr0 3)), 1, placed (walHdr0 3), walHdr (walHdr0 3), ?_, ?_, ?_, ?_, ?_,
    ?_⟩ <;>
    decide +kernel

theorem witness_copy_moves_its_lines_with_their_tags :
    ∃ (s : State) (m : Fin 8) (p : Placed) (src dst : Nat → Nat) (x : CopyClock),
      s.working (.mv m) = some p ∧ bytesNat p.hdr 12 1 = 1 ∧ (s.copies[m]).waiting = false ∧ (s.copies[m]).stalled =
        false ∧ s.storesWf = true ∧ p.clash = none ∧ copyCheck s p.windows p.hdr = none ∧ s.copyBounded p.windows
        (copyHdr p.hdr) = false ∧ (∀ k, k < (copyHdr p.hdr).total → s.translateOpt p.windows ((copyHdr p.hdr).srcCa k)
        false = some (.device (src k)) ∧ s.translateOpt p.windows ((copyHdr p.hdr).dstCa k) true = some (.device (dst
        k)) ∧ s.fencedCreel (.device (src k)) = false ∧ s.fencedCreel (.device (dst k)) = false ∧ s.tagOk (src k) =
        true) ∧ (∀ j k, j < k → k < (copyHdr p.hdr).total → dst j ≠ dst k) ∧ clockAfter s m p.windows (copyHdr p.hdr)
        src dst (copyHdr p.hdr).total = some x := by
  obtain ⟨x, h⟩ := Option.isSome_iff_exists.mp (show (clockAfter (running up (.mv 7) creelCopy) 7 creelCopy.windows
    (copyHdr creelCopy.hdr) (fun k => creelKey 0 k) (fun k => creelKey 0 (4 + k)) (copyHdr creelCopy.hdr).total).isSome = true by
    decide +kernel)
  refine ⟨running up (.mv 7) creelCopy, 7, creelCopy, (fun k => creelKey 0 k), (fun k => creelKey 0 (4 + k)), x,
    ?_, ?_, ?_, ?_, ?_, ?_, ?_, ?_, ?_, (fun j k h _ => by simp only [creelKey]; omega), h⟩ <;>
    decide +kernel

theorem witness_host_reads_complete_or_fault_1 :
    ∃ (s : State) (m : Fin 8) (p : Placed) (_line : Line) (dst : Nat),
      s.working (.mv m) = some p ∧ (s.copies[m]).waiting = true ∧ (s.copies[m]).k + 1 = (copyHdr p.hdr).total ∧
        s.storesWf = true ∧ s.translateOpt p.windows ((copyHdr p.hdr).dstCa (s.copies[m]).k) true = some (.device dst)
        ∧ s.fencedCreel (.device dst) = false := by
  refine ⟨hostCopy, 2, mvCmd copyHdr0, 5#2048, hamKey 5, ?_, ?_, ?_, ?_, ?_, ?_⟩ <;>
    decide +kernel

theorem witness_host_reads_complete_or_fault_2 :
    ∃ (s : State) (m : Fin 8) (p : Placed),
      s.working (.mv m) = some p ∧ (s.copies[m]).waiting = true := by
  refine ⟨hostCopy, 2, mvCmd copyHdr0, ?_, ?_⟩ <;>
    decide +kernel

theorem witness_tiemsg_sends_one_tie_flit :
    ∃ (s : State) (m : Fin 8) (p : Placed) (l : Fin 6),
      s.working (.mv m) = some p ∧ bytesNat p.hdr 12 1 = 4 ∧ tiemsgCheck s p.ctx p.hdr = none ∧ bytesNat p.hdr 13 1 <
        8 ∧ s.route (bytesNat p.hdr 13 1) = some l ∧ sendsNow s l := by
  refine ⟨linkCmd (placed tieHdr), 0, placed tieHdr, 0, ?_, ?_, ?_, ?_, ?_, ⟨by decide +kernel, by decide +kernel,
    by decide +kernel, by decide +kernel⟩⟩ <;>
    decide +kernel

theorem witness_send_streams_and_recv_posts_1 :
    ∃ (s : State) (m : Fin 8) (p : Placed) (l : Fin 6) (nl : Nat) (rt : Bool) (x : Nat × Nat),
      s.working (.mv m) = some p ∧ bytesNat p.hdr 12 1 = 2 ∧ p.begun = false ∧ p.sendBegun = false ∧ s.slowed = false
        ∧ s.openSend (.mv m) p = false ∧ sendCheck p.hdr = none ∧ s.sendWindowBad p = none ∧ bytesNat p.hdr 13 1 =
        l.val ∧ bytesNat p.hdr 36 4 = nl ∧ s.peerOf l.val = some x ∧ s.fabric.lost.getLsbD x.1 = false ∧
        s.fabric.down.getLsbD x.1 = false ∧ (s.link l).active = true ∧ (s.link l).txOwner = none ∧ (s.link l).txq = []
        ∧ (s.link l).xq = [] ∧ (s.link l).out.length + dataFlits nl + 2 ≤ 128 ∧ (s.link l).readies.find? (fun r => r.1
        == halfXid (.mv m) p.hdr) = some (halfXid (.mv m) p.hdr, nl, rt) ∧ (∀ k, k < nl → s.sendFault (.mv m) p k =
        none) := by
  refine ⟨sending, 0, sendCmd, 0, 1, false, (1, 1), ?_, ?_, ?_, ?_, ?_, ?_, ?_, ?_, ?_, ?_, ?_, ?_, ?_, ?_, ?_,
    ?_, ?_, ?_, ?_, ?_⟩ <;>
    decide +kernel

theorem witness_send_streams_and_recv_posts_2 :
    ∃ (s : State) (m : Fin 8) (p : Placed) (l : Fin 6) (d : Nat) (x : Nat × Nat),
      s.working (.mv m) = some p ∧ bytesNat p.hdr 12 1 = 3 ∧ p.begun = false ∧ p.posted = false ∧ (∀ a b, p.origin ≠
        .replay a b) ∧ recvCheck p.hdr = none ∧ s.recvWindowBad (.mv m) p = none ∧ bytesNat p.hdr 13 1 = l.val ∧
        s.recvLine (.mv m) p 0 = some d ∧ s.peerOf l.val = some x ∧ s.fabric.lost.getLsbD x.1 = false ∧
        s.fabric.down.getLsbD x.1 = false ∧ sendsNow s l ∧ (s.link l).posted.length < 4 := by
  refine ⟨linkCmd recvCmd, 0, recvCmd, 0, 0, (1, 1), ?_, ?_, ?_, ?_, nofun, ?_, ?_, ?_, ?_, ?_, ?_, ?_,
    ⟨by decide +kernel, by decide +kernel, by decide +kernel⟩, ?_⟩ <;>
    decide +kernel

theorem witness_rotate_posts_its_receive_half :
    ∃ (s : State) (i : Fin 2) (p : Placed) (a b : Fin 6) (x y : Nat × Nat),
      s.working (.plt i) = some p ∧ bytesNat p.hdr 12 1 = 4 ∧ p.begun = false ∧ p.posted = false ∧ p.sendBegun = false
        ∧ (∀ c d, p.origin ≠ .replay c d) ∧ s.namedMover p.hdr = true ∧ bytesNat p.hdr 17 1 = a.val ∧ b.val = (if
        a.val ≤ 1 then 1 - a.val else a.val) ∧ 0 < bytesNat p.hdr 32 4 ∧ bytesNat p.hdr 32 4 ≤ 524288 ∧
        s.recvWindowBad (.plt i) p = none ∧ s.peerOf a.val = some x ∧ s.fabric.lost.getLsbD x.1 = false ∧
        s.fabric.down.getLsbD x.1 = false ∧ s.peerOf b.val = some y ∧ s.fabric.lost.getLsbD y.1 = false ∧
        s.fabric.down.getLsbD y.1 = false ∧ (s.link a).active = true ∧ sendsNow s b ∧ (s.link b).posted.length < 4 ∧
        (s.link a).readies.find? (fun r => r.1 == halfXid (.plt i) p.hdr) = none := by
  refine ⟨running linked (.plt 0) rotCmd, 0, rotCmd, 0, 1, (1, 1), (1, 0), ?_, ?_, ?_, ?_, ?_, nofun, ?_, ?_, ?_,
    ?_, ?_, ?_, ?_, ?_, ?_, ?_, ?_, ?_, ?_, ⟨by decide +kernel, by decide +kernel, by decide +kernel,
    by decide +kernel⟩, ?_, ?_⟩ <;>
    decide +kernel


/-! ### Links -/

theorem arrives (s : State) (f : Flit) (typ : Byte)
    (h : f.typ = typ ∧ (s.link 0).active = true ∧ f.fseq = (s.link 0).rxNext ∧ f.nack = false ∧ (s.link 0).txq = [] ∧
      (s.link 0).xq = []) :
    Arrives s 0 f typ := ⟨h.1, h.2.1, h.2.2.1, h.2.2.2.1, h.2.2.2.2.1, h.2.2.2.2.2⟩

/-- A state whose units are as at reset. -/
def idle (s : State) : Prop := s.units = State.reset.units

theorem run_of_idle (s : State) (h : idle s) (u : UnitId) : (s.unit u).run = none := by
  simp [State.unit, show s.units = State.reset.units from h, State.reset, UnitState.init]

theorem noHalves_of_idle (s : State) (h : idle s) : noHalves s := by
  intro u p hp
  simp [State.working, run_of_idle s h u] at hp

theorem receiving (s : State) (p : Placed) (l : Fin 6) (h : idle s)
    (hp : (running s (.mv 0) p).working (.mv 0) = some p ∧ p.begun = true ∧ p.posted = true ∧
      recvLink (.mv 0) p.hdr = some l.val ∧ sendLink (.mv 0) p.hdr = none ∧
      ((running s (.mv 0) p).link l).active = true)
    (hx : ∃ x, (running s (.mv 0) p).peerOf l.val = some x ∧
      (running s (.mv 0) p).fabric.lost.getLsbD x.1 = false ∧ (running s (.mv 0) p).fabric.down.getLsbD x.1 = false) :
    Receiving (running s (.mv 0) p) l (.mv 0) p := by
  refine ⟨fun v q hv _ => ?_, hp.1, hp.2.1, hp.2.2.1, hp.2.2.2.1, hp.2.2.2.2.1, hx, hp.2.2.2.2.2⟩
  refine (Decidable.em (v = .mv 0)).resolve_right fun hne => ?_
  have : ((running s (.mv 0) p).unit v).run = none := by
    rw [running, unit_setUnit_ne _ _ hne]
    exact run_of_idle s h v
  simp [State.working, this] at hv

/-- A flit from chip 1 to this chip, with the payload's fields: bit and value. -/
def flit (typ : Byte) (fs : List (Nat × Nat)) : Flit :=
  { typ := typ, ackv := true, nack := false, ackSeq := 0#16, fseq := 0#16, src := 1#3, dst := 0#3, tagw := 0#32,
    payload := BitVec.ofNat 1920 (fs.map fun f => f.2 * 2 ^ f.1).sum }

/-- A receive half posted by mover 0 on link 0, transfer 9 of one line to hamper line 0. -/
def half : Placed := { recvCmd with begun := true, posted := true }

/-- What the link keeps of it. -/
def post : Posted := { xid := 9#32, nl := 1, dline := 0, unit := .mv 0 }

/-- A transfer under way. -/
def rx (p : Posted) (i : Nat) (bytes : List Byte) : RxTransfer := { post := some p, i := i, bytes := bytes, tags := [], lines := 0 }

/-- Link 0 with a posted receive. -/
def posted : LinkState := { link0 with posted := [post] }

/-- A transfer without lines: its TAIL is next, with the digest of nothing but source and XID. -/
def post0 : Posted := { post with nl := 0 }

/-- The CRC of a flit without content, in four parts. -/
theorem crc_zeros : crc32 (List.replicate 252 0#8) = 0xA66359F1 := by
  have a : (List.replicate 63 0#8).foldl (crcReflByte 0xEDB88320) 0xFFFFFFFF = 0x1755251B := by decide +kernel
  have b : (List.replicate 63 0#8).foldl (crcReflByte 0xEDB88320) 0x1755251B = 0xF52B9ADC := by decide +kernel
  have c : (List.replicate 63 0#8).foldl (crcReflByte 0xEDB88320) 0xF52B9ADC = 0xCAAABA7D := by decide +kernel
  have d : (List.replicate 63 0#8).foldl (crcReflByte 0xEDB88320) 0xCAAABA7D = 0x599CA60E := by decide +kernel
  have e : List.replicate 252 0#8 =
      List.replicate 63 0#8 ++ (List.replicate 63 0#8 ++ (List.replicate 63 0#8 ++ List.replicate 63 0#8)) := by decide +kernel
  rw [crc32, e, List.foldl_append, List.foldl_append, List.foldl_append, a, b, c, d]
  decide

theorem syndrome_of (w : BitVec 2048) (h : (toBytes w 256).take 252 = List.replicate 252 0#8) :
    flitSyndrome w = 0xA66359F1 ^^^ fieldNat w 2016 32 := by
  rw [flitSyndrome, h, crc_zeros]

/-- A flit that is nothing but zeros is bad. -/
theorem syndrome_zero : flitSyndrome 0#2048 = 0xA66359F1 := by
  rw [syndrome_of _ (by decide +kernel)]
  decide +kernel

/-- A stomped flit without content. -/
def stomp : BitVec 2048 := BitVec.ofNat 2048 ((0xA66359F1 ^^^ 0xFFFFFFFF) * 2 ^ 2016)

theorem syndrome_stomp : flitSyndrome stomp = 0xFFFFFFFF := by
  rw [syndrome_of _ (by decide +kernel)]
  decide +kernel

theorem links_idle (s : State) (h : ∀ l : Fin 6, (s.link l).txq = [] ∧ (s.link l).xq = []) : linksIdle s := h

theorem sends_linked : ∀ k : Fin 6,
    (linked.link k).active = true ∧ (linked.link k).txq = [] ∧ (linked.link k).xq = [] ∧ (linked.link k).out.length < 128 := by decide +kernel

/-- The receiving chip. -/
def rxOn (r : RxTransfer) : State := running (onLink { link0 with rx := some r }) (.mv 0) half

/-- Chip 1 of the ring of two: its time comes over a link from chip 0. -/
def chip1 : State := { linked with id := { Identity.init with chip := 1#3 } }

/-- Chip 1, time locked, with a Sync time held. -/
def timed : State :=
  { chip1 with fabric := { chip1.fabric with timeLock := true, t1 := some { sec := 0, ns := 0, frac := 0 } } }

/-- `linked` with context 1 in RUN: ties 1,024 to 1,087, chips 0 and 1. -/
def jobbed : State := { linked with ctxs := [(1, ctxRun [])] }

/-- `linked` with channel 5 bound between a sender and a receiver, every channel in state `st`. -/
def mailed (send recv st : Nat) : State :=
  { linked with
    hoop := { linked.hoop with table1 := some (BitVec.ofNat 1024 (send * 2 ^ 80 + recv * 2 ^ 88)) }
    mbox := Vector.replicate 64 { Mailbox.init with st := st } }

/-- `linked` with a view of a newer EPOCH. -/
def newer : State := { linked with fabric := { linked.fabric with epoch := 4 } }

/-- Link 0 in a training state. -/
def trainingIn (st : Nat) : State := onLink { link0 with st := st }

theorem witness_head_opens_the_posted_transfer_1 :
    ∃ (s : State) (l : Fin 6) (f : Flit) (u : UnitId) (p : Placed) (q : Posted),
      Arrives s l f 0x01#8 ∧ Receiving s l u p ∧ (s.link l).rx = none ∧ (s.link l).posted.find? (fun y => y.xid ==
        f.payload.extractLsb' 0 32 && y.nl == fieldNat f.payload 32 32 && y.dline == fieldNat f.payload 64 32) = some
        q ∧ q.unit = u := by
  refine ⟨running (onLink posted) (.mv 0) half, 0, flit 0x01#8 [(0, 9), (32, 1)], .mv 0, half, post, arrives _ _ _
    (by decide +kernel), receiving _ _ _ rfl (by decide +kernel) ⟨(1, 1), by decide +kernel⟩, ?_, ?_, ?_⟩ <;>
    decide +kernel

theorem witness_head_opens_the_posted_transfer_2 :
    ∃ (s : State) (l : Fin 6) (f : Flit),
      Arrives s l f 0x01#8 ∧ noHalves s ∧ (s.link l).rx = none ∧ (s.link l).posted = [] ∧ recorderOpen s := by
  refine ⟨linked, 0, flit 0x01#8 [(0, 9), (32, 1)], arrives _ _ _ (by decide +kernel), noHalves_of_idle _ rfl, ?_,
    ?_, ⟨by decide +kernel, by decide +kernel⟩⟩ <;>
    decide +kernel

theorem witness_head_opens_the_posted_transfer_3 :
    ∃ (s : State) (l : Fin 6) (f : Flit),
      Arrives s l f 0x04#8 ∧ noHalves s ∧ (s.link l).sent = [] := by
  refine ⟨linked, 0, flit 0x04#8 [(0, 9), (32, 1)], arrives _ _ _ (by decide +kernel), noHalves_of_idle _ rfl, ?_⟩
    <;>
    decide +kernel

theorem witness_head_opens_the_posted_transfer_4 :
    ∃ (s : State) (l : Fin 6) (f : Flit),
      Arrives s l f 0x05#8 ∧ noHalves s ∧ recorderOpen s := by
  refine ⟨linked, 0, flit 0x05#8 [(0, 9)], arrives _ _ _ (by decide +kernel), noHalves_of_idle _ rfl,
    ⟨by decide +kernel, by decide +kernel⟩⟩

theorem witness_data_writes_lines_and_tail_ends_the_half_1 :
    ∃ (s : State) (l : Fin 6) (f : Flit) (u : UnitId) (p : Placed) (r : RxTransfer) (q : Posted) (bytes : List Byte),
      Arrives s l f 0x02#8 ∧ Receiving s l u p ∧ (s.link l).rx = some r ∧ r.post = some q ∧ q.unit = u ∧ p.ups = [] ∧
        r.lines = 240 * r.i / 256 ∧ bytes = r.bytes ++ toBytes f.payload 240 ∧ s.storesWf = true ∧ r.lines < q.nl ∧
        (256 * (r.lines + 1) ≤ 240 * (r.i + 1) → lineTag (lineOfBytes ((bytes.drop (256 * r.lines)).take 256)) =
        (r.tags ++ [f.tagw]).getD r.lines 0#32) := by
  refine ⟨rxOn (rx post 0 []), 0, flit 0x02#8 [(8, 7)], .mv 0, half, rx post 0 [], post, toBytes (flit 0x02#8 [(8,
    7)]).payload 240, arrives _ _ _ (by decide +kernel), receiving _ _ _ rfl (by decide +kernel) ⟨(1, 1),
    by decide +kernel⟩, ?_, ?_, ?_, ?_, ?_, rfl, ?_, ?_, ?_⟩ <;>
    decide +kernel

theorem witness_data_writes_lines_and_tail_ends_the_half_2 :
    ∃ (s : State) (l : Fin 6) (f : Flit) (u : UnitId) (p : Placed) (r : RxTransfer) (q : Posted) (m : Fin 8),
      Arrives s l f 0x03#8 ∧ Receiving s l u p ∧ (s.link l).rx = some r ∧ r.post = some q ∧ q.unit = u ∧ u = .mv m ∧
        p.slowed = false ∧ p.ups = [] ∧ f.payload.extractLsb' 0 32 = q.xid ∧ r.i = dataFlits q.nl ∧ fieldNat f.payload
        32 64 = xferDigest (r.bytes.take (256 * q.nl)) f.src.toNat q.xid := by
  refine ⟨rxOn (rx post0 0 []), 0, flit 0x03#8 [(0, 9), (32, 0x305607c06b177429)], .mv 0, half, rx post0 0 [],
    post0, 0, arrives _ _ _ (by decide +kernel), receiving _ _ _ rfl (by decide +kernel) ⟨(1, 1),
    by decide +kernel⟩, ?_, ?_, ?_, ?_, ?_, ?_, ?_, ?_, ?_⟩ <;>
    decide +kernel

theorem witness_link_layer_acknowledges_and_replays_1 :
    ∃ (s : State) (l : Fin 6) (f : Flit),
      f.typ = 0x00#8 ∧ f.ackv = true ∧ f.nack = false ∧ (s.link l).active = true ∧ (s.link l).txq = [] ∧ (s.link l).xq
        = [] ∧ noHalves s := by
  refine ⟨linked, 0, flit 0x00#8 [], ?_, ?_, ?_, ?_, ?_, ?_, noHalves_of_idle _ rfl⟩ <;>
    decide +kernel

theorem witness_link_layer_acknowledges_and_replays_2 :
    ∃ (s : State) (l : Fin 6) (w : BitVec 2048),
      (s.link l).active = true ∧ (s.link l).nacked = false ∧ flitSyndrome w ≠ 0 ∧ flitSyndrome w ≠ 0xFFFFFFFF := by
  refine ⟨linked, 0, 0#2048, ?_, ?_, (by rw [syndrome_zero]; decide), (by rw [syndrome_zero]; decide)⟩ <;>
    decide +kernel

theorem witness_link_layer_acknowledges_and_replays_3 :
    ∃ (_s : State) (_l : Fin 6) (w : BitVec 2048),
      flitSyndrome w = 0xFFFFFFFF := by
  refine ⟨linked, 0, stomp, syndrome_stomp⟩

theorem witness_link_layer_acknowledges_and_replays_4 :
    ∃ (s : State) (l : Fin 6),
      (s.link l).active = true ∧ (s.link l).out ≠ [] ∧ (s.link l).replaysInRow < 15 := by
  refine ⟨onLink { link0 with out := [flit 0x02#8 []], replaysInRow := 14 }, 0, ?_, ?_, ?_⟩ <;>
    decide +kernel

theorem witness_link_layer_acknowledges_and_replays_5 :
    ∃ (s : State) (l : Fin 6) (r : RxTransfer) (q : Posted) (p : Placed),
      (s.link l).rx = some r ∧ r.post = some q ∧ (∀ v w, s.working v = some w → w.begun = true → v = q.unit) ∧ (s.unit
        q.unit).run = some p := by
  refine ⟨rxOn (rx post 0 []), 0, rx post 0 [], post, half, ?_, ?_, (receiving (onLink { link0 with rx := some (rx
    post 0 []) }) half 0 rfl (by decide +kernel) ⟨(1, 1), by decide +kernel⟩).only, ?_⟩ <;>
    decide +kernel

theorem witness_tie_mail_and_mack_are_delivered_1 :
    ∃ (s : State) (l : Fin 6) (f : Flit),
      Arrives s l f 0x10#8 ∧ noHalves s ∧ f.dst.toNat = s.self ∧ tieAdmitted s f ∧ s.storesWf = true := by
  refine ⟨jobbed, 0, flit 0x10#8 [(0, 1), (32, 1087), (64, 1)], arrives _ _ _ (by decide +kernel),
    noHalves_of_idle _ rfl, ?_, ⟨by decide +kernel, by decide +kernel, by decide +kernel, by decide +kernel,
    by decide +kernel, image [], by decide +kernel⟩, ?_⟩ <;>
    decide +kernel

theorem witness_tie_mail_and_mack_are_delivered_2 :
    ∃ (s : State) (l : Fin 6) (f : Flit),
      Arrives s l f 0x10#8 ∧ noHalves s ∧ f.dst.toNat = s.self ∧ (¬ tieAdmitted s f) ∧ recorderOpen s := by
  refine ⟨jobbed, 0, flit 0x10#8 [(0, 1), (32, 1088), (64, 1)], arrives _ _ _ (by decide +kernel),
    noHalves_of_idle _ rfl, ?_, (fun h => absurd h.2.2.2.1 (by decide +kernel)), ⟨by decide +kernel,
    by decide +kernel⟩⟩ <;>
    decide +kernel

theorem witness_tie_mail_and_mack_are_delivered_3 :
    ∃ (s : State) (l : Fin 6) (f : Flit) (ch : Fin 64),
      Arrives s l f 0x11#8 ∧ noHalves s ∧ f.dst.toNat = s.self ∧ fieldNat f.payload 0 8 = ch.val ∧ (s.binding
        ch.val).1 = 0x10 + f.src.toNat := by
  refine ⟨mailed 0x11 0x03 1, 0, flit 0x11#8 [(0, 5)], 5, arrives _ _ _ (by decide +kernel), noHalves_of_idle _
    rfl, ?_, ?_, ?_⟩ <;>
    decide +kernel

theorem witness_tie_mail_and_mack_are_delivered_4 :
    ∃ (s : State) (l : Fin 6) (f : Flit) (ch : Fin 64),
      Arrives s l f 0x12#8 ∧ noHalves s ∧ f.dst.toNat = s.self ∧ fieldNat f.payload 0 8 = ch.val ∧ (s.binding
        ch.val).2 = 0x10 + f.src.toNat ∧ (s.chan ch).st = 1 := by
  refine ⟨mailed 0x03 0x11 1, 0, flit 0x12#8 [(0, 5)], 5, arrives _ _ _ (by decide +kernel), noHalves_of_idle _
    rfl, ?_, ?_, ?_, ?_⟩ <;>
    decide +kernel

theorem witness_time_beacons_and_delays_follow_the_parent_1 :
    ∃ (s : State) (l : Fin 6) (f : Flit) (phase : Nat),
      Arrives s l f 0x20#8 ∧ noHalves s ∧ s.timeLink = some l ∧ s.tu.follow = false ∧ s.fabric.timeLock = true ∧
        (let o : Int := (s.stampQ phase : Int) - wireQ (f.payload.extractLsb' 0 96) - (s.link l).delay.toNat *
            16777216;
         o < -4294967296 ∨ 4294967296 < o) := by
  refine ⟨timed, 0, flit 0x20#8 [(0, 2)], 0, arrives _ _ _ (by decide +kernel), noHalves_of_idle _ rfl, ?_, ?_,
    ?_, ?_⟩ <;>
    decide +kernel

theorem witness_time_beacons_and_delays_follow_the_parent_2 :
    ∃ (s : State) (l : Fin 6) (f : Flit) (_phase : Nat),
      Arrives s l f 0x21#8 ∧ noHalves s ∧ (s.link l).out = [] := by
  refine ⟨timed, 0, flit 0x21#8 [], 79, arrives _ _ _ (by decide +kernel), noHalves_of_idle _ rfl, ?_⟩ <;>
    decide +kernel

theorem witness_time_beacons_and_delays_follow_the_parent_3 :
    ∃ (s : State) (l : Fin 6) (f : Flit) (_phase : Nat) (t1 : Stamp),
      Arrives s l f 0x22#8 ∧ noHalves s ∧ s.timeLink = some l ∧ s.fabric.t1 = some t1 ∧ f.payload.extractLsb' 0 96 =
        timeWord t1.sec t1.ns := by
  refine ⟨timed, 0, flit 0x22#8 [], 0, { sec := 0, ns := 0, frac := 0 }, arrives _ _ _ (by decide +kernel),
    noHalves_of_idle _ rfl, ?_, ?_, ?_⟩ <;>
    decide +kernel

theorem witness_time_beacons_and_delays_follow_the_parent_4 :
    ∃ (s : State) (l : Fin 6) (x : Nat × Nat),
      s.peerOf l.val = some x ∧ (∀ k ∈ s.usedLinks, sendsNow s k) := by
  refine ⟨linked, 0, (1, 1), ?_, (fun k _ => sends_linked k)⟩ <;>
    decide +kernel

theorem witness_time_beacons_and_delays_follow_the_parent_5 :
    ∃ (s : State) (l : Fin 6),
      s.timeLink = some l ∧ sendsNow s l ∧ (s.peerOf l.val).isSome = true := by
  refine ⟨timed, 0, ?_, ⟨by decide +kernel, by decide +kernel, by decide +kernel, by decide +kernel⟩, ?_⟩ <;>
    decide +kernel

theorem witness_time_beacons_and_delays_follow_the_parent_6 :
    ∃ (s : State),
      s.fabric.timeLock = true ∧ recorderOpen s := by
  refine ⟨timed, ?_, ⟨by decide +kernel, by decide +kernel⟩⟩ <;>
    decide +kernel

theorem witness_notices_update_the_view_of_the_fabric_1_1 :
    ∃ (s : State) (l : Fin 6) (f : Flit) (p e : Nat),
      Arrives s l f 0x13#8 ∧ noHalves s ∧ f.dst.toNat = s.self ∧ p = fieldNat f.payload 8 3 ∧ e = fieldNat f.payload
        16 16 ∧ e < s.fabric.epoch ∧ fieldNat f.payload 0 8 = 0x01 := by
  refine ⟨newer, 0, flit 0x13#8 [(0, 0x01), (8, 1), (16, 3)], 1, 3, arrives _ _ _ (by decide +kernel),
    noHalves_of_idle _ rfl, ?_, ?_, ?_, ?_, ?_⟩ <;>
    decide +kernel

theorem witness_notices_update_the_view_of_the_fabric_1_2 :
    ∃ (s : State) (l : Fin 6) (f : Flit) (p e : Nat),
      Arrives s l f 0x13#8 ∧ noHalves s ∧ f.dst.toNat = s.self ∧ p = fieldNat f.payload 8 3 ∧ e = fieldNat f.payload
        16 16 ∧ e < s.fabric.epoch ∧ fieldNat f.payload 0 8 = 0x10 := by
  refine ⟨newer, 0, flit 0x13#8 [(0, 0x10), (8, 1), (16, 3)], 1, 3, arrives _ _ _ (by decide +kernel),
    noHalves_of_idle _ rfl, ?_, ?_, ?_, ?_, ?_⟩ <;>
    decide +kernel

theorem witness_notices_update_the_view_of_the_fabric_1_3 :
    ∃ (s : State) (l : Fin 6) (f : Flit) (p e : Nat),
      Arrives s l f 0x13#8 ∧ noHalves s ∧ f.dst.toNat = s.self ∧ p = fieldNat f.payload 8 3 ∧ e = fieldNat f.payload
        16 16 ∧ e < s.fabric.epoch ∧ fieldNat f.payload 0 8 = 0x11 := by
  refine ⟨newer, 0, flit 0x13#8 [(0, 0x11), (8, 1), (16, 3)], 1, 3, arrives _ _ _ (by decide +kernel),
    noHalves_of_idle _ rfl, ?_, ?_, ?_, ?_, ?_⟩ <;>
    decide +kernel

theorem witness_notices_update_the_view_of_the_fabric_1_4 :
    ∃ (s : State) (l : Fin 6) (f : Flit) (p e : Nat),
      Arrives s l f 0x13#8 ∧ noHalves s ∧ f.dst.toNat = s.self ∧ p = fieldNat f.payload 8 3 ∧ e = fieldNat f.payload
        16 16 ∧ e < s.fabric.epoch ∧ fieldNat f.payload 0 8 = 0x12 := by
  refine ⟨newer, 0, flit 0x13#8 [(0, 0x12), (8, 1), (16, 3)], 1, 3, arrives _ _ _ (by decide +kernel),
    noHalves_of_idle _ rfl, ?_, ?_, ?_, ?_, ?_⟩ <;>
    decide +kernel

theorem witness_notices_update_the_view_of_the_fabric_1_5 :
    ∃ (s : State) (l : Fin 6) (f : Flit) (p e : Nat),
      Arrives s l f 0x13#8 ∧ noHalves s ∧ f.dst.toNat = s.self ∧ p = fieldNat f.payload 8 3 ∧ e = fieldNat f.payload
        16 16 ∧ e < s.fabric.epoch ∧ fieldNat f.payload 0 8 = 0x20 := by
  refine ⟨newer, 0, flit 0x13#8 [(0, 0x20), (8, 1), (16, 3)], 1, 3, arrives _ _ _ (by decide +kernel),
    noHalves_of_idle _ rfl, ?_, ?_, ?_, ?_, ?_⟩ <;>
    decide +kernel

theorem witness_notices_update_the_view_of_the_fabric_2_1 :
    ∃ (s : State) (l : Fin 6) (f : Flit) (p e : Nat),
      Arrives s l f 0x13#8 ∧ noHalves s ∧ f.dst.toNat = s.self ∧ p = fieldNat f.payload 8 3 ∧ e = fieldNat f.payload
        16 16 ∧ s.fabric.epoch ≤ e ∧ fieldNat f.payload 0 8 = 0x01 := by
  refine ⟨linked, 0, flit 0x13#8 [(0, 0x01), (8, 1), (16, 3)], 1, 3, arrives _ _ _ (by decide +kernel),
    noHalves_of_idle _ rfl, ?_, ?_, ?_, ?_, ?_⟩ <;>
    decide +kernel

theorem witness_notices_update_the_view_of_the_fabric_2_2 :
    ∃ (s : State) (l : Fin 6) (f : Flit) (p e : Nat),
      Arrives s l f 0x13#8 ∧ noHalves s ∧ f.dst.toNat = s.self ∧ p = fieldNat f.payload 8 3 ∧ e = fieldNat f.payload
        16 16 ∧ s.fabric.epoch ≤ e ∧ fieldNat f.payload 0 8 = 0x10 ∧ p ≠ s.self := by
  refine ⟨linked, 0, flit 0x13#8 [(0, 0x10), (8, 1), (16, 3)], 1, 3, arrives _ _ _ (by decide +kernel),
    noHalves_of_idle _ rfl, ?_, ?_, ?_, ?_, ?_, ?_⟩ <;>
    decide +kernel

theorem witness_notices_update_the_view_of_the_fabric_2_3 :
    ∃ (s : State) (l : Fin 6) (f : Flit) (p e : Nat),
      Arrives s l f 0x13#8 ∧ noHalves s ∧ f.dst.toNat = s.self ∧ p = fieldNat f.payload 8 3 ∧ e = fieldNat f.payload
        16 16 ∧ s.fabric.epoch ≤ e ∧ fieldNat f.payload 0 8 = 0x11 := by
  refine ⟨linked, 0, flit 0x13#8 [(0, 0x11), (8, 1), (16, 3)], 1, 3, arrives _ _ _ (by decide +kernel),
    noHalves_of_idle _ rfl, ?_, ?_, ?_, ?_, ?_⟩ <;>
    decide +kernel

theorem witness_notices_update_the_view_of_the_fabric_2_4 :
    ∃ (s : State) (l : Fin 6) (f : Flit) (p e : Nat),
      Arrives s l f 0x13#8 ∧ noHalves s ∧ f.dst.toNat = s.self ∧ p = fieldNat f.payload 8 3 ∧ e = fieldNat f.payload
        16 16 ∧ s.fabric.epoch ≤ e ∧ fieldNat f.payload 0 8 = 0x12 ∧ p ≠ s.self := by
  refine ⟨linked, 0, flit 0x13#8 [(0, 0x12), (8, 1), (16, 3)], 1, 3, arrives _ _ _ (by decide +kernel),
    noHalves_of_idle _ rfl, ?_, ?_, ?_, ?_, ?_, ?_⟩ <;>
    decide +kernel

theorem witness_notices_update_the_view_of_the_fabric_2_5 :
    ∃ (s : State) (l : Fin 6) (f : Flit) (p e : Nat),
      Arrives s l f 0x13#8 ∧ noHalves s ∧ f.dst.toNat = s.self ∧ p = fieldNat f.payload 8 3 ∧ e = fieldNat f.payload
        16 16 ∧ s.fabric.epoch ≤ e ∧ fieldNat f.payload 0 8 = 0x20 := by
  refine ⟨linked, 0, flit 0x13#8 [(0, 0x20), (8, 1), (16, 3)], 1, 3, arrives _ _ _ (by decide +kernel),
    noHalves_of_idle _ rfl, ?_, ?_, ?_, ?_, ?_⟩ <;>
    decide +kernel

theorem witness_manager_judges_the_chips_1 :
    ∃ (s : State) (l : Fin 6) (f : Flit) (p : Nat),
      Arrives s l f 0x13#8 ∧ noHalves s ∧ f.dst.toNat = s.self ∧ p = fieldNat f.payload 8 3 ∧ p ≠ s.self ∧ s.isManager
        = true ∧ s.fabric.epoch ≤ fieldNat f.payload 16 16 ∧ fieldNat f.payload 0 8 = 0x02 := by
  refine ⟨linked, 0, flit 0x13#8 [(0, 2), (8, 1), (16, 3)], 1, arrives _ _ _ (by decide +kernel), noHalves_of_idle
    _ rfl, ?_, ?_, ?_, ?_, ?_, ?_⟩ <;>
    decide +kernel

theorem witness_manager_judges_the_chips_2 :
    ∃ (s : State) (l : Fin 6) (f : Flit) (p : Nat),
      Arrives s l f 0x13#8 ∧ noHalves s ∧ f.dst.toNat = s.self ∧ p = fieldNat f.payload 8 3 ∧ p ≠ s.self ∧ s.isManager
        = true ∧ s.fabric.epoch ≤ fieldNat f.payload 16 16 ∧ fieldNat f.payload 0 8 = 0x03 := by
  refine ⟨linked, 0, flit 0x13#8 [(0, 3), (8, 1), (16, 3)], 1, arrives _ _ _ (by decide +kernel), noHalves_of_idle
    _ rfl, ?_, ?_, ?_, ?_, ?_, ?_⟩ <;>
    decide +kernel

theorem witness_manager_judges_the_chips_3 :
    ∃ (s : State) (l : Fin 6) (f : Flit) (p : Nat),
      Arrives s l f 0x13#8 ∧ noHalves s ∧ f.dst.toNat = s.self ∧ p = fieldNat f.payload 8 3 ∧ p ≠ s.self ∧ s.isManager
        = true ∧ s.fabric.epoch ≤ fieldNat f.payload 16 16 ∧ fieldNat f.payload 0 8 = 0x04 := by
  refine ⟨linked, 0, flit 0x13#8 [(0, 4), (8, 1), (16, 3)], 1, arrives _ _ _ (by decide +kernel), noHalves_of_idle
    _ rfl, ?_, ?_, ?_, ?_, ?_, ?_⟩ <;>
    decide +kernel

theorem witness_manager_judges_the_chips_4 :
    ∃ (s : State) (l : Fin 6) (f : Flit) (p : Nat) (c : Fin 8),
      Arrives s l f 0x13#8 ∧ noHalves s ∧ f.dst.toNat = s.self ∧ p = fieldNat f.payload 8 3 ∧ p ≠ s.self ∧ s.isManager
        = true ∧ s.fabric.epoch ≤ fieldNat f.payload 16 16 ∧ c.val ∈ s.chips ∧ c.val ≠ s.self := by
  refine ⟨linked, 0, flit 0x13#8 [(8, 1), (16, 3)], 1, 1, arrives _ _ _ (by decide +kernel), noHalves_of_idle _
    rfl, ?_, ?_, ?_, ?_, ?_, ?_, ?_⟩ <;>
    decide +kernel

theorem witness_manager_judges_the_chips_5 :
    ∃ (s : State) (l : Fin 6) (f : Flit) (p : Nat) (z : State),
      Arrives s l f 0x13#8 ∧ noHalves s ∧ f.dst.toNat = s.self ∧ p = fieldNat f.payload 8 3 ∧ p ≠ s.self ∧ s.isManager
        = true ∧ s.fabric.epoch ≤ fieldNat f.payload 16 16 ∧ z.hoopRuns = true ∧ z.fabric.en = true ∧ z.fabric.manager
        ≠ z.self := by
  refine ⟨linked, 0, flit 0x13#8 [(8, 1), (16, 3)], 1, chip1, arrives _ _ _ (by decide +kernel), noHalves_of_idle
    _ rfl, ?_, ?_, ?_, ?_, ?_, ?_, ?_, ?_⟩ <;>
    decide +kernel

theorem witness_training_walks_from_detect_to_active_1_1 :
    ∃ (s : State) (m : Byte) (l : Fin 6) (v : Word),
      (m = 0x02#8 ∨ m = 0x03#8) ∧ bitAt v 0 = true ∧ (s.peerOf l.val).isSome = true ∧ noHalves s ∧ bitAt v 1 = false ∧
        (s.link l).st = 0 := by
  refine ⟨trainingIn 0, 0x02#8, 0, 1#32, ?_, ?_, ?_, noHalves_of_idle _ rfl, ?_, ?_⟩ <;>
    decide +kernel

theorem witness_training_walks_from_detect_to_active_1_2 :
    ∃ (s : State) (m : Byte) (l : Fin 6) (v : Word),
      (m = 0x02#8 ∨ m = 0x03#8) ∧ bitAt v 0 = true ∧ (s.peerOf l.val).isSome = true ∧ noHalves s ∧ bitAt v 1 = true := by
  refine ⟨trainingIn 5, 0x03#8, 0, 3#32, ?_, ?_, ?_, noHalves_of_idle _ rfl, ?_⟩ <;>
    decide +kernel

theorem witness_training_walks_from_detect_to_active_2 :
    ∃ (s : State) (l : Fin 6) (_peer : Ident),
      (s.link l).training = true ∧ (s.link l).st < 4 := by
  refine ⟨trainingIn 3, 0, ⟨1#3, 1, 0, 1⟩, ?_, ?_⟩ <;>
    decide +kernel

theorem witness_training_walks_from_detect_to_active_3 :
    ∃ (s : State) (l : Fin 6) (_peer : Ident),
      (s.link l).training = true ∧ (s.link l).st = 4 := by
  refine ⟨trainingIn 4, 0, ⟨1#3, 1, 0, 1⟩, ?_, ?_⟩ <;>
    decide +kernel

theorem witness_training_walks_from_detect_to_active_4 :
    ∃ (s : State) (l : Fin 6),
      (s.link l).training = true ∧ recorderOpen s := by
  refine ⟨trainingIn 1, 0, ?_, ⟨by decide +kernel, by decide +kernel⟩⟩ <;>
    decide +kernel


/-! ### Intake -/

/-- A stream descriptor: SRC_ID 2, the port and group given, RAW10 lines of 4 pixels, one line, two buffers. -/
def camDesc (port group : Nat) : Line :=
  lineFields [(1, port), (3, 0x2B), (4, 2), (5, group), (8, 4), (10, 1), (12, 4), (14, 1), (16, 1), (18, 2), (104, 1030),
    (108, 1031), (116, 1032), (148, 64), (152, 8), (156, 128)]

/-- An enabled stream of context 1. -/
def camOn (d : Line) : CamSlot := { CamSlot.init with desc := some d, ctx := 1, enabled := true }

/-- An attempt that has captured `rows`. -/
def attempt (rows : List (List Byte)) : Attempt :=
  { fn := 0, capSec := 0, capNs := 0, rows := rows, corr := 0, regions := none, gap := false, srcFrame := 1, passed := false,
    failed := none }

/-- Every slot holds `x`. -/
def cams (x : CamSlot) : State := { up with cams := Vector.replicate 2 (Vector.replicate 12 x) }

/-- Slot 0 holds `x`, the other slots `y`. -/
def cams2 (x y : CamSlot) : State :=
  { up with cams := Vector.replicate 2 ((Vector.replicate 12 y).set 0 x) }

/-- A stream on port 0 that has delivered both buffers and may write the first again. -/
def camFull : State :=
  { cams { camOn (camDesc 0 0xFF) with n := 2 } with ties := [(1031, 1#32)] }

/-- A stream with an attempt open. -/
def camOpen (rows : List (List Byte)) : State :=
  cams { camOn (camDesc 0 0xFF) with attempt := some (attempt rows) }

/-- A memory source with a frame to read. -/
def memSource : State :=
  { cams (camOn (camDesc 0xFF 0xFF)) with ties := [(1032, 1#32)], mem := [(hamKey 128, 1#2048)] }

/-- Every MAC enabled with its link up. -/
def macsUp : State :=
  { up with macs := Vector.replicate 4 { MacState.init with en := true, link := true, blockLock := true } }

/-- The MACs with FEC blocks that could not be corrected. -/
def fecUp : State :=
  { up with macs := Vector.replicate 4 { MacState.init with en := true, link := true, blockLock := true, fec := 1 } }

/-- A gPTP frame and an IP frame, without content, with their FCS. -/
def gptpFrame : List Byte :=
  [0x00#8, 0x00#8, 0x00#8, 0x00#8, 0x00#8, 0x00#8, 0x00#8, 0x00#8, 0x00#8, 0x00#8, 0x00#8, 0x00#8, 0x88#8, 0xF7#8,
   0x3B#8, 0x0C#8, 0x38#8, 0x01#8]
@[inherit_doc gptpFrame] def ipFrame : List Byte :=
  [0x00#8, 0x00#8, 0x00#8, 0x00#8, 0x00#8, 0x00#8, 0x00#8, 0x00#8, 0x00#8, 0x00#8, 0x00#8, 0x00#8, 0x08#8, 0x00#8,
   0xCF#8, 0xF3#8, 0x62#8, 0x19#8]

theorem macsUp_no_stream : ∀ k : Fin 8, macsUp.lidars[k].desc = none := by decide +kernel

theorem macsUp_no_source (b : List Byte) (k : Fin 8) : ¬ lidarSource macsUp 3 b k := by
  rintro ⟨d, h, _⟩
  rw [macsUp_no_stream k] at h
  exact nomatch h

/-- A sweep with one packet. -/
def sweep (closed : Bool) : Sweep :=
  { base := 0, firstSec := 0, firstNs := 0, slots := [(0, 1)], dup := 0, late := 0, gap := false, discard := false,
    closed := closed }

/-- A lidar stream in every slot with a sweep of one packet. -/
def lidars (closed : Bool) : State :=
  { up with lidars := Vector.replicate 8 { LidarSlot.init with desc := some 1#2048, ctx := 1, sweep := some (sweep closed) } }

/-- A frame from 192.168.1.9 with a UDP packet whose sequence number is 5, without a UDP checksum, and with its FCS. -/
def udpFrame : List Byte :=
  [0x02#8, 0x00#8, 0x00#8, 0x00#8, 0x00#8, 0x01#8, 0x02#8, 0x00#8, 0x00#8, 0x00#8, 0x00#8, 0x09#8, 0x08#8, 0x00#8, 0x45#8,
   0x00#8, 0x00#8, 0x20#8, 0x00#8, 0x00#8, 0x00#8, 0x00#8, 0x40#8, 0x11#8, 0xF7#8, 0x72#8, 0xC0#8, 0xA8#8, 0x01#8, 0x09#8,
   0xC0#8, 0xA8#8, 0x01#8, 0x01#8, 0x12#8, 0x34#8, 0x09#8, 0x40#8, 0x00#8, 0x0C#8, 0x00#8, 0x00#8, 0x05#8, 0x00#8, 0x00#8,
   0x00#8, 0x41#8, 0xDC#8, 0xC9#8, 0x0D#8]

/-- The descriptor of that source on MAC 3: four packets of one slot line in a sweep, two buffers, a little-endian sequence
number. -/
def lidSource : Line :=
  lineFields [(0, 1), (1, 3), (4, 1), (5, 2), (8, 0x090000000002), (16, 0x901a8c0), (32, 2368), (34, 0x1234), (36, 4), (40, 4), (60, 1024), (64, 64)]

/-- Its stream in slot 7, with a sweep or between sweeps. -/
def lidarSlot7 (w : Option Sweep) : LidarSlot :=
  { LidarSlot.init with desc := some lidSource, ctx := 1, enabled := true, sweep := w }

@[inherit_doc lidarSlot7] def lidarUp (w : Option Sweep) : State :=
  { macsUp with lidars := Vector.ofFn fun (k : Fin 8) => if k = 7 then lidarSlot7 w else LidarSlot.init }

theorem lidarUp_slot (w : Option Sweep) (k : Fin 8) : (lidarUp w).lidars[k] = if k = 7 then lidarSlot7 w else LidarSlot.init := by
  simp [lidarUp]

/-- What its frame carries. -/
def lidUdp : Udp :=
  { sip := lidSip lidSource, sport := 0x1234, dport := 2368, sumOk := true, payload := [0x05#8, 0x00#8, 0x00#8, 0x00#8] }

theorem lidar_arrives (w : Option Sweep) (hu : (lidarUp w).intakeUp = true) :
    LidarArrives (lidarUp w) 3 udpFrame 7 lidSource lidUdp := by
  have hm : macsUp.macs[(3 : Fin 4)].en = true ∧ macsUp.macs[(3 : Fin 4)].link = true := by decide +kernel
  have h7 : (lidarUp w).lidars[(7 : Fin 8)] = lidarSlot7 w := lidarUp_slot w 7
  refine ⟨⟨hm.1, hm.2, hu⟩, ⟨by decide +kernel, by decide +kernel⟩, by rw [h7]; rfl, fun j => ⟨?_, ?_⟩,
    ⟨by decide +kernel, by decide +kernel⟩, ⟨by decide +kernel, by decide +kernel, by decide +kernel⟩, by decide +kernel⟩
  · rintro ⟨d, hj, _⟩
    rw [lidarUp_slot] at hj
    by_cases h : j = 7
    · exact h
    · rw [if_neg h] at hj
      exact nomatch hj
  · rintro rfl
    exact ⟨lidSource, by rw [h7]; rfl, by rw [h7]; rfl, by decide +kernel, by decide +kernel⟩

/-! ### Skep -/

/-- A replay descriptor: one bucket of 1 x 1, samples to 8 x 8, one request line at 0, one record line at 4. -/
def repDesc : Line :=
  lineFields [(4, 1), (6, 1), (8, 8), (10, 8), (12, 64), (16, 0), (20, 1), (24, 4), (28, 1), (32, 1024), (36, 1025), (40, 1026),
    (44, 1024), (128, 1), (130, 1), (132, 1), (134, 1027), (137, 1028), (140, 32)]

/-- A request for the stream at byte 0x800 of window 0. -/
def request : Packet := BitVec.ofNat 512 (0x800 * 2 ^ 64 + 141 * 2 ^ 128)

/-- The smallest stream: one component, one pixel. -/
def jpegLine : Line :=
  BitVec.ofNat 2048 (0x0101010101010101010101010101010101010101010101010101010101010101010101010101010101004300dbffd8ff * 2 ^ 0 +
    0x00000000000001001400c4ff0011010101000100080b00c0ff0101010101010101010101010101010101010101010101 * 2 ^ 384 +
    0xd9ff3f003f000001010800daff0000000000000000000000000000000001101400c4ff00000000000000000000 * 2 ^ 768)

/-- A descriptor in service. -/
def service : SkepDesc := { desc := repDesc, ctx := 1, q := 0, r := 0, k := [0], past := [], closed := false }

/-- A slot of that descriptor. -/
def slot (ph : SkepPhase) (hit : Bool) : SkepSlot :=
  { desc := 0, q := 0, req := request, w := 1, h := 1, bucket := some 0, budget := 10000, cycles := 0, key := 0, status := .done,
    partialFill := false, hit := hit, bad := false, emit := some 0, image := [], phase := ph }

/-- The instances with a slot, a request and its stream in the hamper. -/
def skepIn (x : Option SkepSlot) : State :=
  { up with
    mem := [(hamKey 0, BitVec.ofNat 2048 request.toNat), (hamKey 8, jpegLine)]
    ties := [(1024, 1#32)]
    ctxs := [(1, { ctxRun [] with windows := Vector.replicate 16 hamWindow })]
    skeps := Vector.replicate 2 { SkepState.init with descs := [service], slots := Vector.replicate 8 x } }

/-- The instances with one slot in service. -/
def skepOne (x : SkepSlot) : State :=
  { skepIn none with
    skeps := Vector.replicate 2
      { SkepState.init with descs := [service], slots := (Vector.replicate 8 none).set 0 (some x) } }

theorem holds (i : Fin 2) (j : Fin 8) (x : SkepSlot)
    (h : ((skepIn (some x)).skep i).slots[j] = some x ∧ ((skepIn (some x)).skep i).descs[x.desc]? = some service) :
    SkepHolds (skepIn (some x)) i j x service := h

/-- What the header checks find in the stream. -/
def found (x : Option SkepSlot) : Checked :=
  headerChecks service.desc (reqLen request) ((skepIn x).jpegBytes service.ctx request).1 none

/-- A result that is not an error has a value. -/
theorem ok_of {ε α : Type} {x : Except ε α} (h : x.isOk = true) : ∃ a, x = .ok a := by
  cases x with
  | ok a => exact ⟨a, rfl⟩
  | error e => simp [Except.isOk, Except.toBool] at h

theorem witness_camera_frame_opens_fills_and_delivers_1 :
    ∃ (s : State) (port : Fin 8) (vc : Fin 16) (_fn : BitVec 16) (j : Fin 2 × Fin 12) (d : Line),
      s.camBy port vc = some j ∧ s.intakeUp = true ∧ (s.cam j.1 j.2).desc = some d ∧ (s.cam j.1 j.2).attempt = none ∧
        (s.cam j.1 j.2).next = [] ∧ (s.cam j.1 j.2).disabling = false ∧ (s.unit (.rid j.1)).regs.quarantine = false ∧
        camGroup d = 0xFF ∧ camFnum d = false ∧ (s.regionList d (s.cam j.1 j.2).n).2.2 = false ∧ ((s.cam j.1 j.2).n <
        camNbuf d ∨ s.tieReached (camTieRel d) ((s.cam j.1 j.2).n - camNbuf d + 1) = true) := by
  refine ⟨camFull, 0, 0, 7#16, (0, 0), camDesc 0 0xFF, ?_, ?_, ?_, ?_, ?_, ?_, ?_, ?_, ?_, ?_, ?_⟩ <;>
    decide +kernel

theorem witness_camera_frame_opens_fills_and_delivers_2 :
    ∃ (s : State) (port : Fin 8) (vc : Fin 16) (dt : BitVec 6) (payload : List Byte) (j : Fin 2 × Fin 12) (d : Line)
      (a : Attempt),
      s.camBy port vc = some j ∧ (s.cam j.1 j.2).desc = some d ∧ (s.cam j.1 j.2).attempt = some a ∧ (s.cam j.1
        j.2).next = [] ∧ a.ended = false ∧ (dt.toNat = 0x2B ∨ dt.toNat = 0x2C ∨ dt.toNat = 0x1E ∨ dt.toNat = 0x1F) ∧
        dt.toNat = camDt d ∧ payload.length = camLineBytes d := by
  refine ⟨camOpen [], 0, 0, 0x2B#6, List.replicate 5 0xA5#8, (0, 0), camDesc 0 0xFF, attempt [], ?_, ?_, ?_, ?_,
    ?_, .inl (by decide +kernel), ?_, ?_⟩ <;>
    decide +kernel

theorem witness_camera_frame_opens_fills_and_delivers_3 :
    ∃ (s : State) (port : Fin 8) (vc : Fin 16) (_fn : BitVec 16) (j : Fin 2 × Fin 12) (d : Line) (a : Attempt),
      s.camBy port vc = some j ∧ (s.cam j.1 j.2).desc = some d ∧ (s.cam j.1 j.2).attempt = some a ∧ (s.cam j.1
        j.2).next = [] ∧ a.ended = false ∧ camGroup d = 0xFF ∧ a.rows.length = camH d ∧ camPort d ≠ 0xFF ∧ s.storesWf
        = true := by
  refine ⟨camOpen [[]], 0, 0, 7#16, (0, 0), camDesc 0 0xFF, attempt [[]], ?_, ?_, ?_, ?_, ?_, ?_, ?_, ?_, ?_⟩ <;>
    decide +kernel

theorem no_group (d : Line) (h : ((cams { camOn (camDesc 0 0xFF) with disabling := true }).cam 0 0).desc = some d) :
    camGroup d = 0xFF := by
  have e : ((cams { camOn (camDesc 0 0xFF) with disabling := true }).cam 0 0).desc = some (camDesc 0 0xFF) := by decide +kernel
  rw [← Option.some.inj (e.symm.trans h)]
  decide +kernel

theorem witness_failed_attempts_deliver_nothing_1 :
    ∃ (s : State) (i : Fin 2) (k : Fin 12) (d : Line) (a : Attempt),
      (s.cam i k).desc = some d ∧ (s.cam i k).attempt = some a ∧ (s.cam i k).next = [] ∧ a.ended = false ∧ camGroup d
        = 0xFF := by
  refine ⟨camOpen [], 1, 11, camDesc 0 0xFF, attempt [], ?_, ?_, ?_, ?_, ?_⟩ <;>
    decide +kernel

theorem witness_failed_attempts_deliver_nothing_2 :
    ∃ (s : State) (c : Fin 4096) (g : Fin 8) (m p : Fin 2 × Fin 12) (a : Attempt),
      m ∈ s.groupMembers c.val g.val ∧ p ∈ s.groupMembers c.val g.val ∧ (s.cam m.1 m.2).attempt = none ∧ (s.cam p.1
        p.2).attempt = some a ∧ a.failed = none ∧ (∀ x ∈ s.groupMembers c.val g.val, (s.cam x.1 x.2).next = []) := by
  refine ⟨cams2 (camOn (camDesc 0 3)) { camOn (camDesc 0 3) with attempt := some (attempt []) }, 1, 3, (0, 0), (1,
    11), attempt [], ?_, ?_, ?_, ?_, ?_, ?_⟩ <;>
    decide +kernel

theorem witness_failed_attempts_deliver_nothing_3 :
    ∃ (s : State) (i : Fin 2) (k : Fin 12),
      (s.cam i k).enabled = true := by
  refine ⟨camFull, 1, 11, ?_⟩ <;>
    decide +kernel

theorem witness_failed_attempts_deliver_nothing_4 :
    ∃ (s : State) (port : Fin 8) (vc : Fin 16) (_fn : BitVec 16) (j : Fin 2 × Fin 12),
      s.camBy port vc = some j ∧ s.intakeUp = true ∧ (s.cam j.1 j.2).attempt = none ∧ (s.cam j.1 j.2).next = [] ∧
        (s.cam j.1 j.2).disabling = true ∧ (∀ d, (s.cam j.1 j.2).desc = some d → camGroup d = 0xFF) := by
  refine ⟨cams { camOn (camDesc 0 0xFF) with disabling := true }, 0, 0, 7#16, (0, 0), ?_, ?_, ?_, ?_, ?_,
    no_group⟩ <;>
    decide +kernel

theorem witness_memory_source_delivers_its_buffer :
    ∃ (s : State) (i : Fin 2) (k : Fin 12) (d : Line) (base : Nat),
      s.intakeUp = true ∧ (s.cam i k).desc = some d ∧ camPort d = 0xFF ∧ (s.cam i k).enabled = true ∧ (s.cam i
        k).disabling = false ∧ (s.cam i k).attempt = none ∧ (s.cam i k).next = [] ∧ s.tieReached (camTieSrc d) ((s.cam
        i k).n + 1) = true ∧ camGroup d = 0xFF ∧ camFnum d = false ∧ (s.regionList d (s.cam i k).n).2.2 = false ∧
        (s.unit (.rid i)).regs.quarantine = false ∧ ((s.cam i k).n < camNbuf d ∨ s.tieReached (camTieRel d) ((s.cam i
        k).n - camNbuf d + 1) = true) ∧ base = hamKey (camMsrc d + (s.cam i k).n % max 1 (camNbuf d) * (1 + camH d *
        msRowLines d)) ∧ (∀ q, q < 1 + camH d * msRowLines d → s.tagOk (base + q) = true) ∧ bytesNat (s.line base) 0 1
        = 1 ∧ s.storesWf = true := by
  refine ⟨memSource, 0, 0, camDesc 0xFF 0xFF, hamKey 128, ?_, ?_, ?_, ?_, ?_, ?_, ?_, ?_, ?_, ?_, ?_, ?_, ?_, ?_,
    ?_, ?_, ?_⟩ <;>
    decide +kernel

theorem witness_ethernet_frames_are_counted_queued_and_sent_1 :
    ∃ (s : State) (m : Fin 4) (b : List Byte) (_phase : Nat),
      (s.macs[m]).en = true ∧ (s.macs[m]).link = true ∧ fcsOk b = false := by
  refine ⟨macsUp, 3, [], 79, ?_, ?_, ?_⟩ <;>
    decide +kernel

theorem witness_ethernet_frames_are_counted_queued_and_sent_2 :
    ∃ (s : State) (m : Fin 4) (b : List Byte) (_phase : Nat),
      (s.macs[m]).en = true ∧ (s.macs[m]).link = true ∧ fcsOk b = true ∧ etherType b.toArray = 0x88F7 ∧ s.ptpQ.length
        < 64 := by
  refine ⟨macsUp, 3, gptpFrame, 79, ?_, ?_, ?_, ?_, ?_⟩ <;>
    decide +kernel

theorem witness_ethernet_frames_are_counted_queued_and_sent_3 :
    ∃ (s : State) (m : Fin 4) (b : List Byte) (_phase : Nat),
      (s.macs[m]).en = true ∧ (s.macs[m]).link = true ∧ fcsOk b = true ∧ etherType b.toArray ≠ 0x88F7 ∧ (∀ k, ¬
        lidarSource s m b k) ∧ s.mgmtQ.length < 64 := by
  refine ⟨macsUp, 3, ipFrame, 79, ?_, ?_, ?_, ?_, macsUp_no_source _, ?_⟩ <;>
    decide +kernel

theorem witness_ethernet_frames_are_counted_queued_and_sent_4 :
    ∃ (s : State) (m : Fin 4) (b : List Byte) (_phase : Nat) (k : Fin 8) (d : Line) (u : Udp) (w : Sweep),
      LidarArrives s m b k d u ∧ (s.lidars[k]).sweep = some w ∧ w.closed = false ∧ w.discard = false ∧ lidarSlot d w u
        < lidNpkt d ∧ w.slots.any (·.1 == lidarSlot d w u) = false ∧ w.slots.length + 1 < lidNpkt d := by
  refine ⟨lidarUp (some { sweep false with base := 3 }), 3, udpFrame, 79, 7, lidSource, lidUdp, { sweep false with
    base := 3 }, lidar_arrives _ (by decide +kernel), ?_, ?_, ?_, ?_, ?_, ?_⟩ <;>
    decide +kernel

theorem witness_ethernet_frames_are_counted_queued_and_sent_5 :
    ∃ (s : State) (m : Fin 4) (b : List Byte) (_phase : Nat) (k : Fin 8) (d : Line) (u : Udp),
      LidarArrives s m b k d u ∧ (s.lidars[k]).sweep = none ∧ 1 < lidNpkt d ∧ ((s.lidars[k]).s < lidNbuf d ∨
        s.tieReached (lidTieRel d) ((s.lidars[k]).s - lidNbuf d + 1) = true) := by
  refine ⟨lidarUp none, 3, udpFrame, 79, 7, lidSource, lidUdp, lidar_arrives _ (by decide +kernel), ?_, ?_, ?_⟩
    <;>
    decide +kernel

theorem witness_ethernet_frames_are_counted_queued_and_sent_6 :
    ∃ (s : State) (m : Fin 4) (b : List Byte) (_phase : Nat),
      (s.macs[m]).en = true ∧ (s.macs[m]).link = true ∧ fcsOk b = false ∧ (s.macs[m]).fec ≠ 0 := by
  refine ⟨fecUp, 3, 0x00#8 :: ipFrame, 79, ?_, ?_, ?_, ?_⟩ <;>
    decide +kernel

theorem witness_ethernet_frames_are_counted_queued_and_sent_7 :
    ∃ (s : State) (m : Fin 4) (b : List Byte) (_phase : Nat),
      (s.macs[m]).en = true ∧ (s.macs[m]).link = true ∧ etherType b.toArray ≠ 0x88F7 := by
  refine ⟨macsUp, 3, ipFrame, 79, ?_, ?_, ?_⟩ <;>
    decide +kernel

theorem witness_ethernet_frames_are_counted_queued_and_sent_8 :
    ∃ (s : State) (m : Fin 4),
      (s.macs[m]).blockLock = true := by
  refine ⟨macsUp, 3, ?_⟩ <;>
    decide +kernel

theorem witness_ethernet_frames_are_counted_queued_and_sent_9 :
    ∃ (s : State) (m : Fin 4),
      (s.macs[m]).en = true := by
  refine ⟨macsUp, 3, ?_⟩ <;>
    decide +kernel

theorem witness_sweep_timeout_delivers_the_sweep_1 :
    ∃ (s : State) (k : Fin 8) (d : Line) (w : Sweep),
      (s.lidars[k]).desc = some d ∧ (s.lidars[k]).sweep = some w ∧ w.closed = false ∧ w.discard = false ∧ s.storesWf =
        true := by
  refine ⟨lidars false, 7, 1#2048, sweep false, ?_, ?_, ?_, ?_, ?_⟩ <;>
    decide +kernel

theorem witness_sweep_timeout_delivers_the_sweep_2 :
    ∃ (s : State) (k : Fin 8) (w : Sweep),
      (s.lidars[k]).sweep = some w ∧ w.closed = true := by
  refine ⟨lidars true, 7, sweep true, ?_, ?_⟩ <;>
    decide +kernel

theorem witness_skep_accepts_requests :
    ∃ (s : State) (i : Fin 2) (j : Fin 8) (k b : Nat) (d : SkepDesc) (req : Packet) (c : Checked),
      s.intakeUp = true ∧ (s.unit (.skp i)).regs.quarantine = false ∧ s.freeSlot i = some j ∧ s.waitingDesc i = some k
        ∧ (s.skep i).descs[k]? = some d ∧ s.tagOk (hamKey (repReql d.desc + d.q % max 1 (repNreq d.desc) / 4)) = true
        ∧ req = (s.line (hamKey (repReql d.desc + d.q % max 1 (repNreq d.desc) / 4))).extractLsb' (512 * (d.q % max 1
        (repNreq d.desc) % 4)) 512 ∧ reqOk req = true ∧ (s.jpegBytes d.ctx req).2 = none ∧ c = headerChecks d.desc
        (reqLen req) (s.jpegBytes d.ctx req).1 none ∧ c.status = .done ∧ c.bucket = some b ∧ caches d.desc req = false
        := by
  refine ⟨skepIn none, 0, 0, 0, 0, service, request, found none, ?_, ?_, ?_, ?_, ?_, ?_, by decide +kernel, ?_,
    ?_, rfl, ?_, ?_, ?_⟩ <;>
    decide +kernel

theorem witness_skep_decodes_take_emission_indices_1 :
    ∃ (s : State) (i : Fin 2) (j : Fin 8) (run : SkepRun) (x : SkepSlot) (d : SkepDesc) (b : Nat),
      SkepHolds s i j x d ∧ s.skepMover d.desc = true ∧ x.bucket = some b ∧ x.phase = .decoding ∧ run.cycles <
        x.budget ∧ run.parity = false ∧ x.hit = true := by
  refine ⟨skepIn (some (slot .decoding true)), 1, 7, ⟨9999, false⟩, slot .decoding true, service, 0, holds _ _ _
    (by decide +kernel), ?_, ?_, ?_, ?_, ?_, ?_⟩ <;>
    decide +kernel

theorem witness_skep_samples_are_emitted_and_recorded_1 :
    ∃ (s : State) (i : Fin 2) (j : Fin 8) (x : SkepSlot),
      (s.skep i).slots[j] = some x ∧ x.phase = .decoding ∧ (∀ d, (s.skep i).descs[x.desc]? = some d → s.skepMover
        d.desc = true) := by
  refine ⟨skepIn (some (slot .decoding true)), 1, 7, slot .decoding true, ?_, ?_, ?_⟩ <;>
    decide +kernel

theorem witness_skep_samples_are_emitted_and_recorded_2 :
    ∃ (s : State) (i : Fin 2) (j : Fin 8) (x : SkepSlot) (d : SkepDesc),
      SkepHolds s i j x d ∧ s.skepMover d.desc = false := by
  refine ⟨(skepIn (some (slot .decoding true))).setUnit (.mv 0) { UnitState.init with fence := .fencing }, 0, 0,
    slot .decoding true, service, ⟨by decide +kernel, by decide +kernel⟩, ?_⟩ <;>
    decide +kernel

theorem witness_skep_samples_are_emitted_and_recorded_3 :
    ∃ (s : State) (i : Fin 2) (j : Fin 8) (x : SkepSlot) (d : SkepDesc) (b k base : Nat),
      SkepHolds s i j x d ∧ s.skepMover d.desc = true ∧ x.bucket = some b ∧ x.emit = some k ∧ x.phase = .emitting ∧
        (s.skep i).firstEmission x = true ∧ s.storesWf = true ∧ (k < (bucketOf d.desc b).nbuf ∨ s.tieReached (bucketOf
        d.desc b).tieRel (k - (bucketOf d.desc b).nbuf + 1) = true) ∧ base = hamKey ((bucketOf d.desc b).buf + k % max
        1 (bucketOf d.desc b).nbuf * bucketBufl d.desc (bucketOf d.desc b)) := by
  refine ⟨skepOne (slot .emitting true), 1, 0, slot .emitting true, service, 0, 0, hamKey 32, ⟨by decide +kernel,
    by decide +kernel⟩, ?_, ?_, ?_, ?_, ?_, ?_, ?_, ?_⟩ <;>
    decide +kernel

theorem witness_skep_samples_are_emitted_and_recorded_4 :
    ∃ (s : State) (i : Fin 2) (j : Fin 8) (x : SkepSlot) (d : SkepDesc) (key : Nat),
      SkepHolds s i j x d ∧ s.storesWf = true ∧ (x.phase = .emitted ∨ x.phase = .recording) ∧ (s.skep i).firstEmission
        x = true ∧ (∀ e ∈ (s.skep i).descs, e.closed = false) ∧ (d.r < repNrec d.desc ∨ s.tieReached (repTieRrel
        d.desc) (d.r - repNrec d.desc + 1) = true) ∧ key = hamKey (repRecl d.desc + d.r % max 1 (repNrec d.desc)) := by
  refine ⟨skepOne (slot .recording true), 1, 0, slot .recording true, service, hamKey 4, ⟨by decide +kernel,
    by decide +kernel⟩, ?_, ?_, ?_, ?_, ?_, ?_⟩ <;>
    decide +kernel

theorem witness_skep_decodes_take_emission_indices_2 :
    ∃ (s : State) (i : Fin 2) (j : Fin 8) (run : SkepRun) (x : SkepSlot) (d : SkepDesc) (b : Nat) (c : Checked) (ls :
      List Line) (part : Bool),
      SkepHolds s i j x d ∧ s.skepMover d.desc = true ∧ x.bucket = some b ∧ x.phase = .decoding ∧ run.cycles <
        x.budget ∧ run.parity = false ∧ x.hit = false ∧ caches d.desc x.req = false ∧ (s.jpegBytes d.ctx x.req).2 =
        none ∧ c = headerChecks d.desc (reqLen x.req) (s.jpegBytes d.ctx x.req).1 none ∧ c.status = .done ∧ c.w = x.w
        ∧ c.h = x.h ∧ decodeSample d.desc (bucketOf d.desc b) c none = .ok (ls, part) := by
  obtain ⟨a, h⟩ := ok_of (x := decodeSample repDesc (bucketOf repDesc 0) (found (some (slot .decoding false))) none) (by decide +kernel)
  refine ⟨skepIn (some (slot .decoding false)), 1, 7, ⟨9999, false⟩, slot .decoding false, service, 0, found (some
    (slot .decoding false)), a.1, a.2, holds _ _ _ (by decide +kernel), ?_, ?_, ?_, ?_, ?_, ?_, ?_, ?_, rfl, ?_,
    ?_, ?_, h⟩ <;>
    decide +kernel


/-! ### The host -/

/-- The machine with the admin ring pair open and an entry for context 1. -/
def admin (x : Ctx) : State :=
  { withCtx x with hif := { HostIf.init with en := true, admin := some ring } }

/-- A context in a state. -/
def ctxIn (st : CtxState) : Ctx := { ctxRun [] with state := st }

/-- A window over the first 64 KiB of host memory, readable and writable. -/
def hostWindow : DWord := BitVec.ofNat 64 (7 + 1 * 2 ^ 7)

/-- A context with that window. -/
def windowed (x : Ctx) : Ctx := { x with windows := Vector.replicate 16 hostWindow }

/-- Packet 0 of a ring: OPCODE, CONTEXT and its parameters, byte and value. -/
def pkt (op : Nat) (fs : List (Nat × Nat)) : Packet :=
  BitVec.ofNat 512 (op + 2 ^ 16 + (fs.map fun f => f.2 * 2 ^ (8 * f.1)).sum)

theorem serves (s : State) (n : Nat) (r : Ring) (p : Packet) (op : Nat)
    (h : s.ringOf n = some r ∧ (r.sqHost = true ∧ r.rqHost = true) ∧ (r.waiting = [] ∧ r.room = true) ∧
      s.mayRead n r = true ∧ s.ringTurn n = true ∧ s.serviceStatus = none ∧ pktOp p = op ∧ packetCheck s n r.h p = none) :
    Serves s n r p op :=
  ⟨h.1, h.2.1, h.2.2.1, h.2.2.2.1, h.2.2.2.2.1, h.2.2.2.2.2.1, h.2.2.2.2.2.2.1, h.2.2.2.2.2.2.2⟩

theorem noneWaits_of (s : State) (c : Nat) (q : Ring) (h : (s.ctx c).ring = some q ∧ q.waiting = []) : noneWaits s c :=
  fun r hr => by
    have : q = r := Option.some.inj (h.1.symm.trans hr)
    exact this ▸ h.2

/-- An image that can be loaded: one empty queue, an empty slot plan, one provenance record. -/
def loadable : GraphImage :=
  { image [] with
    arithRev := 2, nprec := 1, recon := [], checkpoints := [], fallback := none, job := [0]
    tables := some SlotTables.init }

/-- A reply that waits. -/
def reply : Reply :=
  { status := 0, typ := 0, ctx := 1, seq := 0#32, frame := 0, time := 0#96, cycles := 0, noirq := true, frameEnd := false }

/-- A context ring whose next packet asks for a frame. -/
def stepping : State := withCtx { ctxRun [] with flags := 1 }

/-- Context 1 in frame 5; its frame 3 delivered its outputs. -/
def later : State := withCtx { ctxRun [] with frame := 5#32, outcomes := [(3, true)] }

/-- A partial line waits in BAR2. -/
def partialLine : State := { up with hif := { HostIf.init with bar2 := some (7, List.replicate 256 none) } }

/-- A record of one fragment waits for the host. -/
def fsr0 : Fsr := { num := 0, bytes := List.replicate 60 0#8, hostAck := 0, safetyAck := 0 }

/-- Its fragment is in channel 1. -/
def fsrOut : State :=
  { up with
    hoop := { up.hoop with fsrs := [fsr0], fragHost := true }
    mbox := Vector.replicate 64 { Mailbox.init with st := 1 } }

/-- The host has asked for the erasure of the recorder on channel 5. -/
def eraseAsked : State :=
  { mailed 0x02 0x03 1 with
    mbox := Vector.replicate 64 { Mailbox.init with st := 1, msg := 0x45524153#512 } }

theorem far_tail (r : Ring) (h : (admin (ctxIn .run)).ringOf 0 = some r) : 2 ^ r.sqLog2 < (17#32 - r.h).toNat := by
  have e : (admin (ctxIn .run)).ringOf 0 = some ring := by decide +kernel
  rw [← Option.some.inj (e.symm.trans h)]
  decide

theorem witness_doorbells_move_the_rings_1 :
    ∃ (s : State) (ring : Fin 4096) (v : Word) (r : Ring),
      s.power.phase ≠ .recovery ∧ s.ringOf ring.val = some r ∧ (v - r.h).toNat ≤ 2 ^ r.sqLog2 := by
  refine ⟨admin (ctxIn .run), 0, 16#32, ring, ?_, ?_, ?_⟩ <;>
    decide +kernel

theorem witness_doorbells_move_the_rings_2 :
    ∃ (s : State) (ring : Fin 4096) (v : Word),
      s.power.phase ≠ .recovery ∧ (∀ r, s.ringOf ring.val = some r → 2 ^ r.sqLog2 < (v - r.h).toNat) := by
  refine ⟨admin (ctxIn .run), 0, 17#32, ?_, far_tail⟩ <;>
    decide +kernel

theorem witness_doorbells_move_the_rings_3 :
    ∃ (s : State) (ring : Fin 4096) (_v : Word) (r : Ring),
      s.power.phase ≠ .recovery ∧ s.ringOf ring.val = some r := by
  refine ⟨withCtx (ctxIn .run), 1, 1#32, ring, ?_, ?_⟩ <;>
    decide +kernel

theorem witness_doorbells_move_the_rings_4 :
    ∃ (s : State) (ring : Fin 4096) (r : Ring) (rep : Reply),
      s.ringOf ring.val = some r ∧ s.protilUp = true ∧ r.waiting = [rep] ∧ rep.frameEnd = false ∧ rep.noirq = true ∧
        r.room = true ∧ r.rqHost = true ∧ r.rqAddr + 32 * (r.r.toNat % 2 ^ r.rqLog2) < 2 ^ 48 := by
  refine ⟨withCtx { ctxRun [] with ring := some { ring with waiting := [reply] } }, 1, { ring with waiting :=
    [reply] }, reply, ?_, ?_, ?_, ?_, ?_, ?_, ?_, ?_⟩ <;>
    decide +kernel

theorem witness_doorbells_move_the_rings_5 :
    ∃ (s : State) (ring : Fin 4096) (r : Ring),
      s.ringOf ring.val = some r ∧ r.waiting ≠ [] ∧ s.replyMay r = false ∧ recorderOpen s := by
  refine ⟨withCtx { ctxRun [] with ring := some { ring with waiting := [reply], r := 16#32 } }, 1, { ring with
    waiting := [reply], r := 16#32 }, ?_, ?_, ?_, ⟨by decide +kernel, by decide +kernel⟩⟩ <;>
    decide +kernel

theorem witness_packets_take_effect_and_are_answered_1 :
    ∃ (s : State) (ring : Fin 4096) (r : Ring) (p : Packet),
      Serves s ring.val r p 0x01 := by
  refine ⟨withCtx (ctxIn .run), 1, ring, pkt 0x01 [], serves _ _ _ _ _ (by decide +kernel)⟩

theorem witness_packets_take_effect_and_are_answered_2 :
    ∃ (s : State) (r : Ring) (p : Packet),
      Serves s 0 r p 0x12 ∧ fieldNat (p.extractLsb' 128 64) 3 4 = 0 ∧ s.storesWf = true := by
  refine ⟨admin (ctxIn .loaded), ring, pkt 0x12 [(8, 15), (16, 7)], serves _ _ _ _ _ (by decide +kernel), ?_, ?_⟩
    <;>
    decide +kernel

theorem witness_packets_take_effect_and_are_answered_3 :
    ∃ (s : State) (r : Ring) (p : Packet) (a b : Bool × Nat),
      Serves s 0 r p 0x13 ∧ (s.ctx (pktCtx p)).ring = none ∧ ringPlace (s.ctx (pktCtx p)).windows.toList (bytesNat p 8
        8) (2 ^ bytesNat p 24 1 / 4) false = some a ∧ ringPlace (s.ctx (pktCtx p)).windows.toList (bytesNat p 16 8) (2
        ^ bytesNat p 25 1 / 8) true = some b := by
  refine ⟨admin (windowed { ctxIn .loaded with ring := none }), ring, pkt 0x13 [(16, 0x1000), (24, 4), (25, 4),
    (26, 3)], (true, 0), (true, 0x1000), serves _ _ _ _ _ (by decide +kernel), ?_, ?_, ?_⟩ <;>
    decide +kernel

theorem witness_packets_take_effect_and_are_answered_4 :
    ∃ (s : State) (r : Ring) (p : Packet),
      Serves s 0 r p 0x14 ∧ noneWaits s (pktCtx p) := by
  refine ⟨admin (ctxIn .loaded), ring, pkt 0x14 [], serves _ _ _ _ _ (by decide +kernel), noneWaits_of _ _ ring
    (by decide +kernel)⟩

theorem witness_packets_take_effect_and_are_answered_5 :
    ∃ (s : State) (ring : Fin 4096) (r : Ring) (p : Packet),
      Serves s ring.val r p 0x21 ∧ s.storesWf = true := by
  refine ⟨withCtx (ctxIn .run), 1, ring, pkt 0x21 [(8, 1087), (12, 1)], serves _ _ _ _ _ (by decide +kernel), ?_⟩
    <;>
    decide +kernel

theorem witness_packets_take_effect_and_are_answered_6 :
    ∃ (s : State) (ring : Fin 4096) (r : Ring) (p : Packet),
      Serves s ring.val r p 0x22 ∧ s.storesWf = true := by
  refine ⟨withCtx (ctxIn .loaded), 1, ring, pkt 0x22 [(8, 1024), (12, 0x7FFFFFFF)], serves _ _ _ _ _
    (by decide +kernel), ?_⟩ <;>
    decide +kernel

theorem witness_packets_take_effect_and_are_answered_7 :
    ∃ (s : State) (r : Ring) (p : Packet),
      Serves s 0 r p 0x30 ∧ pktCtx p = 1 ∧ s.power.lmsLeaf < 1048576 := by
  refine ⟨admin (ctxIn .run), ring, pkt 0x30 [(8, 0x1000)], serves _ _ _ _ _ (by decide +kernel), ?_, ?_⟩ <;>
    decide +kernel

theorem witness_graph_load_fills_and_unload_frees_a_context_1 :
    ∃ (s : State) (r : Ring) (p : Packet) (img : GraphImage),
      Serves s 0 r p 0x10 ∧ s.storesWf = true ∧ imageCheck (s.takePacket 0 r) (withPrograms img) (pktCtx p)
        (loadParams p) = none := by
  refine ⟨admin (windowed Ctx.init), ring, pkt 0x10 [(16, 1), (20, 1), (24, 1), (36, 1024), (40, 8)], loadable,
    serves _ _ _ _ _ (by decide +kernel), ?_, ?_⟩ <;>
    decide +kernel

theorem witness_graph_load_fills_and_unload_frees_a_context_2 :
    ∃ (s : State) (r : Ring) (p : Packet),
      Serves s 0 r p 0x11 ∧ s.storesWf = true ∧ noneWaits s (pktCtx p) := by
  refine ⟨admin (ctxIn .loaded), ring, pkt 0x11 [], serves _ _ _ _ _ (by decide +kernel), ?_, noneWaits_of _ _
    ring (by decide +kernel)⟩ <;>
    decide +kernel

theorem witness_contexts_start_stop_run_and_abort_1 :
    ∃ (s : State) (r q : Ring) (p : Packet) (g : GraphImage),
      Serves s 0 r p 0x15 ∧ (s.ctx (pktCtx p)).ring = some q ∧ (s.ctx (pktCtx p)).img = some g ∧ provOk g (s.ctx
        (pktCtx p)).windows.toList = true := by
  refine ⟨admin (windowed { ctxIn .loaded with img := some loadable }), ring, ring, pkt 0x15 [], loadable, serves
    _ _ _ _ _ (by decide +kernel), ?_, ?_, ?_⟩ <;>
    decide +kernel

theorem witness_contexts_start_stop_run_and_abort_2 :
    ∃ (s : State) (r : Ring) (p : Packet),
      Serves s 0 r p 0x16 := by
  refine ⟨admin (ctxIn .run), ring, pkt 0x16 [], serves _ _ _ _ _ (by decide +kernel)⟩

theorem witness_contexts_start_stop_run_and_abort_3 :
    ∃ (s : State) (ring : Fin 4096) (r : Ring) (p : Packet),
      ring.val ≠ 0 ∧ Serves s ring.val r p 0x20 ∧ (s.ctx ring.val).step = true ∧ bytesNat p 8 4 = (s.ctx
        ring.val).nextReq.toNat ∧ (bytesNat p 12 1 = 0xFF ∨ (s.ctx ring.val).scripted = true) ∧ (s.ctx
        ring.val).run.isSome = true := by
  refine ⟨stepping, 1, ring, pkt 0x20 [(12, 0xFF)], ?_, serves _ _ _ _ _ (by decide +kernel), ?_, ?_, ?_, ?_⟩ <;>
    decide +kernel

theorem witness_contexts_start_stop_run_and_abort_4 :
    ∃ (s : State) (ring : Fin 4096) (r : Ring) (p : Packet),
      Serves s ring.val r p 0x23 ∧ (s.ctx (pktCtx p)).state = .run ∧ (s.ctx (pktCtx p)).run.isSome = true ∧ bytesNat p
        8 4 = (s.ctx (pktCtx p)).frame.toNat := by
  refine ⟨withCtx (ctxIn .run), 1, ring, pkt 0x23 [], serves _ _ _ _ _ (by decide +kernel), ?_, ?_, ?_⟩ <;>
    decide +kernel

theorem witness_contexts_start_stop_run_and_abort_5 :
    ∃ (s : State) (ring : Fin 4096) (r : Ring) (p : Packet) (o : Nat × Bool),
      Serves s ring.val r p 0x23 ∧ (s.ctx (pktCtx p)).state = .run ∧ bytesNat p 8 4 < (s.ctx (pktCtx p)).frame.toNat ∧
        (s.ctx (pktCtx p)).outcomes.find? (fun y => y.1 == bytesNat p 8 4) = some o := by
  refine ⟨later, 1, ring, pkt 0x23 [(8, 3)], (3, true), serves _ _ _ _ _ (by decide +kernel), ?_, ?_, ?_⟩ <;>
    decide +kernel

theorem witness_admin_ring_and_bar_accesses_1 :
    ∃ (s : State) (m : Byte) (v : Word),
      (m = 1#8 ∨ m = 2#8) ∧ s.reaches m.toNat 0 = true ∧ bitAt v 8 = true ∧ s.hif.en = false ∧ 4 ≤ fieldNat v 0 4 ∧
        fieldNat v 0 4 ≤ 12 ∧ 4 ≤ fieldNat v 4 4 ∧ fieldNat v 4 4 ≤ 12 := by
  refine ⟨up, 1#8, 0x1C4#32, ?_, ?_, ?_, ?_, ?_, ?_, ?_, ?_⟩ <;>
    decide +kernel

theorem witness_admin_ring_and_bar_accesses_2 :
    ∃ (s : State) (m : Byte) (v : Word),
      (m = 1#8 ∨ m = 2#8) ∧ s.reaches m.toNat 0 = true ∧ bitAt v 8 = false := by
  refine ⟨up, 2#8, 0x0C4#32, ?_, ?_, ?_⟩ <;>
    decide +kernel

theorem witness_admin_ring_and_bar_accesses_3 :
    ∃ (s : State) (l : Nat) (b : List Byte),
      s.hamperReset = false ∧ l < hamperLines ∧ b.length = 256 ∧ s.hif.bar2 = none ∧ s.storesWf = true ∧ s.hostGrant
        true l = true := by
  refine ⟨up, 524287, List.replicate 256 0xA5#8, ?_, ?_, ?_, ?_, ?_, ?_⟩ <;>
    decide +kernel

theorem witness_admin_ring_and_bar_accesses_4 :
    ∃ (s : State) (l off : Nat) (b : List Byte),
      s.hamperReset = false ∧ l < hamperLines ∧ off + b.length ≤ 256 ∧ (b.length < 256 ∨ s.hostGrant true l = false) ∧
        s.hif.bar2 = none := by
  refine ⟨up, 524287, 1, List.replicate 255 0xA5#8, ?_, ?_, ?_, ?_, ?_⟩ <;>
    decide +kernel

theorem witness_admin_ring_and_bar_accesses_5 :
    ∃ (s x : State) (l : Nat) (ups : List Upset),
      s.hamperReset = false ∧ l < hamperLines ∧ s.hostGrant false l = true ∧ x = s.seenAs (s.periodReads none ups) := by
  refine ⟨up, _, 524287, [], ?_, ?_, ?_, rfl⟩ <;>
    decide +kernel

theorem witness_admin_ring_and_bar_accesses_6 :
    ∃ (s : State),
      s.hif.bar2.isSome = true ∧ s.lineWaits = false := by
  refine ⟨partialLine, ?_, ?_⟩ <;>
    decide +kernel

theorem witness_admin_ring_and_bar_accesses_7 :
    ∃ (_s : State) (_bar4 _w : Bool) (off len : Nat) (_v : Word),
      (len ≠ 4 ∨ off % 4 ≠ 0) := by
  refine ⟨up, true, false, 65535, 4, 7#32, ?_⟩ <;>
    decide +kernel

theorem witness_admin_ring_and_bar_accesses_8 :
    ∃ (_s : State) (off : Nat) (_v : Word),
      off % 4 = 0 ∧ off < 0x10000 := by
  refine ⟨up, 65532, 7#32, ?_, ?_⟩ <;>
    decide +kernel

theorem witness_admin_ring_and_bar_accesses_9 :
    ∃ (s : State) (_v : Fin 64),
      s.power.phase = .recovery := by
  refine ⟨{ up with power := { up.power with phase := .recovery } }, 63, ?_⟩ <;>
    decide +kernel

theorem witness_admin_ring_and_bar_accesses_10 :
    ∃ (s : State) (_v : Fin 64),
      s.power.phase ≠ .recovery := by
  refine ⟨up, 0, ?_⟩ <;>
    decide +kernel

theorem witness_endpoint_resets_and_link_1 :
    ∃ (s : State),
      s.storesWf = true ∧ (∀ c, (s.ctx c).run = none) := by
  refine ⟨up, ?_, (fun c => rfl)⟩ <;>
    decide +kernel

theorem witness_endpoint_resets_and_link_4 :
    ∃ (s : State) (w v : Nat),
      s.hif.perstLow = false ∧ (w = 1 ∨ w = 2 ∨ w = 4) ∧ 1 ≤ v ∧ v ≤ 5 ∧ s.power.st ≠ 5 := by
  refine ⟨up, 4, 5, ?_, ?_, ?_, ?_, ?_⟩ <;>
    decide +kernel

theorem witness_mailboxes_ring_and_acknowledge_1 :
    ∃ (s : State) (m : Byte) (ch : Fin 64) (v : Word),
      s.reaches m.toNat 0x800000 = true ∧ s.isSender ch m.toNat = true ∧ bitAt v 0 = true ∧ (s.chan ch).st ≠ 1 ∧
        (s.binding ch.val).2 < 0x10 := by
  refine ⟨mailed 0x03 0x02 2, 0x03#8, 5, 1#32, ?_, ?_, ?_, ?_, ?_⟩ <;>
    decide +kernel

theorem witness_mailboxes_ring_and_acknowledge_2 :
    ∃ (s : State) (m : Byte) (ch : Fin 64) (v : Word),
      s.reaches m.toNat 0x800000 = true ∧ s.isSender ch m.toNat = true ∧ bitAt v 0 = true ∧ (s.chan ch).st = 1 := by
  refine ⟨mailed 0x03 0x02 1, 0x03#8, 5, 1#32, ?_, ?_, ?_, ?_⟩ <;>
    decide +kernel

theorem witness_mailboxes_ring_and_acknowledge_3 :
    ∃ (s : State) (m : Byte) (ch : Fin 64) (_v : Word),
      s.reaches m.toNat 0x800000 = true ∧ m.toNat ≠ (s.binding ch.val).1 ∧ m.toNat ≠ (s.binding ch.val).2 ∧ m.toNat <
        0x10 := by
  refine ⟨mailed 0x03 0x02 1, 0x01#8, 5, 1#32, ?_, ?_, ?_, ?_⟩ <;>
    decide +kernel

theorem witness_mailboxes_ring_and_acknowledge_4 :
    ∃ (s : State) (m : Byte) (ch : Fin 64) (_v : Word),
      s.reaches m.toNat 0x800000 = true ∧ s.isReceiver ch m.toNat = true ∧ (s.chan ch).st = 1 ∧ s.hoop.fsrs = [] ∧
        s.fragmentOn ch = none ∧ linksIdle s := by
  refine ⟨mailed 0x03 0x02 1, 0x02#8, 5, 1#32, ?_, ?_, ?_, ?_, ?_, links_idle _ (by decide +kernel)⟩ <;>
    decide +kernel

theorem witness_mailboxes_ring_and_acknowledge_5 :
    ∃ (s : State) (_h : Bool),
      s.power.st = 5 := by
  refine ⟨{ up with power := { up.power with st := 5 } }, true, ?_⟩ <;>
    decide +kernel

theorem witness_mailboxes_ring_and_acknowledge_6 :
    ∃ (s : State) (h : Bool) (f : Fsr),
      s.hoopRuns = true ∧ s.fragmentOn (fsrChannel h) = some h ∧ (s.chan (fsrChannel h)).st = 1 ∧ s.hoop.fsrs = [f] ∧
        f.acked h + 1 = f.count ∧ s.fsrBound (!h) = false ∧ linksIdle s := by
  refine ⟨fsrOut, true, fsr0, ?_, ?_, ?_, ?_, ?_, ?_, links_idle _ (by decide +kernel)⟩ <;>
    decide +kernel

theorem witness_mailboxes_ring_and_acknowledge_7 :
    ∃ (s : State) (ch : Fin 64),
      (s.binding ch.val).1 ≠ 0 ∧ (s.binding ch.val).2 = 0x03 ∧ (s.chan ch).st = 1 ∧ s.evr.erasing = false ∧ s.evr.prog
        = none ∧ s.hoopRuns = true ∧ fieldNat (s.chan ch).msg 0 32 = 0x45524153 ∧ fieldNat (s.chan ch).msg 32 32 =
        s.evr.count := by
  refine ⟨eraseAsked, 5, ?_, ?_, ?_, ?_, ?_, ?_, ?_, ?_⟩ <;>
    decide +kernel

theorem witness_register_writes_follow_their_masters_1 :
    ∃ (s : State) (m : Byte) (_x : Fin 131072) (_a : BitVec 31),
      (m = 2#8 ∨ m = 3#8) ∧ s.storesWf = true := by
  refine ⟨up, 3#8, 131071, 5#31, ?_, ?_⟩ <;>
    decide +kernel

theorem witness_register_writes_follow_their_masters_2 :
    ∃ (_s : State) (m : Byte) (_x : Fin 131072) (_a : BitVec 31),
      m ≠ 2#8 ∧ m ≠ 3#8 := by
  refine ⟨up, 1#8, 131071, 5#31, ?_, ?_⟩ <;>
    decide +kernel

theorem witness_register_writes_follow_their_masters_3 :
    ∃ (s : State) (m : Byte) (n : Fin 16) (_v : Word),
      (m = 2#8 ∨ m = 3#8) ∧ s.enabled (.tc n) = true := by
  refine ⟨up, 2#8, 15, 1#32, ?_, ?_⟩ <;>
    decide +kernel


/-! ### Safety, power and time -/

/-- The power unit and Hoop of a machine in operation with other values. -/
def powered (p : PowerState) : State := { up with power := { p with phase := .up } }
@[inherit_doc powered] def hooped (h : HoopState) : State :=
  { up with hoop := { h with startupDone := true, minHold := false, errOut := false } }

/-- Three whole copies of each table; RESET_MAX is 15. -/
def tables0 : Vector (Vector TableCopy 3) 3 :=
  #v[#v[writeCopy 0 0#1024, writeCopy 0 0#1024, writeCopy 0 0#1024],
    #v[writeCopy 1 0#1024, writeCopy 1 0#1024, writeCopy 1 0#1024],
    #v[writeCopy 2 15#1024, writeCopy 2 15#1024, writeCopy 2 15#1024]]

theorem tables_whole (s : State) (h : s.hoop.tables = tables0) : ∀ x, s.checkTable x = .whole := by
  intro x
  match x with
  | 0 => exact checkTable_whole s 0 0#1024 (by rw [h]; rfl)
  | 1 => exact checkTable_whole s 1 0#1024 (by rw [h]; rfl)
  | 2 => exact checkTable_whole s 2 15#1024 (by rw [h]; rfl)

/-- The machine in operation with its tables written. -/
def booted : State :=
  { hooped { HoopState.init with tables := tables0, table0 := some 0#16, table1 := some 0#1024, table2 := some 15#32 } with
    id := { Identity.init with tcEn := 0xFFFF#16 } }

/-- What the copies of `tables0` hold. -/
def tableVal (x : Fin 3) : BitVec 1024 := if x = 2 then 15#1024 else 0#1024

theorem tables_passing (s : State) (h : s.hoop.tables = tables0) (x : Fin 3) : s.passing x = some (tableVal x) := by
  match x with
  | 0 => exact passing_first s 0 _ _ _ (by rw [h]; rfl)
  | 1 => exact passing_first s 1 _ _ _ (by rw [h]; rfl)
  | 2 => exact passing_first s 2 _ _ _ (by rw [h]; rfl)

theorem tables_used (s : State) (h : s.hoop.tables = tables0) (hu : ∀ x, s.useTable x (tableVal x) = s) :
    tablesInUse s := fun x _ _ hv => Option.some.inj ((tables_passing s h x).symm.trans hv) ▸ hu x

theorem booted_uses : ∀ x, booted.useTable x (tableVal x) = booted := by decide +kernel

/-- One copy of table 0 holds another value. -/
def split : State :=
  hooped { HoopState.init with
    tables := tables0.set 0 #v[writeCopy 0 1#1024, writeCopy 0 0#1024, writeCopy 0 0#1024] }

theorem split_divergent : split.checkTable 0 = .divergent :=
  checkTable_divergent split 0 0#1024 1#1024 (by decide +kernel) rfl

theorem split_whole : ∀ y ∈ split.lockedTables, y ≠ 0 → split.checkTable y = .whole := by
  intro y _ hy
  match y with
  | 0 => exact absurd rfl hy
  | 1 => exact checkTable_whole split 1 0#1024 rfl
  | 2 => exact checkTable_whole split 2 15#1024 rfl

/-- A compute-domain reset is due; context 1 runs a frame. -/
def resetting : State := { booted with hoop := { booted.hoop with inReset := true }, ctxs := [(1, ctxRun [])] }

theorem resetting_uses : ∀ x, resetting.useTable x (tableVal x) = resetting := by decide +kernel

theorem resetting_noWrites : noWrites resetting := by
  intro u
  simp [State.unit, resetting, booted, hooped, up, State.reset, UnitState.init]

theorem resetting_preludes (c : Nat) (g : GraphImage) (h : (resetting.ctx c).img = some g) : g.prelude = [] := by
  have e : resetting.ctx c = if 1 = c then ctxRun [] else Ctx.init := by
    by_cases hc : 1 = c <;> simp [State.ctx, resetting, sparseGet, hc]
  rw [e] at h
  split at h
  · exact (Option.some.inj h) ▸ rfl
  · exact nomatch h

/-- A signed configuration. -/
def config : SignedConfig :=
  { ddrCfg := 0#32, fabCfg := 0#32, dspCfg0 := 0#32, dspCfg1 := 0#32, ethCfg := [], binding := [], resetMax := 15,
    resetWindowS := 0, evrSlots := 100, parkDram := false, commitSvn := false, gptpDomain := 0 }

/-- The header of an image of one byte with a configuration of one byte, signed outside the model under a P-384 key and an LMS key:
in parts of 48 bytes, the rest zero. -/
def goodParts : List Nat :=
  [0x23c8bffc81c4fb429f6710a7b75c9304000000000000000000000001000000010000000100000007000000014c545250,
   0xbf04817a487c227003835f7475e01b6b3b19b3263f8a4fd08cd43c24eed5a45f88e555a89cc9de93d814190f71d83cf0,
   0x9e3b9998a33620117c2a4a5899eed5af99ac4cd9d7c2c7ebc5e7bcdb6e041701e4,
   0xea1f9e7102684685ed0e4e0a81700b9e48ab9a9705717984030000000700000000000000000000000000000000000000,
   0xfd83e7b20b57d55fd8897381bb2507911d0c8fec185e6ac,
   0x63e95e315638a92dae72da0c9c7d914567b32c0a24c23520eef010d21938532700000000000000000000000000000000,
   0x27648cea754d633aa3852e693cb8116d3e3888aae5ae6090c2851a33c975c59b3d8076978ae54a397e58afa1e8b74185,
   0x3bf9a3e8b89745c3300d5a6b0f855668,
   0x0,
   0x0,
   0x3000000050000000000000000000000000000000000000000000000000000000000000000000000,
   0x41662e85f1b742e94dcb883f850c48249d95b24f3ea3838bd97c02000000000000000000000000000000000000000000,
   0x6caf062d0a6359f4c45471e33a779efa09bc734cf9317f97ce85ffe8f6298f8c48a5895567f93b277f1831ea0a411722,
   0xa46d296f8c1710a2946279f807b0f5349e8a3fe95313a15a9f16e91ecb2cc7ffe5acee12530788b81744fbb2ed5d2d0b,
   0xa6be9262d835b07421e82983f66c5d03a124652d46d92a4a848f259ce5cbb25048bb93ba8c956726fa7bbdc5b1641e89,
   0x7d0b9ceb8280aa727b6ae0e71a7938038af60bafdab443d85cf843692f1158a1a05936ca34aa2f43f22735c903037266,
   0x8be225d060320c566ce7ecbbd44da02fc13e3464843933f670920ee21e21d576f52a727b64e08975dfb76bed09f31598] ++
  [0x75da4bb0ca5ff8f5af33e996f327516c05d82c09def1fafa0e46776568d6b0398ba8ba919562996578b73b420e8bd0cc,
   0x2b654d671e476a66cecdf7e7509122c66dab080f6f13612953ca9eae2fc32b6c47cc2bb3339f1999bed6e61290bfbe36,
   0x3eec999f5364770613dacbb8541ed81a4112ab26ca9cae55b4cf369b2e1f0fe851d95782dd70aae0ff33bfa15750c84c,
   0xad3e31892021e996d17679ca986e6e768d1c6f2f14b54267dd612610384cb4cb16e13d6e6f908b91f0e2fc4c2f76ca8,
   0x4577f9823d8fb7b0e95b1e2e13a045c3211029763a546e29122aa04ebdf928c4d5ecde62bf1903834eee8dfbb0b190d9,
   0xe585d5c37104e001cc3c7de5aa2ee4eb9b844bf0b5c81c8cb5f590cdf0d211f1045c4da817755b6b19826b174e78bccb,
   0x8f9a6d9cdb226a8a2ea59cc3d09cb67193e2a3a1c90b27dd8950eeb4c7e04a37366b5edec43dcc5c78a4b24192854b08,
   0x1ce62864a60c843d13b917d798e5da2e1fbdd94910e2fe16afd0646dc56db16b502fd939e08cd4bf2b585e4acd0bdd88,
   0x117d87f02eca43a2e855f9ec0c310e010f21352030c8edfe9b602ff9429ed6a166b1529de326cb2f17974e32c2b9f2e4,
   0x359d488079e8d99fa1576b16fe5d72d6e0212c971c176e5da17ba70fa67b30fe1866f9f33bc82c172d27a5cbded15011,
   0xd4c6f4f0b4d42accdd72b65be023ea50382d801d2de974808f714834c338046ef2bc66a7f85cd42fb6b6a76481c85b3a,
   0x67e78b324b5d5cbb8573eafe4cea9ca7717b5537e9573dc6b888455dfb895098590c27497075442a268454792472f33d,
   0xd6e7f3c802f4ddb25a20222f27b8bba54c015eb6318d48a72765ac5d7ea63a42a73d92ceccee11adad1e2531d5321e14,
   0x547ec24bfe792d9086a4edc770aae16a8bb5dc0e11f3e67409430a3e3d2e59a4f93adfc9cc1299a4eb2ad3925c1d35f5,
   0x2f0a2c1a738ec6a9b4f63b4b8d8b0681ad6954a1c26d88238b9b35d97a3fafcfd09be1bae57de828544b0277f65cc413,
   0xb93314d24904d9b58bb67f5fa065ab5fbbc8d6cfc5f737d27d871448fa986ce9ecda186f591444e8aee7485ff898cb63,
   0x41a0b55866a9acfae775c87ede24a72c0e5cdefca273b8d6d63e7c2bddb96c9b869459e7aa36fdddc5a34e40b0d37228] ++
  [0xdaac478b891761bce5d8eef9a66ed3a94e2d91a7da2755c75b04d8c16314a4eb844883c1141a4730573fa3ea862303d,
   0x7ccd5eacad3e591a5194e77db6193a7d58dbc157be9c641dd710dcfded69da735572a552f14ecaaf5188b139a699db8b,
   0xacd5154d85056850f09a341518ec7d5e1035f1bfafced37dafd5d1b32ff9127cded58a91f42747a9c4ab20caa2ec2506,
   0x52314f2b775160125b9c4bf66979f9cf099009efe3181bf5076287e8a9ffdf197cd3fc2c1abf07ea60035b36bc380913,
   0x14404f221eac7355349be06338467c70ee882fb298f1783524f5f8547c1fb289ea06e35f84afec0d3b68aeeca5026d8c,
   0x1e1bfd2492c7a10d2e4fb723f25efd6d7d65ff50f1be356e002569cb2042b974b97c042620fece7cd467ea72a7a9d6e3,
   0xd6b1ec064a1d54b15632d006ba7d82f6e5e790d92cac7eb7ada8c54556a378191d263a56a4e764795086ebf2df17b71d,
   0x552dcd81007b3d821f8e41df63ff8fbfef290f187f5d7717915402ac9972435253c6dfed4062b36fcd3dd4f74b6a8b88,
   0x637a6c6b8c2fb2ff66220dbaf9d01f377bb9fc3e72f1f06c5086cc294f964a744de4a44005b63f7a50820cc75f8dac2e,
   0x60bcf9ef9565598fdad0dda771863b3eac58aeb84705536b5f34b48bfbc3e2fd587449c7a591417b33114f51e83b5027,
   0xadc0f745185e2e7451afd44bf680cc9a27ff50cec77e8b86a46c4a5428a215b72a2342aa8d3b29735bd8856a1dd5beb2,
   0x27754dc6d647b2e92d24d1f21089aa728c9b98e4752209812e51268b2abbf6c7ecdaa0c5fc2a8e0e71a2cc604225b69c,
   0x1a237ffc80058685a4c2a1db22c11ca2973223352e8e55b9ee3960b6b2b63c382ecf12e9f9512926df3fad9150bad34b,
   0x29db81fd642473c14486c10f6d89c9edf4e06113e5f15be1a8419f61da9955353617254d794aa4664cc6e1dd374ec4dc,
   0xb983832ede3c3c2babba88a2ffc40e728cc6db1aebffa3b5b9198cb872db660b13fe0e0e3032ca23db24eb5e523ef7e0,
   0xc911755195cef3fa4fedebd819078930aa6575ea23507f6fe408fbd2ccdf754c3943505aa78f5c43f5ee702ef1abad19,
   0xf0a06a75b64299ee3ac0fbde41722f156dc913d8b7dd2e7231a27dbbc567cdd2265336bffa9cf606c1022f659a292571] ++
  [0x559919e1e2d0a756901917cd15f8cd0387cf6224ccd7857e8e5631a6877021b5819cbeba853713ce1dae817ab404bd19,
   0x6b9d93bea63d3edad0ba46edeca27836de2dbccc6019ae3a3fe68c5aa86cf498ec14ca60aa2032486f01a2d9e2201c78,
   0x16410d8c1dd3c12760886b28b498e4172dea4e995a8d98042143f1f7888eb2917d8f09bd6014e4e510d841488537ba94,
   0xe320174703056d78104cf9dfbad19cb76dca40efea9d0ee5a5fd536563b521829b604dc14af00171cb0583fdada875f6,
   0x31637ef172e94587538d67e90627d493ac1dd46482bead500b5d9afd25318f988fc46c2d5497e5dcc90d5a6e66719ce2,
   0x7d7a055b7a824ec9183a17c9047c3e2f33a37424f4a3cc1610bdcf76490bff28e83ef307070000004cce4c85be03dd02,
   0x979bf90bda6ad059fdb95eca73ddce434079cc48dee93b9137d43a6e34c482da650f1e1385ebeeedcf13d0c6894b353b,
   0xf16f0e8969714b1dc50b891c68caaa7100066be8617221c890ceba3357ab1afe29ec1da03628fb44e26bf17bff9c273f,
   0x2962b008ddbfe1b563c43e84d1ce3ab515d569504e4d1028ec2d5d2edf68b0753c5f134f3192bf2f0b613758eb45b2f6,
   0x9b8698154b2ad190db4be49a28a040003c1a0dd2966355004912e5cc15c01ccf55a478d54b0ab2cf16aed36c1cd2c46c,
   0x366389320a008e2a1467506dba94d6bf56a2058837d1ac724fd62a6502f2078b6f94e68bcdab3a3f0bf49dc18526a1e3,
   0x2dd1d0e00bb3090ceb7fab64caa6acdb94872ed349680e4b25b4c6585d72519c6779c0f7d6a83cd68121010bb7fcfe3d,
   0x14797eaaa09ea41deb078ccc7867310e456d034ddd6801d005d3957cabbed7f0a17d42fe12f8b87086571658097d7a48,
   0x74311193d948687fec6f5166415fdb432f61397e9cdbbbaca428b46f07c3b21e924fcb897d991afe297e3db3a5834b90,
   0xa1ed7c0534d3c021de645cdfda7cc148b6fbc3d637b14ed19a79d6cab2af5b52769cb9dfc6114b50332c07351c7796bf,
   0x6a1f8fadbd3028915d22ebb7]

@[inherit_doc goodParts] def goodHeader : BitVec 32768 := BitVec.ofNat 32768 (goodParts.foldr (fun c a => c + 2 ^ 384 * a) 0)

/-- An image that passes every check where the hashes of its keys are fused. -/
def goodImage : FwImage := { header := goodHeader, code := [0x2A#8], cfg := [0x17#8], fits := true, config := config }

/-- The fuses of a part that takes that image. -/
def keyed : Identity :=
  { Identity.init with
    keyHashEc := 0x5d480a9d4a6a6ac57b13596b52d72af1066b4847d82121b5d0e974afb074237749f8a72f0989fbf7944fda274ed107f7#384
    keyHashLms := 0x8fbae674b3538d7398d07a36d7591c78f38e09c5da2cfe87eafdf51ff9bd477d#256 }

/-- `resetting` on that part, whose image is to come from the NOR. -/
def reloading : State := { resetting with id := keyed }

@[inherit_doc reloading] def reload (n : Option FwImage) : ResetInput := { flips := [], imageOk := false, nor := n, us := 5, tallyFails := [] }

theorem reloading_uses : ∀ x, reloading.useTable x (tableVal x) = reloading := by decide +kernel

theorem reloading_goesOn (n : Option FwImage) : resetGoesOn reloading (reload n) := by
  refine ⟨?_, ?_, ?_, ?_, ?_, rfl, ?_, ?_, ?_, tables_whole reloading rfl, tables_used reloading rfl reloading_uses, ?_⟩ <;>
    decide +kernel

theorem goodHeader_ok : headerOk goodHeader = true := by decide +kernel

theorem goodKeys_ok : ({ State.reset with id := keyed }).keysOk goodHeader = true := by decide +kernel

theorem goodImage_hash : imageHash goodImage = 0xc24fe9bc026223e7e4b7280839656b3de965f63e084d9eb24da4759ecd27c084dc17816962d2468059f1c715c3885ef6 := by
  decide +kernel

theorem goodImage_ec : imageEcOk goodImage = true := by
  rw [imageEcOk, goodImage_hash]
  decide +kernel

theorem goodImage_lms : imageLmsOk goodImage = true := by decide +kernel

theorem good_passes (s : State) (h : s.id = keyed) (hs : s.fusedSvn ≤ 1) : s.imageError goodImage = none := by
  have hk : s.keysOk goodHeader = true := by
    rw [← goodKeys_ok]
    simp only [State.keysOk, h]
  have hl : goodImage.code.length = codeLen goodHeader ∧ goodImage.cfg.length = cfgLen goodHeader := by decide +kernel
  have hv : bytesNat goodHeader 12 1 = 1 := by decide +kernel
  have hh : goodImage.header = goodHeader := rfl
  simp [State.imageError, hh, goodHeader_ok, hk, goodImage_ec, goodImage_lms, hl.1, hl.2, hv, show goodImage.fits = true from rfl]
  omega

theorem reloading_reads : reloading.readNor (some goodImage) = .ok goodImage := by
  have h : reloading.imageError goodImage = none := good_passes reloading rfl (by decide +kernel)
  have e : reloading.power.norImage.getD goodImage = goodImage := rfl
  simp [State.readNor, h, e]

/-- What a boot meets. -/
def bootInput (n : Option FwImage) : BootInput :=
  { nor := n, avsAck := true, trainOk := true, tallyFails := [], miswrites := [] }

/-- PCIe recovery with that image in the first 17 lines of the hamper. -/
def recovery : State :=
  { withLines ((List.range 13).map (fun i => (i, goodHeader.extractLsb' (2048 * i) 2048)) ++ [(16, 0x172A#2048)]) with
    id := keyed
    power := { PowerState.init with phase := .recovery, recovery := true } }

theorem recovery_image : recovery.hamperImage 17 goodImage = goodImage := by decide +kernel

theorem recovery_ok : recovery.imageError (recovery.hamperImage (fieldNat 0x80000011#32 0 16) goodImage) = none := by
  rw [show fieldNat 0x80000011#32 0 16 = 17 from by decide, recovery_image]
  exact good_passes recovery rfl (by decide +kernel)

/-- An anti-rollback bit waits; the admin ring is enabled. -/
def svnWaits : State :=
  { powered { PowerState.init with svnPending := true } with hif := { HostIf.init with en := true } }

/-- A unit in a state of its fence. -/
def fenced (f : FenceState) : State := up.setUnit (.mv 7) { up.unit (.mv 7) with fence := f }

/-- An event. -/
def event : Event := { source := 1, code := 2, seq := 0#32, time := 0#96, data := 0#192 }

/-- The recorder with that event in its queue. -/
def queued : State := { up with evr := { up.evr with queue := [event], count := 97 } }

/-- The recorder with a record whose COMMIT word is not programmed yet. -/
def programming : State := { up with evr := { up.evr with prog := some (0#512, 60), count := 99 } }

/-- The recorder with the record of an erasure, which acknowledges its request. -/
def erased : State := { up with evr := { up.evr with prog := some (0#512, 60), eraseAck := true, eraseCh := 63 } }

/-- The recorder while it erases. -/
def erasing : State := { up with evr := { up.evr with erasing := true, eraseCh := 63 } }

/-- A step of the largest size is staged. -/
def stepStaged : State := { up with tu := { TimeUnit.init with stepNs := 999999999#32 } }

theorem witness_slowed_clocks_are_entered_and_left_1 :
    ∃ (s : State),
      s.rootOn = true ∧ s.power.halved = false ∧ recorderOpen s := by
  refine ⟨up, ?_, ?_, ⟨by decide +kernel, by decide +kernel⟩⟩ <;>
    decide +kernel

theorem witness_slowed_clocks_are_entered_and_left_3 :
    ∃ (s : State),
      s.power.halved = true ∧ s.power.warnLow = false ∧ s.power.st ≠ 5 ∧ recorderOpen s := by
  refine ⟨powered { PowerState.init with halved := true }, ?_, ?_, ?_, ⟨by decide +kernel, by decide +kernel⟩⟩ <;>
    decide +kernel

theorem witness_slowed_clocks_are_entered_and_left_4 :
    ∃ (s : State) (uv : Nat),
      s.rootOn = true ∧ 100 * uv < 94 * s.coreTarget := by
  refine ⟨up, 1, ?_, ?_⟩ <;>
    decide +kernel

theorem witness_slowed_clocks_are_entered_and_left_5 :
    ∃ (s : State) (uv _n : Nat),
      94 * s.coreTarget ≤ 100 * uv := by
  refine ⟨up, 4000000, 17, ?_⟩ <;>
    decide +kernel

theorem witness_slowed_clocks_are_entered_and_left_6 :
    ∃ (s : State),
      s.power.stretch = true ∧ s.hoopRuns = true ∧ s.hoop.railHold = false ∧ s.hoop.inReset = false ∧ s.serviceStatus
        = none := by
  refine ⟨powered { PowerState.init with stretch := true }, ?_, ?_, ?_, ?_, ?_⟩ <;>
    decide +kernel

theorem witness_slowed_clocks_are_entered_and_left_7 :
    ∃ (s : State),
      s.dram.ready = true ∧ s.dram.selfRefresh = false := by
  refine ⟨{ up with dram := { DramState.init with ready := true } }, ?_, ?_⟩ <;>
    decide +kernel

theorem witness_faults_hold_the_compute_domain_1 :
    ∃ (s : State) (r : Rail) (uv : Nat),
      (uv < (s.railHold r).1 ∨ (s.railHold r).2 < uv) ∧ s.hoopRuns = true ∧ s.hoop.railHold = false ∧ s.hoop.inReset =
        false ∧ s.serviceStatus = none := by
  refine ⟨up, .ao, 739999, .inl (by decide +kernel), ?_, ?_, ?_, ?_⟩ <;>
    decide +kernel

theorem witness_faults_hold_the_compute_domain_2 :
    ∃ (s : State),
      s.hoop.tempOver = false ∧ s.power.stretch = false ∧ s.hoopRuns = true := by
  refine ⟨hooped { HoopState.init with railHold := true }, ?_, ?_, ?_⟩ <;>
    decide +kernel

theorem witness_faults_hold_the_compute_domain_3 :
    ∃ (s : State) (q : List Int),
      q.length = 24 ∧ s.hoopRuns = true := by
  refine ⟨up, List.replicate 24 125, ?_, ?_⟩ <;>
    decide +kernel

theorem witness_faults_hold_the_compute_domain_4 :
    ∃ (s : State) (_f _a _c _k : Nat),
      s.rootOn = true ∧ s.hoopRuns = true ∧ s.hoop.clockHold = false ∧ s.hoop.inReset = false ∧ s.serviceStatus = none
        := by
  refine ⟨up, 11000, 22000, 5500, 4000, ?_, ?_, ?_, ?_, ?_⟩ <;>
    decide +kernel

theorem witness_faults_hold_the_compute_domain_5 :
    ∃ (s : State) (f a c k : Nat),
      s.rootOn = true ∧ s.hoopRuns = true ∧ s.hoop.clockHold = true ∧ s.windowFaults f a c k = [] := by
  refine ⟨hooped { HoopState.init with clockHold := true, goodWindows := 99 }, 11000, 22000, 5500, 4000, ?_, ?_,
    ?_, ?_⟩ <;>
    decide +kernel

theorem witness_faults_hold_the_compute_domain_6 :
    ∃ (s : State),
      s.rootOn = true ∧ s.hoopRuns = true ∧ s.hoop.clockHold = false ∧ s.hoop.inReset = false ∧ s.serviceStatus = none
        := by
  refine ⟨up, ?_, ?_, ?_, ?_, ?_⟩ <;>
    decide +kernel

theorem witness_faults_hold_the_compute_domain_7 :
    ∃ (s : State),
      s.hoopRuns = true ∧ s.hoop.inReset = false ∧ s.serviceStatus = none := by
  refine ⟨up, ?_, ?_, ?_⟩ <;>
    decide +kernel

theorem witness_faults_hold_the_compute_domain_8 :
    ∃ (s : State),
      s.power.st ≠ 5 := by
  refine ⟨up, ?_⟩ <;>
    decide +kernel

theorem witness_faults_hold_the_compute_domain_9 :
    ∃ (s : State) (_ack : Bool) (_a _b : Nat),
      s.power.phase = .up ∧ s.power.st < 3 ∧ s.hoop.hoopLs = false := by
  refine ⟨up, true, 1, 2, ?_, ?_, ?_⟩ <;>
    decide +kernel

theorem witness_hangs_fence_and_reset_the_unit_1 :
    ∃ (s : State) (u : UnitId) (p : Placed) (_k : Fin 12),
      s.computeUp = true ∧ s.hoop.inReset = false ∧ (∀ i, u ≠ .skp i) ∧ (∀ i, u ≠ .rid i) ∧ (s.unit u).run = some p ∧
        p.stage = .running ∧ (∃ fb q pos, p.origin = .queue fb q pos) ∧ (s.unit u).fence = .open_ ∧
        s.halfWaits u = false := by
  refine ⟨running up (.coil 0) (placed voxHdr), .coil 0, placed voxHdr, 11, ?_, ?_, ?_, ?_, ?_, ?_, ⟨false, 0, 0,
    rfl⟩, ?_, ?_⟩ <;>
    decide +kernel

theorem witness_hangs_fence_and_reset_the_unit_2 :
    ∃ (s : State) (_k : Fin 12),
      s.power.phase = .up ∧ s.power.st < 3 ∧ s.hoopRuns = true ∧ s.held = false ∧ s.serviceStatus = none ∧ 4 ≤
        s.hoop.sinceKick := by
  refine ⟨hooped { HoopState.init with sinceKick := 4 }, 11, ?_, ?_, ?_, ?_, ?_, ?_⟩ <;>
    decide +kernel

theorem witness_hangs_fence_and_reset_the_unit_3 :
    ∃ (s : State) (u : UnitId),
      (s.unit u).fence = .fencing := by
  refine ⟨fenced .fencing, .mv 7, ?_⟩ <;>
    decide +kernel

theorem witness_hangs_fence_and_reset_the_unit_4 :
    ∃ (s : State) (u : UnitId),
      (s.unit u).fence = .resetting := by
  refine ⟨fenced .resetting, .mv 7, ?_⟩ <;>
    decide +kernel

theorem witness_hangs_fence_and_reset_the_unit_5 :
    ∃ (s : State) (u : UnitId),
      (s.unit u).fence = .fencing ∧ s.hoop.inReset = false ∧ s.serviceStatus = none := by
  refine ⟨fenced .fencing, .mv 7, ?_, ?_, ?_⟩ <;>
    decide +kernel

theorem witness_hangs_fence_and_reset_the_unit_6 :
    ∃ (_s : State) (v : Word),
      bitAt v 0 = true := by
  refine ⟨up, 1#32, ?_⟩ <;>
    decide +kernel

theorem witness_tables_are_checked_and_repaired_1 :
    ∃ (s : State),
      s.hoopRuns = true ∧ s.hoop.divergent = false ∧ s.hoop.cfgNone = false ∧ (∀ x ∈ s.lockedTables, s.checkTable x =
        .whole) ∧ tablesInUse s := by
  refine ⟨booted, ?_, ?_, ?_, (fun x _ => tables_whole booted rfl x), tables_used booted rfl booted_uses⟩ <;>
    decide +kernel

theorem witness_tables_are_checked_and_repaired_2 :
    ∃ (s : State) (_k : Fin 3) (x : Fin 3) (b : Nat),
      s.hoopRuns = true ∧ s.hoop.divergent = false ∧ s.hoop.cfgNone = false ∧ (∀ y ∈ s.lockedTables, s.checkTable y =
        .whole) ∧ tablesInUse s ∧ x ∈ s.lockedTables ∧ b < 8 * tableLen x := by
  refine ⟨booted, 2, 2, 31, ?_, ?_, ?_, (fun x _ => tables_whole booted rfl x), tables_used booted rfl
    booted_uses, ?_, ?_⟩ <;>
    decide +kernel

theorem witness_tables_are_checked_and_repaired_3 :
    ∃ (s : State) (x : Fin 3),
      s.hoopRuns = true ∧ s.hoop.divergent = false ∧ s.hoop.cfgNone = false ∧ x ∈ s.lockedTables ∧ s.checkTable x =
        .divergent ∧ (∀ y ∈ s.lockedTables, y ≠ x → s.checkTable y = .whole) ∧ s.hoop.outOfService = false ∧ (∀ r,
        s.hif.admin = some r → r.rqHost = true) := by
  refine ⟨split, 0, ?_, ?_, ?_, ?_, split_divergent, split_whole, ?_, (fun _ h => nomatch (h : (none : Option
    Ring) = _))⟩ <;>
    decide +kernel

theorem witness_tables_are_checked_and_repaired_4 :
    ∃ (s : State) (x : Fin 3) (v : BitVec 1024),
      s.hoopRuns = true ∧ s.hoop.divergent = false ∧ s.hoop.cfgNone = false ∧ (∀ y ∈ s.lockedTables, s.checkTable y =
        .whole) ∧ x ∈ s.lockedTables ∧ s.passing x = some v := by
  refine ⟨booted, 2, 15#1024, ?_, ?_, ?_, (fun x _ => tables_whole booted rfl x), ?_, tables_passing booted rfl 2⟩
    <;>
    decide +kernel

theorem witness_tables_are_checked_and_repaired_5 :
    ∃ (s : State),
      s.power.st ≠ 5 := by
  refine ⟨up, ?_⟩ <;>
    decide +kernel

theorem witness_compute_domain_reset_returns_to_service :
    ∃ (s : State) (i : ResetInput),
      s.hoop.inReset = true ∧ s.hoop.recovering = false ∧ s.held = false ∧ s.hoopRuns = true ∧ s.power.phase = .up ∧
        i.flips = [] ∧ i.tallyFails = [] ∧ i.imageOk = true ∧ s.hoop.divergent = false ∧ s.hoop.cfgNone = false ∧
        s.hoop.outOfService = false ∧ (∀ x, s.checkTable x = .whole) ∧ s.fabric.en = false ∧
        s.countReset.hoop.rstInWindow < s.resetMax ∧ s.storesWf = true ∧ (∀ c g, (s.ctx c).img = some g → g.prelude =
        []) ∧ (∀ r, s.hif.admin = some r → r.rqHost = true) ∧ s.hoop.abandoned = [] ∧ tablesInUse s ∧ noWrites s := by
  refine ⟨resetting, ⟨[], true, none, 5, []⟩, ?_, ?_, ?_, ?_, ?_, ?_, ?_, ?_, ?_, ?_, ?_, tables_whole resetting rfl,
    ?_, ?_, ?_, resetting_preludes, (fun _ h => nomatch h), ?_, tables_used resetting rfl resetting_uses,
    resetting_noWrites⟩ <;>
    decide +kernel

theorem witness_reset_reloads_the_image_or_waits_1 :
    ∃ (s : State) (i : ResetInput) (f : FwImage),
      resetGoesOn s i ∧ i.imageOk = false ∧ s.fabric.en = false ∧ s.power.bootMode ≠ 1 ∧ s.readNor i.nor = .ok f ∧
        i.tallyFails = [] ∧ s.storesWf = true ∧ (∀ c g, (s.ctx c).img = some g → g.prelude = []) ∧ (∀ r, s.hif.admin =
        some r → r.rqHost = true) ∧ s.hoop.abandoned = [] ∧ noWrites s := by
  refine ⟨reloading, reload (some goodImage), goodImage, reloading_goesOn _, ?_, ?_, ?_, reloading_reads, ?_, ?_,
    resetting_preludes, (fun _ h => nomatch h), ?_, resetting_noWrites⟩ <;>
    decide +kernel

theorem witness_reset_reloads_the_image_or_waits_2 :
    ∃ (s : State) (i : ResetInput) (e : Nat),
      resetGoesOn s i ∧ i.imageOk = false ∧ s.fabric.en = false ∧ ((s.power.bootMode = 1 ∧ e = 0) ∨ (s.power.bootMode
        ≠ 1 ∧ s.readNor i.nor = .error e)) := by
  refine ⟨reloading, reload none, 7, reloading_goesOn _, ?_, ?_, .inr ⟨by decide +kernel, rfl⟩⟩ <;>
    decide +kernel

theorem witness_safety_port_answers_in_the_next_transaction_1 :
    ∃ (s : State) (req : BitVec 72),
      s.hoopRuns = true ∧ crc8 (spiBody req) = spiByte req 8 ∧ spiByte req 0 = 1 ∧ spiOffset req % 4 = 0 ∧
        (computeBlock (spiOffset req) && s.computeInReset) = false := by
  refine ⟨up, 0x018300000000000044#72, ?_, ?_, ?_, ?_, ?_⟩ <;>
    decide +kernel

theorem witness_safety_port_answers_in_the_next_transaction_2 :
    ∃ (s : State) (req : BitVec 72),
      s.hoopRuns = true ∧ crc8 (spiBody req) = spiByte req 8 ∧ spiByte req 0 = 2 ∧ spiOffset req % 4 = 0 ∧
        s.spiWritable (spiOffset req) = false := by
  refine ⟨up, 0x0210000000000007FE#72, ?_, ?_, ?_, ?_, ?_⟩ <;>
    decide +kernel

theorem witness_safety_port_answers_in_the_next_transaction_3 :
    ∃ (s : State) (req : BitVec 72),
      s.hoopRuns = true ∧ crc8 (spiBody req) = spiByte req 8 ∧ spiByte req 0 = 2 ∧ spiOffset req = 0x830000 := by
  refine ⟨up, 0x028300000000000725#72, ?_, ?_, ?_, ?_⟩ <;>
    decide +kernel

theorem witness_safety_port_answers_in_the_next_transaction_4 :
    ∃ (s : State) (req : BitVec 72),
      s.hoopRuns = true ∧ crc8 (spiBody req) = spiByte req 8 ∧ spiByte req 0 = 0 := by
  refine ⟨up, 0x000000000000000021#72, ?_, ?_, ?_⟩ <;>
    decide +kernel

theorem witness_safety_port_answers_in_the_next_transaction_5 :
    ∃ (s : State) (req : BitVec 72),
      s.hoopRuns = true ∧ crc8 (spiBody req) ≠ spiByte req 8 := by
  refine ⟨up, 0x018300000000000045#72, ?_, ?_⟩ <;>
    decide +kernel

theorem witness_boot_runs_a_good_image_or_waits_2 :
    ∃ (s : State) (i : BootInput) (f : FwImage),
      s.power.phase = .off ∧ s.power.porLow = false ∧ s.id.strapBoot ≠ 1#2 ∧ s.id.strapBoot ≠ 2#2 ∧ s.power.norImage =
        none ∧ i.nor = some f ∧ s.imageError f = none ∧ i.miswrites = [] ∧ i.tallyFails = [] ∧ s.hoop = HoopState.init
        := by
  refine ⟨{ State.reset with id := keyed }, bootInput (some goodImage), goodImage, ?_, ?_, ?_, ?_, ?_, ?_,
    good_passes _ rfl (by decide +kernel), ?_, ?_, ?_⟩ <;>
    decide +kernel

theorem witness_boot_runs_a_good_image_or_waits_3 :
    ∃ (s : State) (i : BootInput),
      s.power.phase = .off ∧ s.power.porLow = false ∧ (s.id.strapBoot = 1#2 ∨ s.id.strapBoot = 2#2 ∨ i.nor = none ∨
        (s.power.norImage = none ∧ ∃ f e, i.nor = some f ∧ s.imageError f = some e)) := by
  refine ⟨State.reset, bootInput none, ?_, ?_, .inr (.inr (.inl rfl))⟩ <;>
    decide +kernel

theorem witness_boot_runs_a_good_image_or_waits_4 :
    ∃ (s : State) (v : Word) (img : FwImage) (_i : BootInput),
      s.power.recovery = true ∧ bitAt v 31 = true ∧ 17 ≤ fieldNat v 0 16 ∧ fieldNat v 0 16 ≤ 6416 ∧ ceilDiv (4096 +
        bytesNat s.hamperHeader 16 4 + bytesNat s.hamperHeader 20 4) 256 = fieldNat v 0 16 ∧ s.imageError
        (s.hamperImage (fieldNat v 0 16) img) = none := by
  refine ⟨recovery, 0x80000011#32, goodImage, bootInput none, ?_, ?_, ?_, ?_, ?_, recovery_ok⟩ <;>
    decide +kernel

theorem witness_boot_runs_a_good_image_or_waits_5 :
    ∃ (s : State),
      s.power.svnPending = true ∧ s.adminReady = true ∧ s.power.warnLow = false := by
  refine ⟨svnWaits, ?_, ?_, ?_⟩ <;>
    decide +kernel

theorem witness_power_states_are_entered_and_left_1 :
    ∃ (s : State) (m : Byte) (v : Word),
      (m = 1#8 ∨ m = 2#8) ∧ 1 ≤ fieldNat v 0 3 ∧ fieldNat v 0 3 ≤ 5 ∧ s.power.exiting = false ∧ s.power.st < fieldNat
        v 0 3 := by
  refine ⟨up, 2#8, 5#32, ?_, ?_, ?_, ?_, ?_⟩ <;>
    decide +kernel

theorem witness_power_states_are_entered_and_left_2 :
    ∃ (s : State) (n : Nat),
      s.power.entering = some n ∧ s.power.exiting = false ∧ s.power.st < n ∧ (s.power.st ≤ 1 → s.powerBusy = false) := by
  refine ⟨powered { PowerState.init with entering := some 5 }, 5, ?_, ?_, ?_, ?_⟩ <;>
    decide +kernel

theorem witness_power_states_are_entered_and_left_3 :
    ∃ (s : State),
      s.power.exiting = false ∧ (s.power.st ≠ 0 ∨ s.power.entering.isSome = true) := by
  refine ⟨powered { PowerState.init with st := 4 }, ?_, ?_⟩ <;>
    decide +kernel

theorem witness_power_states_are_entered_and_left_4 :
    ∃ (s : State) (_n : Nat),
      s.power.exiting = true ∧ s.power.entering = none := by
  refine ⟨powered { PowerState.init with st := 5, exiting := true }, 1, ?_, ?_⟩ <;>
    decide +kernel

theorem witness_time_is_stepped_ticked_and_read_1 :
    ∃ (s : State) (m : Byte) (v : Word),
      (m = 2#8 ∨ m = 3#8) ∧ bitAt v 0 = true ∧ bitAt v 1 = true ∧ s.tu.follow = false ∧ -999999999 ≤ s.tu.stepNs.toInt
        ∧ s.tu.stepNs.toInt ≤ 999999999 := by
  refine ⟨stepStaged, 3#8, 3#32, ?_, ?_, ?_, ?_, ?_, ?_⟩ <;>
    decide +kernel

theorem witness_time_is_stepped_ticked_and_read_2 :
    ∃ (s : State) (m : Byte) (_v : Word),
      (m = 2#8 ∨ m = 3#8) ∧ s.tu.follow = false := by
  refine ⟨up, 3#8, 3#32, ?_, ?_⟩ <;>
    decide +kernel

theorem witness_time_is_stepped_ticked_and_read_3 :
    ∃ (s : State) (m : Byte),
      s.reaches m.toNat 0x810000 = true := by
  refine ⟨up, 3#8, ?_⟩ <;>
    decide +kernel

theorem witness_time_is_stepped_ticked_and_read_4 :
    ∃ (s : State),
      s.rootOn = true ∧ s.tu.pending = none ∧ s.tu.ns < 1000000000 ∧ s.tu.halved = false ∧ incOk s.tu.inc = true := by
  refine ⟨up, ?_, ?_, ?_, ?_, ?_⟩ <;>
    decide +kernel

theorem witness_time_is_stepped_ticked_and_read_5 :
    ∃ (s : State),
      s.tu.ppsHigh = true := by
  refine ⟨{ up with tu := { TimeUnit.init with ppsHigh := true } }, ?_⟩ <;>
    decide +kernel

theorem witness_time_is_stepped_ticked_and_read_6 :
    ∃ (s : State) (_phase : Nat),
      s.rootOn = true ∧ s.tu.ppsinAt = none := by
  refine ⟨up, 79, ?_, ?_⟩ <;>
    decide +kernel

theorem witness_time_is_stepped_ticked_and_read_7 :
    ∃ (s : State),
      s.pending = [] ∧ s.rootOn = true ∧ s.tu.pending = none ∧ s.tu.halved = false ∧ s.tu.ns + (s.tu.inc +
        s.tu.frac.toNat) / 4294967296 < 1000000000 := by
  refine ⟨up, ?_, ?_, ?_, ?_, ?_⟩ <;>
    decide +kernel

theorem witness_events_are_recorded_read_and_erased_1 :
    ∃ (s : State) (e : Event) (rest : List Event),
      s.evr.queue = e :: rest ∧ s.hoopRuns = true ∧ s.evr.run = true ∧ s.evr.full = false ∧ s.evr.erasing = false ∧
        s.evr.prog = none ∧ s.evr.count + 2 < s.evr.cap ∧ e.source < 256 ∧ e.code < 65536 := by
  refine ⟨queued, event, [], ?_, ?_, ?_, ?_, ?_, ?_, ?_, ?_, ?_⟩ <;>
    decide +kernel

theorem witness_events_are_recorded_read_and_erased_2 :
    ∃ (s : State) (n m : Nat) (r : Packet),
      s.hoopRuns = true ∧ s.evr.run = true ∧ s.evr.full = false ∧ s.evr.erasing = false ∧ s.evr.count < s.evr.cap ∧
        s.evr.prog = some (r, m) ∧ m ≤ n ∧ n < 64 := by
  refine ⟨programming, 63, 60, 0#512, ?_, ?_, ?_, ?_, ?_, ?_, ?_, ?_⟩ <;>
    decide +kernel

theorem witness_events_are_recorded_read_and_erased_3 :
    ∃ (s : State),
      s.evr.erasing = true ∧ s.hoopRuns = true := by
  refine ⟨erasing, ?_, ?_⟩ <;>
    decide +kernel

theorem witness_events_are_recorded_read_and_erased_4 :
    ∃ (s : State) (r : Packet) (m : Nat),
      s.hoopRuns = true ∧ s.evr.run = true ∧ s.evr.full = false ∧ s.evr.erasing = false ∧ s.evr.prog = some (r, m) ∧
        s.evr.eraseAck = true ∧ s.evr.count + 2 < s.evr.cap ∧ s.hoop.fsrs = [] ∧ (∀ h : s.evr.eraseCh < 64,
        s.fragmentOn ⟨s.evr.eraseCh, h⟩ = none) ∧ linksIdle s := by
  refine ⟨erased, 0#512, 60, ?_, ?_, ?_, ?_, ?_, ?_, ?_, ?_, ?_, links_idle _ (by decide +kernel)⟩ <;>
    decide +kernel

theorem witness_events_are_recorded_read_and_erased_5 :
    ∃ (s : State) (m : Byte) (_off : BitVec 15),
      s.reaches m.toNat 0x828000 = true := by
  refine ⟨up, 3#8, 0#15, ?_⟩ <;>
    decide +kernel

theorem witness_events_are_recorded_read_and_erased_6 :
    ∃ (s : State),
      s.hoopRuns = true ∧ s.evr.entryDue = true := by
  refine ⟨{ up with evr := { up.evr with entryDue := true } }, ?_, ?_⟩ <;>
    decide +kernel

theorem witness_events_are_recorded_read_and_erased_7 :
    ∃ (s : State),
      s.hoopRuns = true ∧ s.hoop.subSecond < 1000 := by
  refine ⟨hooped { HoopState.init with subSecond := 999 }, ?_, ?_⟩ <;>
    decide +kernel

theorem witness_every_step_keeps_the_stores_canonical :
    ∃ (s t : State),
      s.storesWf = true ∧ s.tu.ns < 1000000000 ∧ step s = .next t := by
  refine ⟨up, idleTick up, ?_, ?_, rfl⟩ <;>
    decide +kernel


end Sys2Proof.Tests
end

section
/-! SUPPORT. Register writes and their masters (R10, R375, R377, R397). A host's ring or acknowledge of a mailbox channel whose other
end is a remote chip gives a link a MAIL or MACK flit, and the link then sends what already waited on it, too: in this way a host's
write can reach a unit. -/

open Sys2Proof Sys2Proof.Machine

namespace Sys2Proof.Machine

theorem exec_registerWrite (m : Byte) (off : BitVec 24) (v : Word) (s : State) :
    exec (.registerWrite m off v) s = .next (s.writeReg m.toNat off.toNat v) := rfl

/-- The host's write of MB_RING of channel 0 rings it, where the host reaches the mailboxes (R375, R506). -/
theorem exec_registerWrite_hostRing {s : State} (v : Word) (h : s.reaches 1 0x800040 = true) :
    exec (.registerWrite 1#8 0x800040#24 v) s = .next (s.writeRing 1 0 v) := by
  simp [exec_registerWrite, State.writeReg, State.writeMbox, h]

/-! ### A SEND whose TAIL waits -/

/-- A SEND of one line on link 0 (R403): class 7, operation 2, NL 1. Its send half has begun and has not ended. -/
def lastFlitSend : Placed :=
  { ctx := 1, frame := 0, origin := .queue false 0 0, hdr := 7#1024 <<< 8 ||| 2#1024 <<< 96 ||| 1#1024 <<< 288, prog := [],
    stage := .running, windows := [], fin := none, slowed := false, begun := true, posted := false, recvDone := false,
    sendBegun := true, sendDone := false, ups := [] }

/-- An ACTIVE link on which HEAD and both DATA flits of mover 0's transfer have left and are acknowledged, and the TAIL waits. -/
def lastFlitLink : LinkState :=
  { LinkState.init with
    en := true
    st := 5
    txNext := 3#16
    xq := [mkFlit tTail 0 1 0#32 []]
    xsent := 3
    txOwner := some (.mv 0) }

/-- Chip 0 of a fabric of two chips, with mailbox channel 0 bound from the host to chip 1, and the SEND at work on link 0. -/
def lastFlitWaits : State :=
  (({ State.reset with
    fabric := { Fabric.init with nm1 := 1, en := true }
    hoop := { HoopState.init with table1 := some 0x1101#1024 } }).setLink 0 lastFlitLink).setUnit (.mv 0)
      { UnitState.init with run := some lastFlitSend }

theorem lastFlitWaits_reaches : lastFlitWaits.reaches 1 0x800040 = true := by decide +kernel

theorem lastFlitWaits_sendDone : (lastFlitWaits.unit (.mv 0)).run.map (·.sendDone) = some false := by
  simp [lastFlitWaits, lastFlitSend]

/-- Behind the MAIL flit of the host's ring the TAIL leaves, and with it the send half of mover 0 ends (R397, R402). -/
theorem lastFlitWaits_hostRing_sendDone :
    ((lastFlitWaits.writeRing 1 0 1#32).unit (.mv 0)).run.map (·.sendDone) = some true := by decide +kernel

end Sys2Proof.Machine

/-- Refutes O49 by its last clause, which lets a host's write change no field of any unit, in every state. In `lastFlitWaits` the
TAIL of mover 0's transfer waits on link 0 although the replay buffer has room. The host's ring of a channel to chip 1 sends a MAIL
flit on that link, the TAIL leaves in the next slot, and the command on mover 0 notes the end of its send half. The registers of the
unit stay as they are; the clause lacks the premise that no flit waits on a link (`Claims.linksIdle`). -/
theorem not_registerWritesFollowTheirMasters : ¬ Obligations.RegisterWritesFollowTheirMasters := by
  unfold Obligations.RegisterWritesFollowTheirMasters
  rintro ⟨-, -, -, hostWrite⟩
  obtain ⟨t, hexec, hunits, -⟩ := hostWrite lastFlitWaits 0x800040#24 1#32
  rw [exec_registerWrite_hostRing 1#32 lastFlitWaits_reaches] at hexec
  obtain rfl : lastFlitWaits.writeRing 1 0 1#32 = t := by injection hexec
  have hsame : (lastFlitWaits.writeRing 1 0 1#32).unit (.mv 0) = lastFlitWaits.unit (.mv 0) := by
    simp only [State.unit, hunits]
  have hdone := lastFlitWaits_hostRing_sendDone
  rw [hsame, lastFlitWaits_sendDone] at hdone
  exact absurd hdone (by decide)

end

section
/-! SUPPORT. Laws of the lines that a running command writes and of the end of its work: what they give and what they leave. -/

open Sys2Proof Sys2Proof.Machine Sys2Proof.Claims

namespace Sys2Proof.Machine

/-! ### One line -/

theorem tag_putLine_ne (s : State) {j k : Nat} (l : Line) (h : j ≠ k) : (s.putLine k l).tag j = s.tag j := by
  have hbad : (s.putLine k l).badTag j = s.badTag j := sparseGet_put_ne h
  rw [State.tag, State.tag, hbad, line_putLine_ne s l h]

/-- A line that is assigned and whose tag matches can be read (R18, R203). -/
theorem badLine_of_good {s : State} {k : Nat} (ha : s.lineAssigned k = true) (ht : s.tagOk k = true) :
    s.badLine k = false := by simp [State.badLine, ha, ht]

/-- Every line of the hamper is assigned (R292). -/
theorem lineAssigned_hamKey (s : State) {l : Nat} (h : l < hamperLines) : s.lineAssigned (hamKey l) = true := by
  have hl : l < 524288 := h
  have hlow : ¬ 0x100000000 + l < 0x10000000 := by omega
  have hham : 0x100000000 + l < 0x100080000 := by omega
  simp [State.lineAssigned, hamKey, hlow, hham]

/-! ### What only concerns one unit -/

theorem onlyUnit_refl (u : UnitId) (s : State) : onlyUnit u s s := by simp [onlyUnit]

theorem onlyUnit_trans {u : UnitId} {s t r : State} (h : onlyUnit u s t) (g : onlyUnit u t r) : onlyUnit u s r := by
  obtain ⟨hu, h⟩ := h
  obtain ⟨gu, g⟩ := g
  refine ⟨fun v hv => (gu v hv).trans (hu v hv), ?_⟩
  simp only [g, h, and_self]

theorem onlyUnit_modUnit (s : State) (u : UnitId) (f : UnitState → UnitState) : onlyUnit u s (s.modUnit u f) :=
  ⟨fun _ hv => unit_setUnit_ne s _ hv, rfl, rfl, rfl, rfl, rfl, rfl, rfl, rfl, rfl, rfl, rfl⟩

theorem onlyUnit_modRegs (s : State) (u : UnitId) (f : UnitRegs → UnitRegs) : onlyUnit u s (s.modRegs u f) :=
  onlyUnit_modUnit s u _

theorem onlyUnit_finish (s : State) (u : UnitId) (e : RunEnd) : onlyUnit u s (s.finish u e) := onlyUnit_modUnit s u _

theorem onlyUnit_putLine (s : State) (u : UnitId) (k : Nat) (l : Line) : onlyUnit u s (s.putLine k l) := onlyUnit_refl u s

/-! ### Noted writes -/

/-- A run of noted writes notes and writes its first line, then the others. -/
theorem putNoted_cons (s : State) (u : UnitId) (x : Nat × Line) (xs : List (Nat × Line)) :
    s.putNoted u (x :: xs) =
      ((s.noteWrite u (s.unit u).undo.length none x.1).putLine x.1 x.2).putNoted u xs := by
  have hlen : (((s.noteWrite u (s.unit u).undo.length none x.1).putLine x.1 x.2).unit u).undo.length =
      (s.unit u).undo.length + 1 := by
    change ((s.noteWrite u _ none x.1).unit u).undo.length = _
    rw [noteWrite_undo, List.length_append, List.length_singleton]
  simp only [State.putNoted, List.zipIdx_cons, List.foldl_cons, hlen]

theorem onlyUnit_putNoted (s : State) (u : UnitId) (ls : List (Nat × Line)) : onlyUnit u s (s.putNoted u ls) := by
  induction ls generalizing s with
  | nil => exact onlyUnit_refl u s
  | cons x xs ih =>
    rw [putNoted_cons]
    exact onlyUnit_trans (onlyUnit_modUnit s u _) (onlyUnit_trans (onlyUnit_putLine _ u _ _) (ih _))

theorem noteWrite_run (s : State) (u : UnitId) (i : Nat) (c : Option Nat) (k : Nat) (t : Option (Option Nat)) :
    ((s.noteWrite u i c k t).unit u).run = (s.unit u).run := by
  simp only [State.noteWrite, State.modUnit, unit_setUnit_self]

/-- The command that writes goes on. -/
theorem putNoted_run (s : State) (u : UnitId) (ls : List (Nat × Line)) :
    ((s.putNoted u ls).unit u).run = (s.unit u).run := by
  induction ls generalizing s with
  | nil => rfl
  | cons x xs ih =>
    rw [putNoted_cons, ih]
    exact noteWrite_run s u _ none x.1 none

/-- A run of noted writes leaves the tag of every line that it does not name. -/
theorem tag_putNoted_ne (s : State) (u : UnitId) {ls : List (Nat × Line)} {j : Nat} (h : ∀ x ∈ ls, x.1 ≠ j) :
    (s.putNoted u ls).tag j = s.tag j := by
  induction ls generalizing s with
  | nil => rfl
  | cons x xs ih =>
    rw [putNoted_cons, ih _ fun y hy => h y (.tail _ hy), tag_putLine_ne _ _ fun e => h x (.head _) e.symm]
    rfl

theorem tagOk_putNoted_ne (s : State) (u : UnitId) {ls : List (Nat × Line)} {j : Nat} (h : ∀ x ∈ ls, x.1 ≠ j) :
    (s.putNoted u ls).tagOk j = s.tagOk j := by
  induction ls generalizing s with
  | nil => rfl
  | cons x xs ih =>
    rw [putNoted_cons, ih _ fun y hy => h y (.tail _ hy), tagOk_putLine_ne _ _ fun e => h x (.head _) e.symm]
    rfl

/-- Of a run of noted writes to different lines each reads back, with a tag that matches. -/
theorem putNoted_mem {s : State} (u : UnitId) {ls : List (Nat × Line)} {x : Nat × Line} (hw : s.storesWf = true)
    (hd : (ls.map (·.1)).Nodup) (hx : x ∈ ls) :
    (s.putNoted u ls).line x.1 = x.2 ∧ (s.putNoted u ls).tagOk x.1 = true := by
  induction ls generalizing s with
  | nil => cases hx
  | cons y ys ih =>
    rw [List.map_cons, List.nodup_cons] at hd
    obtain ⟨hy, hd⟩ := hd
    have hn := storesWf_noteWrite u (s.unit u).undo.length none y.1 none hw
    rw [putNoted_cons]
    rcases List.mem_cons.1 hx with rfl | hx
    · have hne : ∀ z ∈ ys, z.1 ≠ x.1 := fun z hz e => hy (e ▸ List.mem_map_of_mem hz)
      rw [line_putNoted_ne _ u hne, tagOk_putNoted_ne _ u hne]
      exact ⟨line_putLine_self _ _ hn, tagOk_putLine_self _ _ hn⟩
    · exact ih (storesWf_putLine _ _ hn) hd hx

@[simp] theorem modRegs_run (s : State) (u : UnitId) (f : UnitRegs → UnitRegs) :
    ((s.modRegs u f).unit u).run = (s.unit u).run := by
  simp only [State.modRegs, State.modUnit, unit_setUnit_self]

/-! ### The end of a command's work -/

@[simp] theorem finish_line (s : State) (u : UnitId) (e : RunEnd) (k : Nat) : (s.finish u e).line k = s.line k := rfl
@[simp] theorem finish_tag (s : State) (u : UnitId) (e : RunEnd) (k : Nat) : (s.finish u e).tag k = s.tag k := rfl
@[simp] theorem finish_tagOk (s : State) (u : UnitId) (e : RunEnd) (k : Nat) : (s.finish u e).tagOk k = s.tagOk k := rfl

/-- A command that has written its lines and ends without fault has worked. -/
theorem worked_putNoted_finish {s : State} {u : UnitId} {p : Placed} (ls : List (Nat × Line)) (e : RunEnd)
    (hrun : (s.unit u).run = some p) (hst : e.status = .done) (hb : e.bound = none) :
    worked u p e.used ((s.putNoted u ls).finish u e) :=
  ⟨e, finish_run e ((putNoted_run s u ls).trans hrun), hst, rfl, hb⟩

theorem onlyUnit_putNoted_finish (s : State) (u : UnitId) (ls : List (Nat × Line)) (e : RunEnd) :
    onlyUnit u s ((s.putNoted u ls).finish u e) :=
  onlyUnit_trans (onlyUnit_putNoted s u ls) (onlyUnit_finish _ u e)

/-- The lines that the command has not written are as they were. -/
theorem putNoted_finish_ne (s : State) (u : UnitId) {ls : List (Nat × Line)} (e : RunEnd) {j : Nat}
    (h : ∀ x ∈ ls, x.1 ≠ j) :
    ((s.putNoted u ls).finish u e).line j = s.line j ∧ ((s.putNoted u ls).finish u e).tag j = s.tag j := by
  rw [finish_line, finish_tag]
  exact ⟨line_putNoted_ne s u h, tag_putNoted_ne s u h⟩

end Sys2Proof.Machine
end

section
/-! SUPPORT. What leaves memory and the running commands alone; with it the end of a command that ends well, and of an APPEND (R104, R185). -/

open Sys2Proof Sys2Proof.Machine Sys2Proof.Claims

namespace Sys2Proof.Machine

/-! ### A field of a word replaced -/

theorem getLsbD_setField {w : Nat} (x : BitVec w) (lo n v : Nat) {i : Nat} (hi : i < w) :
    (setField x lo n v).getLsbD i = if lo ≤ i ∧ i < lo + n then v.testBit (i - lo) else x.getLsbD i := by
  simp only [setField, BitVec.getLsbD_or, BitVec.getLsbD_and, BitVec.getLsbD_not, BitVec.getLsbD_shiftLeft,
    BitVec.getLsbD_ofNat, Nat.testBit_two_pow_sub_one, Nat.testBit_mod_two_pow]
  have hw : i - lo < w := by omega
  by_cases hlo : lo ≤ i
  · have hn : i - lo < n ↔ i < lo + n := by omega
    by_cases hin : i < lo + n <;> simp [hi, hw, hlo, Nat.not_lt.2 hlo, hn, hin]
  · simp [hi, hlo, Nat.lt_of_not_le hlo]

/-- The field replaced holds the new value, as far as it is wide. -/
theorem fieldNat_setField_same {w : Nat} (x : BitVec w) (lo n v : Nat) (h : lo + n ≤ w) :
    fieldNat (setField x lo n v) lo n = v % 2 ^ n := by
  have hbits : (setField x lo n v).extractLsb' lo n = BitVec.ofNat n v := by
    refine BitVec.eq_of_getLsbD_eq fun i hi => ?_
    have hw : lo + i < w := by omega
    simp only [BitVec.getLsbD_extractLsb', getLsbD_setField x lo n v hw, BitVec.getLsbD_ofNat]
    simp [hi]
  rw [fieldNat, hbits, BitVec.toNat_ofNat]

/-- A field that lies apart from the one replaced stays. -/
theorem fieldNat_setField_apart {w : Nat} (x : BitVec w) {lo n lo' n' : Nat} (v : Nat) (hw : lo' + n' ≤ w)
    (h : lo' + n' ≤ lo ∨ lo + n ≤ lo') : fieldNat (setField x lo n v) lo' n' = fieldNat x lo' n' := by
  have hbits : (setField x lo n v).extractLsb' lo' n' = x.extractLsb' lo' n' := by
    refine BitVec.eq_of_getLsbD_eq fun i hi => ?_
    have hi' : lo' + i < w := by omega
    have hout : ¬(lo ≤ lo' + i ∧ lo' + i < lo + n) := by omega
    simp only [BitVec.getLsbD_extractLsb', getLsbD_setField x lo n v hi', if_neg hout]
  rw [fieldNat, hbits, fieldNat]

/-! ### What leaves memory and the running commands alone -/

/-- Lines, tags and the running commands are the same, and so is whether the compute domain is in reset. -/
structure Undisturbed (s t : State) : Prop where
  mem : t.mem = s.mem
  tags : t.tags = s.tags
  inReset : t.hoop.inReset = s.hoop.inReset
  runs : ∀ v, (t.unit v).run = (s.unit v).run

theorem Undisturbed.refl (s : State) : Undisturbed s s := ⟨rfl, rfl, rfl, fun _ => rfl⟩

theorem Undisturbed.trans {s t r : State} (h : Undisturbed s t) (g : Undisturbed t r) : Undisturbed s r :=
  ⟨g.mem.trans h.mem, g.tags.trans h.tags, g.inReset.trans h.inReset, fun v => (g.runs v).trans (h.runs v)⟩

theorem Undisturbed.line {s t : State} (h : Undisturbed s t) (k : Nat) : t.line k = s.line k := by
  rw [State.line, h.mem, State.line]

theorem Undisturbed.tag {s t : State} (h : Undisturbed s t) (k : Nat) : t.tag k = s.tag k := by
  rw [State.tag, State.tag, State.badTag, h.tags, h.line, State.badTag]

/-- Where no unit differs at all. -/
theorem Undisturbed.of_units {s t : State} (hm : t.mem = s.mem) (ht : t.tags = s.tags)
    (hr : t.hoop.inReset = s.hoop.inReset) (hu : t.units = s.units) : Undisturbed s t :=
  ⟨hm, ht, hr, fun v => by simp only [State.unit, hu]⟩

theorem Undisturbed.foldl {α : Type} {f : State → α → State} (hf : ∀ s x, Undisturbed s (f s x)) (s : State)
    (l : List α) : Undisturbed s (l.foldl f s) := by
  induction l generalizing s with
  | nil => exact .refl s
  | cons x l ih => exact (hf s x).trans (ih _)

theorem Undisturbed.ite {c : Prop} [Decidable c] {s t r : State} (h : Undisturbed s t) (g : Undisturbed s r) :
    Undisturbed s (if c then t else r) := by
  split
  · exact h
  · exact g

theorem undisturbed_modUnit (s : State) (u : UnitId) {f : UnitState → UnitState} (hf : ∀ x, (f x).run = x.run) :
    Undisturbed s (s.modUnit u f) := by
  refine ⟨rfl, rfl, rfl, fun v => ?_⟩
  rw [State.modUnit, unit_setUnit]
  split
  · next h => rw [hf, h]
  · rfl

theorem undisturbed_modRegs (s : State) (u : UnitId) (f : UnitRegs → UnitRegs) : Undisturbed s (s.modRegs u f) :=
  undisturbed_modUnit s u fun _ => rfl

theorem undisturbed_setCtx (s : State) (c : Nat) (x : Ctx) : Undisturbed s (s.setCtx c x) := .of_units rfl rfl rfl rfl

theorem undisturbed_modCtx (s : State) (c : Nat) (f : Ctx → Ctx) : Undisturbed s (s.modCtx c f) :=
  undisturbed_setCtx s c _

theorem undisturbed_modFrame (s : State) (c : Nat) (f : FrameRun → FrameRun) : Undisturbed s (s.modFrame c f) :=
  undisturbed_modCtx s c _

theorem undisturbed_tieAdds (s : State) (m : List (Nat × Nat)) : Undisturbed s (s.tieAdds m) := by
  induction m generalizing s with
  | nil => exact .refl s
  | cons x m ih => exact (Undisturbed.of_units rfl rfl rfl rfl : Undisturbed s (s.tieAdd x.1 _)).trans (ih _)

theorem undisturbed_emit (s : State) (o : Out) : Undisturbed s (s.emit o) := .of_units rfl rfl rfl rfl

theorem undisturbed_event (s : State) (k : EventKind) (d : List Byte) : Undisturbed s (s.event k d) :=
  .of_units (by simp) (by simp) (by simp) (by simp)

theorem undisturbed_hoopErr (s : State) (b : Nat) : Undisturbed s (s.hoopErr b) := .of_units rfl rfl rfl rfl

theorem undisturbed_msix (s : State) (v : Nat) : Undisturbed s (s.msix v) :=
  .of_units (by simp) (by simp) (by simp) (by simp)

theorem undisturbed_wakeUp (s : State) (pin : Bool) : Undisturbed s (s.wakeUp pin) := by
  unfold State.wakeUp
  split
  · exact .refl s
  · exact .of_units rfl rfl rfl rfl

theorem undisturbed_notifyMaster (s : State) (ch m : Nat) : Undisturbed s (s.notifyMaster ch m) := by
  unfold State.notifyMaster
  split
  · exact undisturbed_msix s 2
  split
  · exact .of_units rfl rfl rfl rfl
  split
  · exact undisturbed_emit s _
  · exact .refl s

theorem undisturbed_ringNotice (s : State) (ch m : Nat) : Undisturbed s (s.ringNotice ch m) := by
  unfold State.ringNotice
  split
  · exact (undisturbed_wakeUp s false).trans (undisturbed_notifyMaster _ ch m)
  · exact undisturbed_notifyMaster s ch m

theorem undisturbed_fsrPump (s : State) (toHost : Bool) : Undisturbed s (s.fsrPump toHost) := by
  unfold State.fsrPump
  extract_lets ch up
  refine .ite (.refl s) ?_
  split
  · exact .refl s
  · extract_lets s1 hoop s2
    have h2 : Undisturbed s s2 := by cases toHost <;> exact .of_units rfl rfl rfl rfl
    exact h2.trans (undisturbed_ringNotice _ _ _)

theorem undisturbed_fsrSend (s : State) : Undisturbed s s.fsrSend :=
  (Undisturbed.of_units rfl rfl rfl rfl : Undisturbed s s.fsrLeave).trans
    ((undisturbed_fsrPump _ true).trans (undisturbed_fsrPump _ false))

theorem undisturbed_fsr (s : State) (kind : Nat) (kvs : List (Nat × CborVal)) : Undisturbed s (s.fsr kind kvs) := by
  unfold State.fsr
  split
  · exact .of_units rfl rfl rfl rfl
  · extract_lets head b f hoop s1
    have h1 : Undisturbed s s1 := .of_units rfl rfl rfl rfl
    exact h1.trans (undisturbed_fsrSend _)

theorem undisturbed_quarantine (s : State) (u : UnitId) (st : Status) (kvs : List (Nat × CborVal)) (more : Nat) :
    Undisturbed s (s.quarantine u st kvs more) :=
  (undisturbed_modRegs s u _).trans ((undisturbed_hoopErr _ 8).trans ((undisturbed_event _ _ _).trans (undisturbed_fsr _ _ _)))

theorem undisturbed_transient (s : State) (u : UnitId) (st : Status) (kvs : List (Nat × CborVal)) :
    Undisturbed s (s.transient u st kvs) := by
  unfold State.transient
  extract_lets now ts third s1 s2 s3
  have h0 : Undisturbed s (s.modUnit u fun x => { x with transients := (now :: x.transients).take 2 }) :=
    undisturbed_modUnit s u fun _ => rfl
  have h1 : Undisturbed s s1 := h0.trans (undisturbed_hoopErr _ 7)
  have h : Undisturbed s s3 := h1.trans ((undisturbed_event _ _ _).trans (undisturbed_fsr _ _ _))
  split
  · exact h.trans (undisturbed_quarantine _ u st kvs 1)
  · exact h

/-! ### Contexts and frames -/

theorem undisturbed_dropPrimaryReplays (s : State) (c : Nat) : Undisturbed s (s.dropPrimaryReplays c) := by
  unfold State.dropPrimaryReplays
  extract_lets mine rs disp s1
  have h1 : Undisturbed s s1 := .of_units rfl rfl rfl rfl
  refine h1.trans (.foldl (fun s r => ?_) _ _)
  split
  · exact undisturbed_transient _ _ _ _
  · exact .refl s

theorem undisturbed_switchFrame (s : State) (c k : Nat) : Undisturbed s (s.switchFrame c k) := by
  unfold State.switchFrame
  dsimp only
  split
  · exact .refl s
  split
  · exact .refl s
  · exact (undisturbed_setCtx s c _).trans ((undisturbed_event _ _ _).trans (undisturbed_dropPrimaryReplays _ c))

theorem undisturbed_reachCheckpoint (s : State) (c k : Nat) : Undisturbed s (s.reachCheckpoint c k) := by
  unfold State.reachCheckpoint
  split
  · exact .refl s
  extract_lets s1 x
  have h : Undisturbed s s1 := undisturbed_modCtx s c _
  split
  · split
    · split
      · exact h.trans (undisturbed_switchFrame _ c _)
      · exact h
    · exact h
  · exact h

theorem undisturbed_noteOutput (s : State) (c : Nat) (t : Target) (tag : Word) (back : Nat) :
    Undisturbed s (s.noteOutput c t tag back) := by
  unfold State.noteOutput
  split
  · split
    · exact undisturbed_modFrame s c _
    · exact .refl s
  · exact .refl s

theorem undisturbed_sendPost (s : State) (c : Nat) (h : HostLine) (back : Nat) : Undisturbed s (s.sendPost c h back) :=
  (undisturbed_emit s _).trans (undisturbed_noteOutput _ c _ _ _)

theorem undisturbed_tryOrigin (s : State) (c : Nat) : Undisturbed s (s.tryOrigin c) := by
  unfold State.tryOrigin
  extract_lets x
  split
  · exact .refl s
  split
  · exact .refl s
  extract_lets known
  split
  · split
    · exact undisturbed_setCtx s c _
    · exact .refl s
  split
  · exact .refl s
  · exact undisturbed_setCtx s c _

theorem undisturbed_beginFrame (s : State) (c : Nat) (req : Option FrameReq) : Undisturbed s (s.beginFrame c req) := by
  unfold State.beginFrame
  extract_lets x nq f s1
  have h : Undisturbed s s1 := (undisturbed_setCtx s c _).trans (undisturbed_tryOrigin _ c)
  split
  · split
    · split
      · exact h.trans (undisturbed_switchFrame _ c _)
      · exact h
    · exact h
  · split
    · split
      · exact h.trans (undisturbed_switchFrame _ c _)
      · exact h
    · exact h

theorem undisturbed_nextFrame (s : State) (c : Nat) : Undisturbed s (s.nextFrame c) := by
  unfold State.nextFrame
  extract_lets x
  split
  · exact .refl s
  split
  · split
    · exact .refl s
    · exact (undisturbed_setCtx s c _).trans (undisturbed_beginFrame _ c _)
  · exact undisturbed_beginFrame s c none

/-- Out of a compute-domain reset the check for the return to service only begins frames (R331). -/
theorem undisturbed_checkReturn {s : State} (h : s.hoop.inReset = false) : Undisturbed s s.checkReturn := by
  rw [State.checkReturn, h]
  exact Undisturbed.foldl (fun s c => undisturbed_nextFrame s c) s _

/-! ### The end of a command -/

theorem undisturbed_settleWrites (s : State) (u : UnitId) (p : Placed) (used : Nat) (ok : Bool) :
    Undisturbed s (s.settleWrites u p used ok) := by
  unfold State.settleWrites
  extract_lets x s1 isCopy open_ back s2 s3
  have h1 : Undisturbed s s1 := undisturbed_modUnit s u fun _ => rfl
  have h2 : Undisturbed s1 s2 := .of_units rfl rfl rfl rfl
  have h3 : Undisturbed s2 s3 := .foldl (fun s h => undisturbed_sendPost s _ h _) _ _
  exact (h1.trans (h2.trans h3)).trans (.foldl (fun s w => undisturbed_noteOutput s _ _ _ _) _ _)

theorem undisturbed_replayEnd {s : State} {u : UnitId} {p : Placed} {struck : UnitId} {r : Replay} {e : EndInfo}
    (hok : e.status.ok = true) : Undisturbed s (s.replayEnd u p struck r e) := by
  have hdrop : Undisturbed s (s.dropReplay r) := .of_units rfl rfl rfl rfl
  unfold State.replayEnd
  simp only [hok, if_true]
  split
  · split
    · exact hdrop.trans (undisturbed_transient _ _ _ _)
    · exact hdrop
  · split
    · exact hdrop
    · exact .of_units rfl rfl rfl rfl
  · exact hdrop

/-- The unit is free, and runs nothing. -/
def State.vacate (s : State) (u : UnitId) : State := s.modUnit u fun x => { x with run := none }

theorem vacate_run_ne (s : State) {u v : UnitId} (h : v ≠ u) : ((s.vacate u).unit v).run = (s.unit v).run := by
  rw [State.vacate, State.modUnit, unit_setUnit_ne s _ h]

theorem undisturbed_vacate {s t : State} (u : UnitId) {f : UnitState → UnitState} (h : Undisturbed s t)
    (hf : ∀ x, (f x).run = none) : Undisturbed (s.vacate u) (t.modUnit u f) := by
  refine ⟨h.mem, h.tags, h.inReset, fun v => ?_⟩
  rw [State.vacate, State.modUnit, State.modUnit, unit_setUnit, unit_setUnit]
  split
  · exact hf _
  · exact h.runs v

/-- A command that ends well leaves every line, and every other unit its command (R104). -/
theorem undisturbed_endCommand {s : State} {u : UnitId} {p : Placed} {e : EndInfo} (hrun : (s.unit u).run = some p)
    (hok : e.status.ok = true) : Undisturbed (s.vacate u) (s.endCommand u e) := by
  unfold State.endCommand
  split
  · next h => rw [hrun] at h; cases h
  next q hq =>
  extract_lets unver s1 s2 s3 refetched fb tied s4 s5 s6
  have h2 : Undisturbed (s.vacate u) s2 := undisturbed_vacate u (undisturbed_settleWrites s u q _ _) fun _ => rfl
  have h3 : Undisturbed s2 s3 := .ite (undisturbed_modFrame _ _ _) (.refl _)
  have htied : Undisturbed s3 tied := undisturbed_tieAdds _ _
  have h4 : Undisturbed s3 s4 := .ite (.ite htied (htied.trans (undisturbed_reachCheckpoint _ _ _))) (.refl _)
  have h5 : Undisturbed s4 s5 := by
    unfold s5
    split
    · exact undisturbed_modCtx _ _ _
    · exact .refl _
  have h6 : Undisturbed s5 s6 := .ite (undisturbed_modFrame _ _ _) (.refl _)
  refine (h2.trans h3).trans ((h4.trans h5).trans (h6.trans ?_))
  split
  · simp [Status.isFault, hok, Undisturbed.refl]
  · split
    · exact undisturbed_replayEnd hok
    · exact .refl _
  · rw [if_pos hok]
    exact undisturbed_modCtx _ _ _
  · exact .refl _

/-- A command of Plait that has used its declared cycles and ends without fault: LEN, where it is an APPEND, then the end (R185). -/
theorem exec_commandEnd_plait {s : State} {i : Fin 2} {p : Placed} {e : RunEnd} (hrun : (s.unit (.plt i)).run = some p)
    (hst : p.stage = .running) (ho : p.origin ≠ .tally) (hfin : p.fin = some e) (hd : e.status = .done)
    (hb : e.bound = none) (hused : e.used = hdrDecl p.hdr) :
    exec (.commandEnd (.plt i)) s = .next ((s.appendLen (.plt i) p).endCommand (.plt i)
      { status := .done, used := e.used, det := 0, sticky := e.sticky, ties := [], bounded := false }).checkReturn := by
  have hcount : s.countEnd (.plt i) p e .done = some ((s.appendLen (.plt i) p).endCommand (.plt i)
      { status := .done, used := e.used, det := 0, sticky := e.sticky, ties := [], bounded := false }) := by
    simp only [State.countEnd, State.noteSent, hb, if_pos hused]
  change execCommandEnd (.plt i) s = _
  unfold execCommandEnd
  simp only [hrun, hst, ho, hfin, hd, hcount, ne_eq, not_true_eq_false, Bool.false_eq_true, or_self, if_false]

theorem appendLen_append {s : State} {i : Fin 2} {p : Placed} (hop : bytesNat p.hdr 12 1 = 1) :
    s.appendLen (.plt i) p = s.putLine (hamKey (plaitHdr p.hdr).kvd)
      (setField (s.line (hamKey (plaitHdr p.hdr).kvd)) 64 64
        (bytesNat (s.line (hamKey (plaitHdr p.hdr).kvd)) 8 8 + (plaitHdr p.hdr).p2)) := by
  have hop : (plaitHdr p.hdr).op = 1 := hop
  simp only [State.appendLen, hop, if_true]

/-- The end of a command of Plait that ends well leaves every line, and every other unit goes on. -/
theorem undisturbed_commandEnd_plait {s : State} {i : Fin 2} {p : Placed} {e : EndInfo}
    (hrun : (s.unit (.plt i)).run = some p) (hok : e.status.ok = true) (hr : s.hoop.inReset = false) :
    Undisturbed (s.vacate (.plt i)) (s.endCommand (.plt i) e).checkReturn := by
  have hend := undisturbed_endCommand hrun hok
  exact hend.trans (undisturbed_checkReturn (hend.inReset.trans hr))

end Sys2Proof.Machine
end

section
/-! SUPPORT. STAGE and FEED where every line that they read is good (R187 to R191, R198). -/

open Sys2Proof Sys2Proof.Machine Sys2Proof.Claims

namespace Sys2Proof.Machine

/-! ### STAGE -/

theorem execStage_working {s : State} {p : Fin 2} {c : Placed} (hc : s.working (.plt p) = some c)
    (hop : bytesNat c.hdr 12 1 = 3) (hmv : s.namedMover c.hdr = true) :
    exec (.stage p []) s = .next (stageWork p [] s (hdrDecl c.hdr) (plaitHdr c.hdr)) := by
  change execStage p [] s = _
  simp [execStage, hc, hop, hmv]

/-- The lines that a STAGE writes: each destination with what its source holds. -/
def State.stageWrites (s : State) (h : PlaitHdr) (k : KvDesc) : List (Nat × Line) :=
  (stageMoves h k).map fun m => (m.2, s.line m.1)

theorem stageWrites_keys (s : State) (h : PlaitHdr) (k : KvDesc) :
    (s.stageWrites h k).map (·.1) = (stageMoves h k).map (·.2) := by
  simp [State.stageWrites]

/-- A STAGE that can read its sources writes them all to their places and ends. -/
theorem stageWork_good {s : State} {p : Fin 2} {h : PlaitHdr} {k : KvDesc} (decl : Nat)
    (htag : s.tagOk (hamKey h.kvd) = true) (hdesc : kvDesc (s.line (hamKey h.kvd)) = some k)
    (hcheck : stageCheck h k = none) (hread : ∀ m ∈ stageMoves h k, s.badLine m.1 = false) :
    stageWork p [] s decl h = (s.putNoted (.plt p) (s.stageWrites h k)).finish (.plt p) (doneEnd (max decl 32)) := by
  have hfind : (stageMoves h k).findIdx? (fun m => s.badLine m.1) = none := List.findIdx?_eq_none_iff.2 hread
  unfold stageWork
  simp only [htag, hdesc, hcheck, Bool.not_true, Bool.false_eq_true, if_false]
  change (match (stageMoves h k).findIdx? (fun m => s.badLine m.1) with
    | some i => _
    | none => _) = _
  rw [hfind, List.take_length]
  rfl

/-! ### FEED -/

theorem execFeed_working {s : State} {p : Fin 2} {c : Placed} (hc : s.working (.plt p) = some c)
    (hop : bytesNat c.hdr 12 1 = 2) (hmv : s.namedMover c.hdr = true) :
    exec (.feed p []) s = .next (feedWork p [] s (hdrDecl c.hdr) (plaitHdr c.hdr)) := by
  change execFeed p [] s = _
  simp [execFeed, hc, hop, hmv]

/-- Lines of part `p` of a feed set (R190). -/
def feedPartLines (k : KvDesc) (p : Nat) : Nat :=
  let dp := min 128 (k.d - 128 * p)
  if k.int4 then 6 + dp / 4 + ceilDiv dp 64 + 32 + 2 else 4 + dp / 2 + 64

theorem feedPart_length (k : KvDesc) (s2k qf : Word) (toks : List TokenSlot) (p : Nat) :
    (feedPart k s2k qf toks p).length = feedPartLines k p := by
  cases hk : k.int4 <;>
    simp [feedPart, feedPartLines, hk, linesOfBytes_length] <;> omega

/-- The parts of a feed set, and two lines each for its value scales and its positions (R190). -/
theorem feedLines_eq (k : KvDesc) :
    feedLines k = ((List.range (ceilDiv k.d 128)).map (feedPartLines k)).sum + 4 := by
  rw [List.sum_eq_foldl, List.foldl_map]
  rfl

theorem feedSet_length (k : KvDesc) (s2k qf : Word) (toks : List TokenSlot) (pos : Nat → Int) :
    (feedSet k s2k qf toks pos).length = feedLines k := by
  simp [feedSet, feedLines_eq, linesOfBytes_length, List.length_flatMap, feedPart_length]

theorem feedTile_length (s : State) (k : KvDesc) (h : PlaitHdr) (s2 : Word) (tile : Nat) :
    (s.feedTile k h s2 tile).length = feedLines k := feedSet_length ..

/-- The lines of the first `n` tiles of a FEED. -/
def State.feedTiles (s : State) (k : KvDesc) (h : PlaitHdr) (n : Nat) : List Line :=
  (List.range n).flatMap fun tile => s.feedTile k h (s.kvScale k h.layer h.head0 0).2 tile

theorem feedTiles_length (s : State) (k : KvDesc) (h : PlaitHdr) (n : Nat) :
    (s.feedTiles k h n).length = n * feedLines k := by
  simp only [State.feedTiles, List.length_flatMap, feedTile_length, List.map_const', List.length_range, List.sum_replicate_nat]

/-- The keys of a run of hamper lines. -/
theorem mem_hamLines {l : Nat} {ls : List Line} {x : Nat × Line} (hx : x ∈ hamLines l ls) :
    hamKey l ≤ x.1 ∧ x.1 < hamKey l + ls.length := by
  obtain ⟨y, hy, rfl⟩ := List.mem_map.1 hx
  have hi : y.2 < ls.length := by simpa using List.snd_lt_of_mem_zipIdx hy
  simp only [hamKey]
  omega

/-- A command that writes a run of hamper lines leaves every line outside it. -/
theorem outside_putNoted_finish (s : State) (u : UnitId) (l : Nat) (ls : List Line) (e : RunEnd) :
    outside l ls.length s ((s.putNoted u (hamLines l ls)).finish u e) := by
  intro j hj
  refine putNoted_finish_ne s u e fun x hx => ?_
  obtain ⟨hlo, hhi⟩ := mem_hamLines hx
  omega

theorem KvDesc.rs_pos (k : KvDesc) : 0 < k.rs := by
  unfold KvDesc.rs
  split <;> omega

/-- A record of good lines whose header names its block can be used (R189, R203). -/
theorem feedFault_none {s : State} {k : KvDesc} {h : PlaitHdr} {n : Nat}
    (hread : ∀ i, i < k.rs → s.badLine (feedKey k h n (h.blk n) + i) = false)
    (hblk : bytesNat (s.line (feedKey k h n (h.blk n))) 4 4 = h.blk n % 2 ^ 32) : s.feedFault k h n = none := by
  have hhead : s.badLine (feedKey k h n (h.blk n)) = false := hread 0 k.rs_pos
  have hrest : ((List.range k.rs).map fun i => feedKey k h n (h.blk n) + i).find? s.badLine = none := by
    simpa [List.find?_eq_none] using hread
  simp [State.feedFault, hhead, hblk, hrest]

/-- A FEED that can read its scale and its records writes all its tiles and ends. -/
theorem feedWork_good {s : State} {p : Fin 2} {h : PlaitHdr} {k : KvDesc} (decl : Nat)
    (htag : s.tagOk (hamKey h.kvd) = true) (hdesc : kvDesc (s.line (hamKey h.kvd)) = some k)
    (hcheck : feedCheck h k = none) (hscale : s.badLine (s.kvScale k h.layer h.head0 0).1 = false)
    (hrec : ∀ n, n < h.p1 → h.blk n < ceilDiv k.len 64 → s.feedFault k h n = none) :
    feedWork p [] s decl h =
      (s.putNoted (.plt p) (hamLines h.p2 (s.feedTiles k h (ceilDiv h.p1 2)))).finish (.plt p)
        (doneEnd (max decl (2 * (32 + ceilDiv h.p1 2 * feedLines k)))) := by
  have hfind : (List.range h.p1).find? (fun n => h.blk n < (k.len + 63) / 64 && (s.feedFault k h n).isSome) = none := by
    simp only [List.find?_eq_none, List.mem_range, Bool.and_eq_true, decide_eq_true_eq, not_and]
    intro n hn hb
    simp [hrec n hn hb]
  unfold feedWork
  simp only [htag, hdesc, hcheck, hscale, hfind, Bool.not_true, Bool.false_eq_true, if_false, State.pltSpan,
    Option.elim_some]
  rfl

end Sys2Proof.Machine
end

section
/-! SUPPORT. APPEND where every line that it needs is good (R181 to R186). -/

open Sys2Proof Sys2Proof.Machine Sys2Proof.Claims

namespace Sys2Proof.Machine

theorem execAppend_working {s : State} {p : Fin 2} {c : Placed} (hc : s.working (.plt p) = some c)
    (hop : bytesNat c.hdr 12 1 = 1) (hmv : s.namedMover c.hdr = true) :
    exec (.append p []) s = .next (appendWork p [] s (hdrDecl c.hdr) (plaitHdr c.hdr)) := by
  change execAppend p [] s = _
  simp [execAppend, hc, hop, hmv]

/-! ### The keys of its records -/

/-- The head dimension of a KV descriptor is a multiple of 32 (R176). -/
theorem kvDesc_d {l : Line} {k : KvDesc} (h : kvDesc l = some k) : ∃ n, k.d = 32 * n := by
  unfold kvDesc at h
  dsimp only at h
  split at h
  · cases h
  · obtain rfl := Option.some.inj h
    exact ⟨_, rfl⟩

/-- A record has RS lines (R178). -/
theorem kvLines_length {k : KvDesc} (r : KvRec) (hd : ∃ n, k.d = 32 * n) : (kvLines k r).length = k.rs := by
  obtain ⟨n, hn⟩ := hd
  cases hk : k.int4 <;>
    simp [kvLines, kvElemLines, KvDesc.rs, KvDesc.half, hk, linesOfBytes_length, hn] <;> omega

/-- The lines of a record are written at the keys of the record. -/
theorem mem_appendOrder {key : Nat} {ls : List Line} {w : Nat × Line} (hw : w ∈ appendOrder key ls) :
    ∃ i, i < ls.length ∧ w.1 = key + i := by
  cases ls with
  | nil => cases hw
  | cons l ls =>
    rcases List.mem_append.1 hw with hw | hw
    · obtain ⟨i, hi, rfl⟩ := List.mem_map.1 hw
      exact ⟨i + 1, Nat.succ_lt_succ (List.mem_range.1 hi), by omega⟩
    · obtain rfl := List.mem_singleton.1 hw
      exact ⟨0, Nat.succ_pos _, rfl⟩

theorem mem_appendKeys {h : PlaitHdr} {k : KvDesc} {a : Nat} :
    a ∈ appendKeys h k ↔ ∃ x ∈ appendRecs h k, ∃ i, i < k.rs ∧ a = k.recKey h.layer (h.head0 + x.2) x.1 + i := by
  simp only [appendKeys, List.mem_flatMap, List.mem_map, List.mem_range, eq_comm]

/-- The record of each head in the block that LEN lies in is among those of an APPEND (R185). -/
theorem first_mem_appendRecs {h : PlaitHdr} {k : KvDesc} {e : Nat} (he : e < h.nhead) :
    (k.len / 64, e) ∈ appendRecs h k := by
  simp only [appendRecs, List.mem_flatMap, List.mem_map, List.mem_range]
  exact ⟨k.len / 64, ⟨0, Nat.succ_pos _, rfl⟩, e, he, rfl⟩

/-! ### The lines that it reads -/

/-- The lines of the scales of an APPEND can be read where those of its heads can (R177, R184). -/
theorem appendScales_good {s : State} {h : PlaitHdr} {k : KvDesc}
    (hs : ∀ e, e < h.nhead → ∀ half, half < 2 → s.badLine (s.kvScale k h.layer (h.head0 + e) half).1 = false) :
    ∀ x ∈ s.appendScales h k, s.badLine x.1 = false := by
  intro x hx
  obtain ⟨e, he, hx⟩ := List.mem_flatMap.1 hx
  have he := hs e (List.mem_range.1 he)
  split at hx
  · rcases List.mem_cons.1 hx with rfl | hx
    · exact he 0 (by decide)
    · obtain rfl := List.mem_singleton.1 hx
      exact he 1 (by decide)
  · cases hx

/-- An APPEND that passes its checks has its sources in the hamper (R180). -/
theorem appendCheck_fits {s : State} {h : PlaitHdr} {k : KvDesc} (hc : appendCheck s h k = none) :
    h.p0 + appendSrcLines h k ≤ hamperLines ∧ h.p1 + appendSrcLines h k ≤ hamperLines := by
  unfold appendCheck at hc
  split at hc
  · cases hc
  split at hc
  · cases hc
  split at hc
  · cases hc
  next hfits => simpa [hamFits] using hfits

theorem hamKeys_good {s : State} {l n : Nat} (hfits : l + n ≤ hamperLines)
    (ht : ∀ i, i < n → s.tagOk (hamKey (l + i)) = true) : ∀ a ∈ hamKeys l n, s.badLine a = false := by
  intro a ha
  obtain ⟨i, hi, rfl⟩ := List.mem_map.1 ha
  have hi := List.mem_range.1 hi
  exact badLine_of_good (lineAssigned_hamKey s (by omega)) (ht i hi)

/-- The keys of the records that an APPEND continues: those of the block that LEN lies in, where it holds tokens already (R185). -/
def appendPartials (h : PlaitHdr) (k : KvDesc) : List Nat :=
  if k.len % 64 = 0 then [] else
    (List.range h.nhead).flatMap fun e =>
      (List.range k.rs).map fun i => k.recKey h.layer (h.head0 + e) (k.len / 64) + i

theorem appendPartials_good {s : State} {h : PlaitHdr} {k : KvDesc} (ha : ∀ a ∈ appendKeys h k, s.lineAssigned a = true)
    (ht : k.len % 64 ≠ 0 → ∀ e, e < h.nhead → ∀ i, i < k.rs →
      s.tagOk (k.recKey h.layer (h.head0 + e) (k.len / 64) + i) = true) :
    ∀ a ∈ appendPartials h k, s.badLine a = false := by
  intro a hmem
  unfold appendPartials at hmem
  split at hmem
  · cases hmem
  · next hlen =>
    obtain ⟨e, he, hmem⟩ := List.mem_flatMap.1 hmem
    obtain ⟨i, hi, rfl⟩ := List.mem_map.1 hmem
    have he := List.mem_range.1 he
    have hi := List.mem_range.1 hi
    exact badLine_of_good (ha _ (mem_appendKeys.2 ⟨_, first_mem_appendRecs he, i, hi, rfl⟩)) (ht hlen e he i hi)

/-- The lines that an APPEND reads beside its descriptor and its scales. -/
def appendReads (h : PlaitHdr) (k : KvDesc) : List Nat :=
  appendPartials h k ++ hamKeys h.p0 (appendSrcLines h k) ++ hamKeys h.p1 (appendSrcLines h k)

theorem appendReads_good {s : State} {h : PlaitHdr} {k : KvDesc} (hcheck : appendCheck s h k = none)
    (hsrc : ∀ i, i < appendSrcLines h k → s.tagOk (hamKey (h.p0 + i)) = true ∧ s.tagOk (hamKey (h.p1 + i)) = true)
    (hpart : ∀ a ∈ appendPartials h k, s.badLine a = false) : ∀ a ∈ appendReads h k, s.badLine a = false := by
  obtain ⟨hfits0, hfits1⟩ := appendCheck_fits hcheck
  simp only [appendReads, List.mem_append]
  rintro a ((ha | ha) | ha)
  · exact hpart a ha
  · exact hamKeys_good hfits0 (fun i hi => (hsrc i hi).1) a ha
  · exact hamKeys_good hfits1 (fun i hi => (hsrc i hi).2) a ha

/-! ### The lines that it writes -/

/-- A record of an APPEND with its tokens, and the counts of R204. -/
def State.appendRec (s : State) (h : PlaitHdr) (k : KvDesc) (ks vs : Array Byte) (x : Nat × Nat) : KvRec × Nat × Nat :=
  appendBlock k h x.1 x.2 h.p2 ks vs (s.kvScale k h.layer (h.head0 + x.2) 0).2 (s.kvScale k h.layer (h.head0 + x.2) 1).2
    (s.kvBefore k h.layer (h.head0 + x.2) x.1)

/-- The lines that an APPEND writes, in their order, and the counts of R204. -/
def State.appendRun (s : State) (h : PlaitHdr) (k : KvDesc) (ks vs : Array Byte) : List (Nat × Line) × Nat × Nat :=
  (appendRecs h k).foldl (fun acc x =>
    let y := s.appendRec h k ks vs x
    (acc.1 ++ appendOrder (k.recKey h.layer (h.head0 + x.2) x.1) (kvLines k y.1), acc.2.1 + y.2.1, acc.2.2 + y.2.2))
    ([], 0, 0)

/-- What a fold collects that appends to its first component comes from one of its steps. -/
theorem mem_foldl_append {α β γ : Type} {g : α → List β} {f : List β × γ → α → List β × γ}
    (hf : ∀ acc x, (f acc x).1 = acc.1 ++ g x) {l : List α} {acc : List β × γ} {w : β} (hw : w ∈ (l.foldl f acc).1) :
    w ∈ acc.1 ∨ ∃ x ∈ l, w ∈ g x := by
  induction l generalizing acc with
  | nil => exact .inl hw
  | cons x l ih =>
    rcases ih hw with hw | ⟨y, hy, hw⟩
    · rw [hf, List.mem_append] at hw
      exact hw.imp_right fun hw => ⟨x, .head _, hw⟩
    · exact .inr ⟨y, .tail _ hy, hw⟩

/-- An APPEND writes only the records of the blocks of its tokens (R185, R186). -/
theorem appendRun_keys (s : State) {h : PlaitHdr} {k : KvDesc} (ks vs : Array Byte) (hd : ∃ n, k.d = 32 * n) :
    ∀ w ∈ (s.appendRun h k ks vs).1, w.1 ∈ appendKeys h k := by
  intro w hw
  rcases mem_foldl_append (fun _ _ => rfl) hw with hw | ⟨x, hx, hw⟩
  · cases hw
  · obtain ⟨i, hi, hkey⟩ := mem_appendOrder hw
    rw [kvLines_length _ hd] at hi
    exact mem_appendKeys.2 ⟨x, hx, i, hi, hkey⟩

/-- The bytes of a source of an APPEND. -/
def State.appendSrc (s : State) (h : PlaitHdr) (k : KvDesc) (l : Nat) : Array Byte :=
  (s.bytesAt (hamKey l) 0 (h.p2 * h.nhead * k.d * (if h.arg = 2 then 4 else 2))).toArray

/-- What an APPEND writes and counts. -/
def State.appendResult (s : State) (h : PlaitHdr) (k : KvDesc) : List (Nat × Line) × Nat × Nat :=
  s.appendRun h k (s.appendSrc h k h.p0) (s.appendSrc h k h.p1)

/-- The counts of an APPEND are added to PLT_QSTAT (R204). -/
def State.countQuants (s : State) (u : UnitId) (n : Nat × Nat) : State :=
  s.modRegs u fun x => { x with stat := qstatAdd x.stat n.1 n.2 }

/-- An APPEND that can read its lines and may write its records counts in PLT_QSTAT, writes the records and ends. -/
theorem appendWork_good {s : State} {p : Fin 2} {h : PlaitHdr} {k : KvDesc} (decl : Nat)
    (htag : s.tagOk (hamKey h.kvd) = true) (hdesc : kvDesc (s.line (hamKey h.kvd)) = some k)
    (hcheck : appendCheck s h k = none) (hscale : ∀ x ∈ s.appendScales h k, s.badLine x.1 = false)
    (hread : ∀ a ∈ appendReads h k, s.badLine a = false)
    (hwrite : ∀ w ∈ (s.appendResult h k).1, s.lineAssigned w.1 = true) :
    appendWork p [] s decl h =
      ((s.countQuants (.plt p) (s.appendResult h k).2).putNoted (.plt p) (s.appendResult h k).1).finish (.plt p)
        { doneEnd (max decl (2 * (48 + h.p2 * h.nhead * ceilDiv (2 * k.d * (if h.arg = 2 then 4 else 2)) 64))) with
          statOld := some (s.unit (.plt p)).regs.stat } := by
  have hscale : (s.appendScales h k).find? (fun x => s.badLine x.1) = none := by
    simpa only [List.find?_eq_none, Bool.not_eq_true] using hscale
  have hread : (appendReads h k).find? s.badLine = none := by
    simpa only [List.find?_eq_none, Bool.not_eq_true] using hread
  have hwrite : (s.appendResult h k).1.findIdx? (fun w : Nat × Line => !s.lineAssigned w.1) = none :=
    List.findIdx?_eq_none_iff.2 fun w hw => congrArg (!·) (hwrite w hw)
  unfold appendWork
  simp only [htag, hdesc, hcheck, hscale, Bool.not_true, Bool.false_eq_true, if_false, State.pltSpan, Option.elim_some]
  change (match (appendReads h k).find? s.badLine with
    | some _ => _
    | none => match (s.appendResult h k).1.findIdx? (fun w : Nat × Line => !s.lineAssigned w.1) with
      | some _ => _
      | none => _) = _
  rw [hread, hwrite]
  rfl

end Sys2Proof.Machine
end

section
/-! SUPPORT. STAGE, APPEND and FEED write only their lines. -/

open Sys2Proof Sys2Proof.Machine Sys2Proof.Claims

namespace Sys2Proof.Machine

/-- A STAGE of good lines writes what its sources hold to their places, and nothing else (R198). -/
theorem stageCopiesTheShardsRecords : Claims.StageCopiesTheShardsRecords := by
  unfold Claims.StageCopiesTheShardsRecords
  rintro s p c k h hc hmv hop hh hw htag hdesc hcheck hread hnodup
  obtain ⟨hrun, -, -⟩ := working_running hc
  refine ⟨_, execStage_working hc hop hmv, ?_⟩
  rw [← hh, stageWork_good _ htag hdesc hcheck fun m hm => badLine_of_good (hread m hm).1 (hread m hm).2]
  refine ⟨worked_putNoted_finish _ _ hrun rfl rfl, fun m hm => ?_, fun a ha => ?_, onlyUnit_putNoted_finish s _ _ _⟩
  · rw [finish_line, finish_tagOk]
    exact putNoted_mem (x := (m.2, s.line m.1)) _ hw (by rwa [stageWrites_keys]) (List.mem_map_of_mem hm)
  · rw [← stageWrites_keys s] at ha
    exact putNoted_finish_ne s _ _ fun x hx e => ha (e ▸ List.mem_map_of_mem hx)

/-- An APPEND writes the records of its blocks while it works, and LEN of its descriptor where it ends DONE (R181, R185, R186). -/
theorem appendGrowsTheKvContext : Claims.AppendGrowsTheKvContext := by
  unfold Claims.AppendGrowsTheKvContext
  constructor
  · rintro s p c k h hc hmv hop hh hw htag hdesc hcheck hscale hsrc hkeys hpart
    obtain ⟨hrun, -, -⟩ := working_running hc
    have hread := appendReads_good hcheck hsrc (appendPartials_good hkeys hpart)
    have hscale := appendScales_good fun e he half hf =>
      badLine_of_good (hscale e he half hf).1 (hscale e he half hf).2
    have hres : ∀ w ∈ (s.appendResult h k).1, w.1 ∈ appendKeys h k := appendRun_keys s _ _ (kvDesc_d hdesc)
    refine ⟨_, execAppend_working hc hop hmv, ?_⟩
    rw [← hh, appendWork_good _ htag hdesc hcheck hscale hread fun w hw => hkeys _ (hres w hw)]
    refine ⟨worked_putNoted_finish _ _ ((modRegs_run s _ _).trans hrun) rfl rfl, fun a ha => ?_,
      onlyUnit_trans (onlyUnit_modRegs s _ _) (onlyUnit_putNoted_finish _ _ _ _)⟩
    exact putNoted_finish_ne _ _ _ fun x hx e => ha (e ▸ hres x hx)
  · rintro s i p e d hrun hst ho hfin hd hb hused hop hr hw hdesc
    have hend := undisturbed_commandEnd_plait
      (s := s.putLine d (setField (s.line d) 64 64 (bytesNat (s.line d) 8 8 + (plaitHdr p.hdr).p2)))
      (e := { status := .done, used := e.used, det := 0, sticky := e.sticky, ties := [], bounded := false }) hrun rfl hr
    have hline := (hend.line d).trans (line_putLine_self _ _ hw)
    refine ⟨_, exec_commandEnd_plait hrun hst ho hfin hd hb hused, ?_⟩
    rw [appendLen_append hop, ← hdesc, hline]
    refine ⟨fieldNat_setField_same _ _ _ _ (by decide), fieldNat_setField_apart _ _ (by decide) (by decide),
      fieldNat_setField_apart _ _ (by decide) (by decide), fun a ha => ⟨?_, ?_⟩, fun v hv => ?_⟩
    · exact (hend.line a).trans (line_putLine_ne s _ ha)
    · exact (hend.tag a).trans (tag_putLine_ne s _ ha)
    · exact (hend.runs v).trans (vacate_run_ne _ hv)

end Sys2Proof.Machine

/-- Settles O21: a STAGE writes each source to its place, an APPEND the records of its blocks and, at its end, LEN. -/
theorem stageAndAppendWriteOnlyTheirLines : Obligations.StageAndAppendWriteOnlyTheirLines :=
  ⟨stageCopiesTheShardsRecords, appendGrowsTheKvContext⟩

/-- Settles O22: a FEED whose records are held, good and of their blocks writes its tiles from P2 on, as long as R190 counts. -/
theorem feedWritesOnlyItsTileSets : Obligations.FeedWritesOnlyItsTileSets := by
  unfold Obligations.FeedWritesOnlyItsTileSets
  rintro s p c k h hc hmv hop hh hw htag hdesc hcheck hsa hst hrec
  obtain ⟨hrun, -, -⟩ := working_running hc
  have hfault : ∀ n, n < h.p1 → h.blk n < ceilDiv k.len 64 →
      s.feedFault k h n = none := fun n hn hb => by
    obtain ⟨hlines, hblk⟩ := hrec n hn hb
    exact feedFault_none (fun i hi => badLine_of_good (hlines i hi).1 (hlines i hi).2) hblk
  refine ⟨_, execFeed_working hc hop hmv, ?_⟩
  rw [← hh, feedWork_good _ htag hdesc hcheck (badLine_of_good hsa hst) hfault, ← feedTiles_length s]
  exact ⟨worked_putNoted_finish _ _ hrun rfl rfl, outside_putNoted_finish s _ _ _ _, onlyUnit_putNoted_finish s _ _ _⟩

end

section
/-! SUPPORT. The bytes of lines and of runs of lines: what a line built from bytes holds, and what a read of memory gives. -/

open Sys2Proof Sys2Proof.Machine

namespace Sys2Proof.Machine

/-! ### Numbers and their bytes -/

theorem natOfBytes_eq_take_add_drop (bs : List Byte) {n : Nat} (h : n ≤ bs.length) :
    natOfBytes bs = natOfBytes (bs.take n) + 256 ^ n * natOfBytes (bs.drop n) := by
  have happend := natOfBytes_append (bs.take n) (bs.drop n)
  rwa [List.take_append_drop, List.length_take_of_le h] at happend

/-- The first `n` bytes are the number modulo 256^n. -/
theorem natOfBytes_mod (bs : List Byte) (n : Nat) : natOfBytes bs % 256 ^ n = natOfBytes (bs.take n) := by
  rcases Nat.le_total n bs.length with h | h
  · have hlt := natOfBytes_lt (bs.take n)
    rw [List.length_take_of_le h] at hlt
    rw [natOfBytes_eq_take_add_drop bs h, Nat.add_mul_mod_self_left, Nat.mod_eq_of_lt hlt]
  · rw [List.take_of_length_le h]
    exact Nat.mod_eq_of_lt (Nat.lt_of_lt_of_le (natOfBytes_lt bs) (Nat.pow_le_pow_right (by decide) h))

/-- The bytes behind the first `n` are the number divided by 256^n. -/
theorem natOfBytes_div (bs : List Byte) (n : Nat) : natOfBytes bs / 256 ^ n = natOfBytes (bs.drop n) := by
  rcases Nat.le_total n bs.length with h | h
  · have hlt := natOfBytes_lt (bs.take n)
    rw [List.length_take_of_le h] at hlt
    rw [natOfBytes_eq_take_add_drop bs h, Nat.add_mul_div_left _ _ (Nat.pow_pos (by decide)), Nat.div_eq_of_lt hlt, Nat.zero_add]
  · rw [List.drop_eq_nil_of_le h]
    exact Nat.div_eq_of_lt (Nat.lt_of_lt_of_le (natOfBytes_lt bs) (Nat.pow_le_pow_right (by decide) h))

theorem toNat_lineOfBytes (bs : List Byte) : (lineOfBytes bs).toNat = natOfBytes (bs.take 256) := by
  have hlt : natOfBytes (bs.take 256) < 256 ^ 256 :=
    Nat.lt_of_lt_of_le (natOfBytes_lt _) (Nat.pow_le_pow_right (by decide) (List.length_take_le 256 bs))
  exact (BitVec.toNat_ofNat _ (8 * 256)).trans (Nat.mod_eq_of_lt ((Nat.pow_mul 2 8 256).symm ▸ hlt))

/-- A field of whole bytes of a line that was made from bytes. -/
theorem bytesNat_lineOfBytes (bs : List Byte) {off n : Nat} (h : off + n ≤ 256) :
    bytesNat (lineOfBytes bs) off n = natOfBytes ((bs.drop off).take n) := by
  rw [bytesNat, fieldNat, BitVec.extractLsb'_toNat, toNat_lineOfBytes, Nat.shiftRight_eq_div_pow, Nat.pow_mul, Nat.pow_mul]
  change natOfBytes (bs.take 256) / 256 ^ off % 256 ^ n = _
  rw [natOfBytes_div, natOfBytes_mod, List.drop_take, List.take_take, Nat.min_eq_left (by omega)]

/-- One byte of a line that was made from bytes; behind them the line holds 0 (R84). -/
theorem extract_lineOfBytes (bs : List Byte) {i : Nat} (h : i < 256) :
    (lineOfBytes bs).extractLsb' (8 * i) 8 = bs.getD i 0#8 := by
  apply BitVec.eq_of_toNat_eq
  change bytesNat (lineOfBytes bs) i 1 = _
  rw [bytesNat_lineOfBytes bs (by omega)]
  rcases Nat.lt_or_ge i bs.length with hi | hi
  · rw [List.drop_eq_getElem_cons hi, List.take_succ_cons, List.take_zero, natOfBytes_cons, natOfBytes_nil,
      List.getD_eq_getElem?_getD, List.getElem?_eq_getElem hi, Option.getD_some, Nat.mul_zero, Nat.add_zero]
  · rw [List.drop_eq_nil_of_le hi, List.take_nil, natOfBytes_nil, List.getD_eq_getElem?_getD, List.getElem?_eq_none hi]
    rfl

/-! ### Runs of lines -/

theorem getElem_linesOfBytes (n : Nat) (bs : List Byte) {j : Nat} (h : j < (linesOfBytes n bs).length) :
    (linesOfBytes n bs)[j] = lineOfBytes (bs.drop (256 * j)) := by
  induction n generalizing bs j with
  | zero => exact absurd h (Nat.not_lt_zero j)
  | succ n ih =>
    cases j with
    | zero => rfl
    | succ j =>
      simp only [linesOfBytes, List.getElem_cons_succ, ih, List.drop_drop]
      rw [Nat.mul_succ, Nat.add_comm]

theorem getD_linesOfBytes {n j : Nat} (bs : List Byte) (h : j < n) :
    (linesOfBytes n bs).getD j 0#2048 = lineOfBytes (bs.drop (256 * j)) := by
  have hj : j < (linesOfBytes n bs).length := by rwa [linesOfBytes_length]
  rw [List.getD_eq_getElem?_getD, List.getElem?_eq_getElem hj, Option.getD_some, getElem_linesOfBytes]

/-- Enough lines for the bytes. -/
theorem le_ceilDiv_mul (a : Nat) {b : Nat} (h : 0 < b) : a ≤ ceilDiv a b * b := by
  rw [ceilDiv, if_neg (Nat.ne_of_gt h)]
  have := Nat.lt_div_mul_add (a := a + b - 1) h
  omega

/-! ### Reads of memory -/

/-- The byte at byte address `a` of the stores. -/
def State.byteAt (s : State) (a : Nat) : Byte := (s.line (a / 256)).extractLsb' (8 * (a % 256)) 8

theorem toBytes_line (s : State) (k : Nat) : toBytes (s.line k) 256 = (List.range 256).map fun i => s.byteAt (256 * k + i) := by
  refine List.map_congr_left fun i hi => ?_
  have hi := List.mem_range.1 hi
  rw [State.byteAt, Nat.mul_add_div (by decide), Nat.div_eq_of_lt hi, Nat.mul_add_mod, Nat.mod_eq_of_lt hi, Nat.add_zero]

/-- The bytes of consecutive lines, in order of their addresses. -/
theorem lines_bytes (s : State) (k n : Nat) :
    ((s.lines k n).flatMap fun l => toBytes l 256) = (List.range (256 * n)).map fun i => s.byteAt (256 * k + i) := by
  induction n with
  | zero => rfl
  | succ n ih =>
    have hlines : s.lines k (n + 1) = s.lines k n ++ [s.line (k + n)] := by simp [State.lines, List.range_succ]
    rw [hlines, List.flatMap_append, ih, List.flatMap_singleton, toBytes_line, Nat.mul_succ, List.range_add, List.map_append,
      List.map_map]
    congr 1
    refine List.map_congr_left fun i _ => ?_
    simp only [Function.comp_apply]
    congr 1
    omega

/-- A read of memory gives the bytes at the addresses it names. -/
theorem bytesAt_eq (s : State) (k off n : Nat) :
    s.bytesAt k off n = (List.range n).map fun i => s.byteAt (256 * k + off + i) := by
  unfold State.bytesAt
  simp only [lines_bytes]
  apply List.ext_getElem
  · simp only [List.length_take, List.length_drop, List.length_map, List.length_range]
    omega
  · intro i h1 h2
    simp only [List.getElem_take, List.getElem_drop, List.getElem_map, List.getElem_range]
    congr 1
    omega

@[simp] theorem bytesAt_length (s : State) (k off n : Nat) : (s.bytesAt k off n).length = n := by simp [bytesAt_eq]

/-- Where the lines under a read hold a byte string, the read gives the part of the string that it names. -/
theorem bytesAt_of_lines {t : State} {k off n : Nat} {bs : List Byte} (hlen : off + n ≤ bs.length)
    (h : ∀ j, 256 * j < off + n → off < 256 * (j + 1) → t.line (k + j) = lineOfBytes (bs.drop (256 * j))) :
    t.bytesAt k off n = (bs.drop off).take n := by
  rw [bytesAt_eq]
  apply List.ext_getElem
  · simp only [List.length_take, List.length_drop, List.length_map, List.length_range]
    omega
  · intro i hi _
    simp only [List.length_map, List.length_range] at hi
    have hmod := Nat.mod_lt (off + i) (show 0 < 256 by decide)
    have hline := h ((off + i) / 256) (by omega) (by omega)
    have hdiv : (256 * k + off + i) / 256 = k + (off + i) / 256 := by omega
    have hrem : (256 * k + off + i) % 256 = (off + i) % 256 := by omega
    simp only [List.getElem_map, List.getElem_range, List.getElem_take, List.getElem_drop, State.byteAt, hdiv, hrem, hline,
      extract_lineOfBytes _ hmod]
    rw [List.getD_eq_getElem?_getD, List.getElem?_drop, Nat.div_add_mod, List.getElem?_eq_getElem (by omega)]
    rfl

/-! ### Records of one size -/

theorem length_flatMap_blocks {α : Type} {f : α → List Byte} {w : Nat} {l : List α} (h : ∀ x ∈ l, (f x).length = w) :
    (l.flatMap f).length = l.length * w := by
  rw [List.length_flatMap, List.map_congr_left h, List.map_const', List.sum_replicate_nat]

/-- Of records of one size, one behind the other, record `i` begins at `i` times the size. -/
theorem flatMap_block {α : Type} {f : α → List Byte} {w : Nat} {l : List α} (h : ∀ x ∈ l, (f x).length = w) {i : Nat}
    (hi : i < l.length) : ((l.flatMap f).drop (i * w)).take w = f l[i] := by
  induction l generalizing i with
  | nil => exact absurd hi (Nat.not_lt_zero i)
  | cons x l ih =>
    have hx : (f x).length = w := h x (.head _)
    rw [List.flatMap_cons]
    cases i with
    | zero => rw [Nat.zero_mul, List.drop_zero, List.take_left' hx, List.getElem_cons_zero]
    | succ i =>
      rw [Nat.succ_mul, Nat.add_comm, ← List.drop_drop, List.drop_left' hx, List.getElem_cons_succ]
      exact ih (fun y hy => h y (.tail _ hy)) (Nat.lt_of_succ_lt_succ hi)

/-- A line made of 32-bit numbers gives each back modulo 2^32. -/
theorem bytesNat_words (ws : List Nat) {i : Nat} (hi : i < ws.length) (h : 4 * i + 4 ≤ 256) :
    bytesNat (lineOfBytes (ws.flatMap (natToBytes 4))) (4 * i) 4 = ws[i] % 2 ^ 32 := by
  rw [bytesNat_lineOfBytes _ h, Nat.mul_comm, flatMap_block (fun x _ => natToBytes_length 4 x) hi]
  exact natOfBytes_natToBytes 4 ws[i]

end Sys2Proof.Machine
end

section
/-! SUPPORT. The end of an engine's work, and the runs of hamper lines that it writes (R207, R208, R233). -/

open Sys2Proof Sys2Proof.Machine Sys2Proof.Claims

namespace Sys2Proof.Machine

/-! ### Lines with good tags -/

theorem firstBadOf_none {s : State} {ks : List Nat} (h : ∀ k ∈ ks, s.tagOk k = true) : s.firstBadOf ks = none :=
  List.find?_eq_none.2 fun k hk => by simp [h k hk]

theorem hamKeys_tagOk {s : State} {l n : Nat} (h : ∀ i, i < n → s.tagOk (hamKey (l + i)) = true) :
    ∀ k ∈ hamKeys l n, s.tagOk k = true := by
  intro k hk
  obtain ⟨i, hi, rfl⟩ := List.mem_map.1 hk
  exact h i (List.mem_range.1 hi)

/-! ### Runs of hamper lines -/

theorem hamLines_keys (l : Nat) (ls : List Line) : (hamLines l ls).map (·.1) = hamKeys l ls.length := by
  apply List.ext_getElem <;> simp [hamLines, hamKeys]

theorem hamKey_add (l j : Nat) : hamKey (l + j) = hamKey l + j := (Nat.add_assoc _ l j).symm

theorem hamKey_inj {a b : Nat} (h : hamKey a = hamKey b) : a = b := Nat.add_left_cancel h

theorem hamKeys_nodup (l n : Nat) : (hamKeys l n).Nodup :=
  List.Pairwise.map _ (fun _ _ hne h => hne (Nat.add_left_cancel (hamKey_inj h))) List.nodup_range

/-- Line `j` of a byte string is among the lines that are written of it. -/
theorem mem_hamLines_linesOfBytes {l n j : Nat} (bs : List Byte) (h : j < n) :
    (hamKey l + j, lineOfBytes (bs.drop (256 * j))) ∈ hamLines l (linesOfBytes n bs) := by
  have hj : j < (linesOfBytes n bs).length := by rwa [linesOfBytes_length]
  refine List.mem_map.2 ⟨((linesOfBytes n bs)[j], j), List.mk_mem_zipIdx_iff_getElem?.2 (List.getElem?_eq_getElem hj), ?_⟩
  rw [getElem_linesOfBytes, hamKey_add]

/-- A key outside a run of hamper lines is none of theirs. -/
theorem hamLines_ne {l : Nat} {ls : List Line} {k : Nat} (h : k < hamKey l ∨ hamKey l + ls.length ≤ k) :
    ∀ x ∈ hamLines l ls, x.1 ≠ k := by
  intro x hx e
  obtain ⟨hlo, hhi⟩ := mem_hamLines hx
  omega

/-! ### Noted writes, in parts -/

/-- A run of hamper lines that a command writes reads back with good tags. -/
theorem putNoted_hamLines {s : State} (u : UnitId) {l : Nat} {ls : List Line} (hw : s.storesWf = true)
    {x : Nat × Line} (hx : x ∈ hamLines l ls) :
    (s.putNoted u (hamLines l ls)).line x.1 = x.2 ∧ (s.putNoted u (hamLines l ls)).tagOk x.1 = true :=
  putNoted_mem u hw (hamLines_keys l ls ▸ hamKeys_nodup l _) hx

theorem putNoted_append (s : State) (u : UnitId) (xs ys : List (Nat × Line)) :
    s.putNoted u (xs ++ ys) = (s.putNoted u xs).putNoted u ys := by
  induction xs generalizing s with
  | nil => rfl
  | cons x xs ih => rw [List.cons_append, putNoted_cons, putNoted_cons, ih]

theorem noteWrite_regs (s : State) (u : UnitId) (i : Nat) (c : Option Nat) (k : Nat) (t : Option (Option Nat)) :
    ((s.noteWrite u i c k t).unit u).regs = (s.unit u).regs := by
  simp only [State.noteWrite, State.modUnit, unit_setUnit_self]

theorem putNoted_regs (s : State) (u : UnitId) (ls : List (Nat × Line)) :
    ((s.putNoted u ls).unit u).regs = (s.unit u).regs := by
  induction ls generalizing s with
  | nil => rfl
  | cons x xs ih =>
    rw [putNoted_cons, ih]
    exact noteWrite_regs s u _ none x.1 none

/-- Of two runs of writes the first stands where the second names no line of it. -/
theorem putNoted_append_left {s : State} (u : UnitId) {l : Nat} {ls : List Line} {ys : List (Nat × Line)}
    (hw : s.storesWf = true) {x : Nat × Line} (hx : x ∈ hamLines l ls) (hne : ∀ y ∈ ys, y.1 ≠ x.1) :
    (s.putNoted u (hamLines l ls ++ ys)).line x.1 = x.2 := by
  rw [putNoted_append, line_putNoted_ne _ u hne]
  exact (putNoted_hamLines u hw hx).1

/-- The second of two runs of writes stands. -/
theorem putNoted_append_right {s : State} (u : UnitId) {l : Nat} {ls : List Line} (xs : List (Nat × Line))
    (hw : s.storesWf = true) {x : Nat × Line} (hx : x ∈ hamLines l ls) :
    (s.putNoted u (xs ++ hamLines l ls)).line x.1 = x.2 := by
  rw [putNoted_append]
  exact (putNoted_hamLines u (storesWf_putNoted u xs hw) hx).1

/-! ### The end of the work -/

/-- An engine whose stores strike no parity error counts its events and ends DONE (R208, R233). -/
theorem engDone_nil (s : State) (u : UnitId) (n used : Nat) :
    s.engDone u n used [] = (s.modRegs u fun x => { x with stat := statAdd x.stat n }).finish u
      { doneEnd used with statOld := some (s.unit u).regs.stat } := rfl

@[simp] theorem engDone_line (s : State) (u : UnitId) (n used k : Nat) : (s.engDone u n used []).line k = s.line k := rfl
@[simp] theorem engDone_tag (s : State) (u : UnitId) (n used k : Nat) : (s.engDone u n used []).tag k = s.tag k := rfl
@[simp] theorem engDone_tagOk (s : State) (u : UnitId) (n used k : Nat) : (s.engDone u n used []).tagOk k = s.tagOk k := rfl

@[simp] theorem engDone_bytesAt (s : State) (u : UnitId) (n used k off m : Nat) :
    (s.engDone u n used []).bytesAt k off m = s.bytesAt k off m := rfl

theorem worked_engDone {s : State} {u : UnitId} {p : Placed} (ls : List (Nat × Line)) (n used : Nat)
    (hrun : (s.unit u).run = some p) : worked u p used ((s.putNoted u ls).engDone u n used []) :=
  ⟨_, finish_run _ ((modRegs_run _ u _).trans ((putNoted_run s u ls).trans hrun)), rfl, rfl, rfl⟩

theorem onlyUnit_engDone (s : State) (u : UnitId) (ls : List (Nat × Line)) (n used : Nat) :
    onlyUnit u s ((s.putNoted u ls).engDone u n used []) :=
  onlyUnit_trans (onlyUnit_putNoted s u ls) (onlyUnit_trans (onlyUnit_modRegs _ u _) (onlyUnit_finish _ u _))

/-- The counter of the engine has grown by the events of the command (R233). -/
theorem stat_engDone (s : State) (u : UnitId) (ls : List (Nat × Line)) (n used : Nat) :
    (((s.putNoted u ls).engDone u n used []).unit u).regs.stat = statAdd (s.unit u).regs.stat n := by
  rw [engDone_nil]
  simp only [State.finish, State.modRun, State.modRegs, State.modUnit, unit_setUnit_self, putNoted_regs]

theorem engDone_ne (s : State) (u : UnitId) {ls : List (Nat × Line)} (n used : Nat) {k : Nat} (h : ∀ x ∈ ls, x.1 ≠ k) :
    ((s.putNoted u ls).engDone u n used []).line k = s.line k ∧
    ((s.putNoted u ls).engDone u n used []).tag k = s.tag k := by
  rw [engDone_line, engDone_tag]
  exact ⟨line_putNoted_ne s u h, tag_putNoted_ne s u h⟩

/-- Where every line of a byte string has been written, a read gives the part of the string that it names. -/
theorem bytesAt_of_written {t : State} {l n off m : Nat} {bs : List Byte} (hlen : off + m ≤ bs.length)
    (hn : off + m ≤ n * 256) (h : ∀ x ∈ hamLines l (linesOfBytes n bs), t.line x.1 = x.2) :
    t.bytesAt (hamKey l) off m = (bs.drop off).take m :=
  bytesAt_of_lines hlen fun _ hj _ => h _ (mem_hamLines_linesOfBytes bs (by omega))

/-- Record `i` of `cnt` records of one size, read where the lines of all have been written. -/
theorem bytesAt_block {f : Nat → List Byte} {w cnt : Nat} (hf : ∀ i, (f i).length = w) {t : State} {l n i : Nat}
    (hi : i < cnt) (hn : cnt * w ≤ n * 256)
    (h : ∀ x ∈ hamLines l (linesOfBytes n ((List.range cnt).flatMap f)), t.line x.1 = x.2) :
    t.bytesAt (hamKey l) (i * w) w = f i := by
  have hf : ∀ i ∈ List.range cnt, (f i).length = w := fun i _ => hf i
  have hlen := length_flatMap_blocks hf
  have hend : (i + 1) * w ≤ cnt * w := Nat.mul_le_mul_right w hi
  rw [List.length_range] at hlen
  rw [Nat.succ_mul] at hend
  rw [bytesAt_of_written (hlen ▸ hend) (Nat.le_trans hend hn) h, flatMap_block hf (by rwa [List.length_range]),
    List.getElem_range]

end Sys2Proof.Machine
end

section
/-! SUPPORT. SAMPLE where every line that it needs is good (R206 to R216). -/

open Sys2Proof Sys2Proof.Machine Sys2Proof.Claims

namespace Sys2Proof.Machine

theorem execSample_working {s : State} {e : Fin 4} {c : Placed} (hc : s.working (.twn e) = some c) :
    exec (.sample e []) s = .next (sampleWork e [] s c.hdr) := by
  change execSample e [] s = _
  simp [execSample, hc]

/-! ### The size of an output record (R214) -/

/-- A sample leaves a query its 64 accumulators. -/
theorem sampleStep_length (h : SampleHdr) (lv : List (Level × Array Byte)) (record : BitVec 128) {q : QueryAcc}
    (hq : q.acc.length = 64) : (sampleStep h lv record q).acc.length = 64 := by
  unfold sampleStep
  dsimp only
  split
  · exact hq
  split
  · exact hq
  split
  · exact hq
  · rw [List.length_map, List.length_range]

theorem sampleOut_length (h : SampleHdr) {acc : List Word} (ha : acc.length = 64) : (sampleOut h acc).length = h.ob := by
  unfold sampleOut SampleHdr.ob
  split <;> rw [length_flatMap_blocks fun w _ => natToBytes_length _ _, ha]

theorem sampleQuery_length (h : SampleHdr) (lv : List (Level × Array Byte)) (sa : Array Byte) (q : Nat) :
    (sampleQuery h lv sa q).1.length = h.ob :=
  sampleOut_length h <| List.foldlRecOn _ _ (motive := fun x : QueryAcc => x.acc.length = 64) List.length_replicate
    fun _ hx _ _ => sampleStep_length h lv _ hx

/-! ### The output lines and the count -/

/-- The records of a whole SAMPLE, one behind the other (R214). -/
def sampleRecords (h : SampleHdr) (lv : List (Level × Array Byte)) (sa : Array Byte) : List Byte :=
  (List.range h.nq).flatMap fun q => (sampleQuery h lv sa q).1

theorem sampleRecords_length (h : SampleHdr) (lv : List (Level × Array Byte)) (sa : Array Byte) :
    (sampleRecords h lv sa).length = h.nq * h.ob := by
  rw [sampleRecords, length_flatMap_blocks fun q _ => sampleQuery_length h lv sa q, List.length_range]

/-- A whole SAMPLE writes the lines of its records and counts the samples that its queries excluded (R214, R233). -/
theorem sampleRun_whole (h : SampleHdr) (lv : List (Level × Array Byte)) (sa : Array Byte) :
    sampleRun h lv sa h.nq =
      (hamLines h.out (linesOfBytes (ceilDiv (h.nq * h.ob) 256) (sampleRecords h lv sa)),
        ((List.range h.nq).map fun q => (sampleQuery h lv sa q).2).sum) := by
  have hrecords : ((List.range h.nq).map fun q => sampleQuery h lv sa q).flatMap (·.1) = sampleRecords h lv sa := by
    rw [List.flatMap_map, sampleRecords]
  have hcount : ((List.range h.nq).map fun q => sampleQuery h lv sa q).foldl (fun n x => n + x.2) 0 =
      ((List.range h.nq).map fun q => (sampleQuery h lv sa q).2).sum := by
    rw [List.foldl_map, List.sum_eq_foldl, List.foldl_map]
  rw [sampleRun, hrecords, hcount, if_pos rfl, sampleRecords_length]

/-! ### The work -/

/-- A SAMPLE that passes its checks and can read its levels and its records does them all and ends DONE. -/
theorem sampleWork_good {s : State} {e : Fin 4} {hd : Header} {h : SampleHdr} {ls : List Level} (hh : h = sampleHdr hd)
    (hls : ls = levelsOf h.nlev (s.line (hamKey h.levt))) (htag : s.tagOk (hamKey h.levt) = true)
    (hcheck : sampleCheck s hd = none)
    (hlev : s.firstBadOf (ls.flatMap fun l => hamKeys l.src (ceilDiv (l.w * l.h * h.vr) 256)) = none)
    (hsamp : s.firstBadOf (hamKeys h.samp (ceilDiv (16 * h.nq * h.nsq) 256)) = none) :
    sampleWork e [] s hd =
      (let r := sampleRun h (ls.map fun l => (l, (s.bytesAt (hamKey l.src) 0 (l.w * l.h * h.vr)).toArray))
        (s.bytesAt (hamKey h.samp) 0 (16 * h.nq * h.nsq)).toArray h.nq
      (s.putNoted (.twn e) r.1).engDone (.twn e) r.2 (2 * sampleOcc h ls) []) := by
  subst hls hh
  simp only [sampleWork, htag, hcheck, hlev, hsamp, Bool.not_true, Bool.false_eq_true, if_false]
  rfl

end Sys2Proof.Machine

/-- Settles O23: what a SAMPLE of good lines writes are the lines of its queries' records, all of one size. -/
theorem sampleWritesOneRecordPerQuery : Obligations.SampleWritesOneRecordPerQuery := by
  unfold Obligations.SampleWritesOneRecordPerQuery
  rintro s e c h ls lv sa hc hh hw htag hcheck hls hlev hsamp hlv hsa
  obtain ⟨hrun, -, -⟩ := working_running hc
  have hlev : s.firstBadOf (ls.flatMap fun l => hamKeys l.src (ceilDiv (l.w * l.h * h.vr) 256)) = none :=
    firstBadOf_none fun k hk => by
      obtain ⟨l, hl, hk⟩ := List.mem_flatMap.1 hk
      exact hamKeys_tagOk (hlev l hl) k hk
  refine ⟨_, execSample_working hc, ?_⟩
  rw [sampleWork_good hh hls htag hcheck hlev (firstBadOf_none (hamKeys_tagOk hsamp)), ← hlv, ← hsa]
  simp only [sampleRun_whole]
  refine ⟨worked_engDone _ _ _ hrun, fun q hq => ?_, fun x hx => putNoted_hamLines _ hw hx, stat_engDone _ _ _ _ _,
    fun k hk => ?_, onlyUnit_engDone _ _ _ _ _⟩
  · exact bytesAt_block (sampleQuery_length h lv sa) hq (le_ceilDiv_mul _ (by decide))
      fun x hx => (putNoted_hamLines _ hw hx).1
  · refine engDone_ne _ _ _ _ (hamLines_ne ?_)
    rwa [linesOfBytes_length]
end

section
/-! SUPPORT. SCATTER where every line that it needs is good (R225). -/

open Sys2Proof Sys2Proof.Machine Sys2Proof.Claims

namespace Sys2Proof.Machine

theorem execScatter_working {s : State} {e : Fin 2} {c : Placed} (hc : s.working (.coil e) = some c)
    (hop : bytesNat c.hdr 12 1 = 2) : exec (.scatter e []) s = .next (scatterWork e [] s c.hdr) := by
  change execScatter e [] s = _
  simp [execScatter, hc, hop]

/-! ### The feature of a cell -/

/-- The features whose cell lies in a grid of `cells` cells, in order. -/
def scatterPlaced (cell : Nat → Nat) (cells nv : Nat) : List Nat := (List.range nv).filter fun i => cell i < cells

/-- The feature that each cell holds once the features placed have been written in order. -/
def scatterMap (cell : Nat → Nat) (cells nv : Nat) : Sparse (Option Nat) :=
  (scatterPlaced cell cells nv).foldl (fun m i => sparsePut none m (cell i) (some i)) []

theorem scatterMap_wf (cell : Nat → Nat) (cells nv : Nat) : sparseWf none (scatterMap cell cells nv) = true :=
  List.foldlRecOn _ _ (motive := fun m => sparseWf none m = true) rfl fun _ hm _ _ => sparsePut_wf hm

/-- A further feature takes its cell, where that lies in the grid. -/
theorem scatterMap_succ (cell : Nat → Nat) (cells nv : Nat) :
    scatterMap cell cells (nv + 1) =
      if cell nv < cells then sparsePut none (scatterMap cell cells nv) (cell nv) (some nv) else scatterMap cell cells nv := by
  unfold scatterMap scatterPlaced
  rw [List.range_succ, List.filter_append, List.foldl_append]
  split
  · next h => rw [List.filter_cons_of_pos (by simpa using h)]; rfl
  · next h => rw [List.filter_cons_of_neg (by simpa using h)]; rfl

/-- A cell that no feature names holds none. -/
theorem scatterMap_none {cell : Nat → Nat} {cells nv k : Nat} (h : ∀ i, i < nv → cell i ≠ k) :
    sparseGet none (scatterMap cell cells nv) k = none := by
  induction nv with
  | zero => rfl
  | succ n ih =>
    have ih := ih fun i hi => h i (by omega)
    rw [scatterMap_succ]
    split
    · rw [sparseGet_put_ne (h n (by omega)).symm, ih]
    · exact ih

/-- A cell of the grid holds the last feature that names it. -/
theorem scatterMap_last {cell : Nat → Nat} {cells nv i : Nat} (hi : i < nv) (hk : cell i < cells)
    (hlast : ∀ j, i < j → j < nv → cell j ≠ cell i) : sparseGet none (scatterMap cell cells nv) (cell i) = some i := by
  induction nv with
  | zero => exact absurd hi (Nat.not_lt_zero i)
  | succ n ih =>
    rw [scatterMap_succ]
    rcases Nat.lt_succ_iff_lt_or_eq.1 hi with hlt | rfl
    · have ih := ih hlt fun j hij hj => hlast j hij (by omega)
      split
      · rw [sparseGet_put_ne (hlast n hlt (by omega)).symm, ih]
      · exact ih
    · rw [if_pos hk, sparseGet_put_self (scatterMap_wf cell cells i)]

/-! ### The lines written -/

/-- The record of cell `k` of the grid: that of its feature, or zeros. -/
def State.scatterRecord (s : State) (feat fr : Nat) (map : Sparse (Option Nat)) (k : Nat) : List Byte :=
  match sparseGet none map k with
  | some i => s.bytesAt (hamKey feat) (i * fr) fr
  | none => List.replicate fr 0#8

theorem scatterRecord_length (s : State) (feat fr : Nat) (map : Sparse (Option Nat)) (k : Nat) :
    (s.scatterRecord feat fr map k).length = fr := by
  unfold State.scatterRecord
  split
  · exact bytesAt_length s _ _ _
  · exact List.length_replicate

/-- The cell of feature `i` in the coordinates' bytes. -/
def coordCell (cs : Array Byte) (i : Nat) : Nat := natOfBytes ((List.range 4).map fun j => cs.getD (4 * i + j) 0#8)

theorem coordCell_bytesAt (s : State) (k : Nat) {nv i : Nat} (hi : i < nv) :
    coordCell (s.bytesAt k 0 (4 * nv)).toArray i = natOfBytes (s.bytesAt k (4 * i) 4) := by
  rw [coordCell, bytesAt_eq, bytesAt_eq]
  congr 1
  refine List.map_congr_left fun j hj => ?_
  have hj := List.mem_range.1 hj
  have hlt : 4 * i + j < 4 * nv := by omega
  simp [hlt, Nat.add_assoc]

/-- The cell of feature `i`, as its coordinate names it. -/
def State.scatterCell (s : State) (hd : Header) : Nat → Nat :=
  coordCell (s.bytesAt (hamKey (bytesNat hd 24 4)) 0 (4 * scatterNv hd)).toArray

/-- The bytes of the grid of a SCATTER over `cells` cells, cell by cell. -/
def State.scatterBytes (s : State) (hd : Header) (cells : Nat) : List Byte :=
  (List.range cells).flatMap
    (s.scatterRecord (bytesNat hd 28 4) (scatterFr hd) (scatterMap (s.scatterCell hd) cells (scatterNv hd)))

/-- The summary of a SCATTER over `cells` cells: the features placed and the others. -/
def State.scatterSummary (s : State) (hd : Header) (cells : Nat) : List Nat :=
  let placed := (scatterPlaced (s.scatterCell hd) cells (scatterNv hd)).length
  [placed, scatterNv hd - placed]

/-- The lines that a SCATTER writes: its grid and its summary. -/
def State.scatterOutputs (s : State) (hd : Header) (cells : Nat) : List (Nat × Line) :=
  hamLines (bytesNat hd 32 4) (linesOfBytes (ceilDiv (cells * scatterFr hd) 256) (s.scatterBytes hd cells)) ++
  hamLines (bytesNat hd 88 4) [lineOfBytes ((s.scatterSummary hd cells).flatMap (natToBytes 4))]

/-- A SCATTER that passes its checks and can read its features writes its outputs and ends DONE. -/
theorem scatterWork_good {s : State} {e : Fin 2} {hd : Header} {w : Line} (hw : w = s.line (hamKey (bytesNat hd 20 4)))
    (htag : s.tagOk (hamKey (bytesNat hd 20 4)) = true) (hcheck : scatterCheck s hd = none)
    (hread : s.firstBadOf (hamKeys (bytesNat hd 24 4) (ceilDiv (4 * scatterNv hd) 256) ++
      hamKeys (bytesNat hd 28 4) (ceilDiv (scatterNv hd * scatterFr hd) 256)) = none) :
    scatterWork e [] s hd =
      (s.putNoted (.coil e) (s.scatterOutputs hd (sweepNx w * sweepNy w))).engDone (.coil e) 0 (2 * scatterOcc hd w) [] := by
  subst hw
  simp only [scatterWork, htag, hcheck, hread, Bool.not_true, Bool.false_eq_true, if_false]
  rfl

/-! ### What they hold -/

theorem scatterFr_cases (hd : Header) : scatterFr hd = 64 ∨ scatterFr hd = 128 ∨ scatterFr hd = 256 := by
  unfold scatterFr
  split
  · exact .inl rfl
  split
  · exact .inr (.inl rfl)
  · exact .inr (.inr rfl)

/-- A record of the grid lies in one line. -/
theorem scatterFr_line {hd : Header} {k j : Nat} (hlo : 256 * j < k * scatterFr hd + scatterFr hd)
    (hhi : k * scatterFr hd < 256 * (j + 1)) : j = k * scatterFr hd / 256 := by
  rcases scatterFr_cases hd with h | h | h <;> rw [h] at hlo hhi ⊢ <;> omega

/-- Cell `k` of the grid holds its record, unless the summary lies on its line. -/
theorem scatterOutputs_record {s : State} {u : UnitId} {hd : Header} {cells k : Nat} (hw : s.storesWf = true) (hk : k < cells)
    (hne : hamKey (bytesNat hd 32 4 + k * scatterFr hd / 256) ≠ hamKey (bytesNat hd 88 4)) :
    (s.putNoted u (s.scatterOutputs hd cells)).bytesAt (hamKey (bytesNat hd 32 4)) (k * scatterFr hd) (scatterFr hd) =
      s.scatterRecord (bytesNat hd 28 4) (scatterFr hd) (scatterMap (s.scatterCell hd) cells (scatterNv hd)) k := by
  have hrec : ∀ i ∈ List.range cells, (s.scatterRecord (bytesNat hd 28 4) (scatterFr hd)
      (scatterMap (s.scatterCell hd) cells (scatterNv hd)) i).length = scatterFr hd :=
    fun i _ => scatterRecord_length s _ _ _ i
  have hlen := length_flatMap_blocks hrec
  have hend : (k + 1) * scatterFr hd ≤ cells * scatterFr hd := Nat.mul_le_mul_right _ hk
  have hlines := le_ceilDiv_mul (cells * scatterFr hd) (show 0 < 256 by decide)
  rw [List.length_range] at hlen
  rw [Nat.succ_mul] at hend
  rw [bytesAt_of_lines (bs := s.scatterBytes hd cells) (Nat.le_trans hend (Nat.le_of_eq hlen.symm)) fun j hlo hhi => ?_]
  · exact (flatMap_block hrec (by rwa [List.length_range])).trans (by rw [List.getElem_range])
  · refine putNoted_append_left u hw (mem_hamLines_linesOfBytes _ (by omega)) fun y hy => ?_
    obtain rfl := List.mem_singleton.1 hy
    rw [scatterFr_line hlo hhi, ← hamKey_add]
    exact hne.symm

/-- The summary's line holds the summary. -/
theorem scatterOutputs_summary {s : State} {u : UnitId} {hd : Header} (cells : Nat) (hw : s.storesWf = true) :
    (s.putNoted u (s.scatterOutputs hd cells)).line (hamKey (bytesNat hd 88 4)) =
      lineOfBytes ((s.scatterSummary hd cells).flatMap (natToBytes 4)) :=
  putNoted_append_right u _ hw (x := (hamKey (bytesNat hd 88 4), _)) (.head _)

/-- NV is a 32-bit number, and so is the number of features placed. -/
theorem scatterSummary_lt (s : State) (hd : Header) (cells : Nat) : ∀ x ∈ s.scatterSummary hd cells, x < 2 ^ 32 := by
  have hplaced : (scatterPlaced (s.scatterCell hd) cells (scatterNv hd)).length ≤ scatterNv hd :=
    Nat.le_trans (List.length_filter_le _ _) (Nat.le_of_eq List.length_range)
  have hnv : scatterNv hd < 2 ^ 32 := BitVec.isLt _
  intro x hx
  simp only [State.scatterSummary, List.mem_cons, List.not_mem_nil, or_false] at hx
  omega

/-- The summary's line gives the two numbers back. -/
theorem scatterSummary_word (s : State) (hd : Header) (cells : Nat) {i : Nat} (hi : i < (s.scatterSummary hd cells).length) :
    bytesNat (lineOfBytes ((s.scatterSummary hd cells).flatMap (natToBytes 4))) (4 * i) 4 = (s.scatterSummary hd cells)[i] := by
  have hlen : (s.scatterSummary hd cells).length = 2 := rfl
  rw [bytesNat_words _ hi (by omega), Nat.mod_eq_of_lt (scatterSummary_lt s hd cells _ (List.getElem_mem hi))]

/-- The outputs lie on the lines of the grid and of the summary. -/
theorem scatterOutputs_ne (s : State) {hd : Header} {cells k : Nat} (hsum : k ≠ hamKey (bytesNat hd 88 4))
    (hgrid : k < hamKey (bytesNat hd 32 4) ∨ hamKey (bytesNat hd 32 4) + ceilDiv (cells * scatterFr hd) 256 ≤ k) :
    ∀ x ∈ s.scatterOutputs hd cells, x.1 ≠ k := by
  intro x hx
  rcases List.mem_append.1 hx with hx | hx
  · exact hamLines_ne (by rwa [linesOfBytes_length]) x hx
  · obtain rfl := List.mem_singleton.1 hx
    exact hsum.symm

/-- A SCATTER of good lines writes its grid and its summary (R225). -/
theorem scatterPlacesEachFeatureInItsCell : Claims.ScatterPlacesEachFeatureInItsCell := by
  unfold Claims.ScatterPlacesEachFeatureInItsCell
  rintro s e c w fr nv cells cell hc hop hw hwl htag hcheck rfl rfl hcells hcoord hfeat hcell
  obtain ⟨hrun, -, -⟩ := working_running hc
  have hread : s.firstBadOf (hamKeys (bytesNat c.hdr 24 4) (ceilDiv (4 * scatterNv c.hdr) 256) ++
      hamKeys (bytesNat c.hdr 28 4) (ceilDiv (scatterNv c.hdr * scatterFr c.hdr) 256)) = none :=
    firstBadOf_none fun k hk => (List.mem_append.1 hk).elim (hamKeys_tagOk hcoord k) (hamKeys_tagOk hfeat k)
  have hcell : ∀ i, i < scatterNv c.hdr → cell i = s.scatterCell c.hdr i := fun i hi =>
    (hcell i hi).trans (coordCell_bytesAt s _ hi).symm
  have hplaced : (List.range (scatterNv c.hdr)).filter (fun i => cell i < cells) =
      scatterPlaced (s.scatterCell c.hdr) cells (scatterNv c.hdr) :=
    List.filter_congr fun i hi => by rw [hcell i (List.mem_range.1 hi)]
  refine ⟨_, execScatter_working hc hop, ?_⟩
  rw [scatterWork_good hwl htag hcheck hread, ← hcells, hplaced]
  simp only [engDone_line, engDone_bytesAt, scatterOutputs_summary _ hw]
  refine ⟨worked_engDone _ _ _ hrun, fun k hk hne => ⟨fun i hi hik hlast => ?_, fun hnone => ?_⟩, ?_, ?_,
    fun k hsum hgrid => ?_, onlyUnit_engDone _ _ _ _ _⟩
  · rw [scatterOutputs_record hw hk hne, State.scatterRecord]
    obtain rfl : s.scatterCell c.hdr i = k := (hcell i hi).symm.trans hik
    rw [scatterMap_last hi hk fun j hij hj => hcell j hj ▸ hlast j hij hj]
  · rw [scatterOutputs_record hw hk hne, State.scatterRecord, scatterMap_none fun i hi => hcell i hi ▸ hnone i hi]
  · exact scatterSummary_word s c.hdr cells (i := 0) Nat.two_pos
  · exact scatterSummary_word s c.hdr cells (i := 1) Nat.one_lt_two
  · exact engDone_ne _ _ _ _ (scatterOutputs_ne s hsum hgrid)

end Sys2Proof.Machine
end

section
/-! SUPPORT. VOXEL where every line that it needs is good (R217 to R224). -/

open Sys2Proof Sys2Proof.Machine Sys2Proof.Claims

namespace Sys2Proof.Machine

theorem execVoxel_working {s : State} {e : Fin 2} {c : Placed} (hc : s.working (.coil e) = some c)
    (hop : bytesNat c.hdr 12 1 = 1) : exec (.voxel e []) s = .next (voxelWork e [] s c.hdr) := by
  change execVoxel e [] s = _
  simp [execVoxel, hc, hop]

/-! ### What a sparse store can hold -/

theorem mem_sparsePut {α : Type} [DecidableEq α] {d v : α} {m : Sparse α} {k : Nat} {x : Nat × α}
    (h : x ∈ sparsePut d m k v) : x ∈ m ∨ x = (k, v) := by
  induction m with
  | nil =>
    simp only [sparsePut] at h
    split at h
    · cases h
    · exact .inr (List.mem_singleton.1 h)
  | cons y m ih =>
    obtain ⟨i, w⟩ := y
    simp only [sparsePut] at h
    split at h
    · split at h
      · exact .inl h
      · exact (List.mem_cons.1 h).symm
    split at h
    · split at h
      · exact .inl (.tail _ h)
      · exact (List.mem_cons.1 h).symm.imp_left (.tail _)
    · rcases List.mem_cons.1 h with rfl | h
      · exact .inl (.head _)
      · exact (ih h).imp_left (.tail _)

/-- A store gives its default or a value that it lists. -/
theorem sparseGet_mem {α : Type} (d : α) (m : Sparse α) (k : Nat) :
    sparseGet d m k = d ∨ (k, sparseGet d m k) ∈ m := by
  induction m with
  | nil => exact .inl rfl
  | cons y m ih =>
    obtain ⟨i, w⟩ := y
    simp only [sparseGet]
    split
    · next h => exact .inr (h ▸ .head _)
    · exact ih.imp_right (.tail _)

/-! ### The size of a stored point (R222) -/

/-- Every stored point has 16 bytes. -/
def VoxelRun.sized (r : VoxelRun) : Prop := ∀ x ∈ r.points, x.2.length = 16

theorem pointBytes_length (x y z dt : Nat) (inten ring : Byte) :
    (natToBytes 4 x ++ natToBytes 4 y ++ natToBytes 4 z ++ [inten, ring] ++ natToBytes 2 dt).length = 16 := by
  simp only [List.length_append, natToBytes_length, List.length_cons, List.length_nil]

/-- A point either is dropped or is stored in one place (R221, R222). -/
theorem add_points (r : VoxelRun) (w : Line) (x y z : Word) (inten ring : Byte) (dt : Word) :
    (r.add w x y z inten ring dt).points = r.points ∨
    ∃ k b, b.length = 16 ∧ (r.add w x y z inten ring dt).points = sparsePut [] r.points k b := by
  unfold VoxelRun.add
  dsimp only
  split
  · exact .inl rfl
  split
  · exact .inl rfl
  split
  · split
    · exact .inl rfl
    · exact .inr ⟨_, _, pointBytes_length _ _ _ _ inten ring, rfl⟩
  · split
    · exact .inl rfl
    · exact .inr ⟨_, _, pointBytes_length _ _ _ _ inten ring, rfl⟩

theorem add_sized {r : VoxelRun} (w : Line) (x y z : Word) (inten ring : Byte) (dt : Word) (h : r.sized) :
    (r.add w x y z inten ring dt).sized := by
  intro p hp
  rcases add_points r w x y z inten ring dt with hadd | ⟨k, b, hb, hadd⟩
  · exact h p (hadd ▸ hp)
  · rcases mem_sparsePut (hadd ▸ hp) with hp | rfl
    · exact h p hp
    · exact hb

theorem voxelSlot_sized {r : VoxelRun} (d w : Line) (get : Nat → Byte) (az el : Array Byte) (h : r.sized) :
    (voxelSlot d w get az el r).sized := by
  unfold voxelSlot
  dsimp only
  split
  · exact h
  · refine List.foldlRecOn _ _ (motive := VoxelRun.sized) h fun r hr i _ => ?_
    split
    · exact hr
    · exact add_sized w _ _ _ _ _ _ hr

theorem voxelRun_sized (s : State) (hd : Header) (d w : Line) (n : Nat) : (s.voxelRun hd d w n).sized :=
  List.foldlRecOn _ _ (motive := VoxelRun.sized) (fun _ hx => nomatch hx) fun _ hr _ _ => voxelSlot_sized d w _ _ _ hr

/-! ### The lines written -/

/-- The bytes of place `i` of the point output: those of its point, or zeros. -/
def VoxelRun.pointAt (r : VoxelRun) (i : Nat) : List Byte :=
  if sparseGet [] r.points i = [] then List.replicate 16 0#8 else sparseGet [] r.points i

theorem pointAt_length {r : VoxelRun} (h : r.sized) (i : Nat) : (r.pointAt i).length = 16 := by
  unfold VoxelRun.pointAt
  split
  · exact List.length_replicate
  · next hne => exact h _ ((sparseGet_mem [] r.points i).resolve_left hne)

/-- The bytes of place `v` of the coordinate output: the cell of its voxel, or all ones. -/
def VoxelRun.coordAt (r : VoxelRun) (v : Nat) : List Byte := natToBytes 4 (r.order.getD v 0xFFFFFFFF)

/-- The numbers of the summary (R222). -/
def VoxelRun.summary (r : VoxelRun) : List Nat :=
  let cnt := fun k => (r.drops.filter (· == k)).length
  [r.order.length, r.stored, r.bad, cnt .noReturn, cnt .time, cnt .badField, cnt .outside, cnt .voxelFull, cnt .pointFull]

/-- The outputs are the points, the coordinates and the summary, each from its line on. -/
theorem voxelOutputs_eq (hd : Header) (w : Line) (r : VoxelRun) :
    voxelOutputs hd w r =
      hamLines (voxOutp hd) (linesOfBytes (ceilDiv (16 * (sweepVmax w * sweepPmax w)) 256)
        ((List.range (sweepVmax w * sweepPmax w)).flatMap r.pointAt)) ++
      hamLines (voxOutc hd) (linesOfBytes (ceilDiv (4 * sweepVmax w) 256) ((List.range (sweepVmax w)).flatMap r.coordAt)) ++
      hamLines (voxOuts hd) [lineOfBytes (r.summary.flatMap (natToBytes 4))] := by
  have hpoint : (fun i => match sparseGet [] r.points i with
      | [] => List.replicate 16 0#8
      | b => b) = r.pointAt := by
    funext i
    unfold VoxelRun.pointAt
    split
    · next h => rw [if_pos h]
    · next h => rw [if_neg h]
  rw [← hpoint]
  rfl

/-- The outputs lie on the lines of the points, of the coordinates and of the summary. -/
theorem voxelOutputs_ne {hd : Header} {w : Line} (r : VoxelRun) {k : Nat} (hsum : k ≠ hamKey (voxOuts hd))
    (hpts : k < hamKey (voxOutp hd) ∨ hamKey (voxOutp hd) + ceilDiv (16 * (sweepVmax w * sweepPmax w)) 256 ≤ k)
    (hco : k < hamKey (voxOutc hd) ∨ hamKey (voxOutc hd) + ceilDiv (4 * sweepVmax w) 256 ≤ k) :
    ∀ x ∈ voxelOutputs hd w r, x.1 ≠ k := by
  intro x hx
  rw [voxelOutputs_eq] at hx
  rcases List.mem_append.1 hx with hx | hx
  · rcases List.mem_append.1 hx with hx | hx
    · exact hamLines_ne (by rw [linesOfBytes_length]; exact hpts) x hx
    · exact hamLines_ne (by rw [linesOfBytes_length]; exact hco) x hx
  · obtain rfl := List.mem_singleton.1 hx
    exact hsum.symm

/-- What the outputs hold where each of their lines stands. -/
theorem voxelOutputs_read {t : State} {hd : Header} {w : Line} {r : VoxelRun} (hr : r.sized)
    (h : ∀ x ∈ voxelOutputs hd w r, t.line x.1 = x.2) :
    (∀ i, i < sweepVmax w * sweepPmax w → t.bytesAt (hamKey (voxOutp hd)) (16 * i) 16 = r.pointAt i) ∧
    (∀ v, v < sweepVmax w → t.bytesAt (hamKey (voxOutc hd)) (4 * v) 4 = r.coordAt v) ∧
    t.line (hamKey (voxOuts hd)) = lineOfBytes (r.summary.flatMap (natToBytes 4)) := by
  rw [voxelOutputs_eq] at h
  refine ⟨fun i hi => ?_, fun v hv => ?_, ?_⟩
  · have hn := le_ceilDiv_mul (16 * (sweepVmax w * sweepPmax w)) (show 0 < 256 by decide)
    rw [Nat.mul_comm 16 i]
    exact bytesAt_block (pointAt_length hr) hi (Nat.le_trans (Nat.le_of_eq (Nat.mul_comm _ _)) hn)
      fun x hx => h x (List.mem_append_left _ (List.mem_append_left _ hx))
  · have hn := le_ceilDiv_mul (4 * sweepVmax w) (show 0 < 256 by decide)
    rw [Nat.mul_comm 4 v]
    exact bytesAt_block (f := r.coordAt) (fun v => natToBytes_length 4 _) hv (Nat.le_trans (Nat.le_of_eq (Nat.mul_comm _ _)) hn)
      fun x hx => h x (List.mem_append_left _ (List.mem_append_right _ hx))
  · exact h (hamKey (voxOuts hd), _) (List.mem_append_right _ (.head _))

/-! ### The work -/

/-- The state once `n` free values have been drawn. -/
def State.drawn (s : State) (n : Nat) : State := { s with freeCtr := s.freeCtr + n }

theorem drawn_unit (s : State) (n : Nat) (u : UnitId) : (s.drawn n).unit u = s.unit u := rfl
theorem drawn_line (s : State) (n k : Nat) : (s.drawn n).line k = s.line k := rfl
theorem drawn_tag (s : State) (n k : Nat) : (s.drawn n).tag k = s.tag k := rfl
theorem storesWf_drawn (s : State) (n : Nat) : (s.drawn n).storesWf = s.storesWf := rfl
theorem onlyUnit_drawn (s : State) (u : UnitId) (n : Nat) : onlyUnit u s (s.drawn n) := onlyUnit_refl u s

/-- The lines of the angle tables that a VOXEL with descriptor `d` reads: none in Cartesian mode (R218). -/
def voxTabKeys (d : Line) : List Nat :=
  if bytesNat d 1 1 == 1 then hamKeys (bytesNat d 32 4) (ceilDiv (8 * bytesNat d 28 4) 256) ++ hamKeys (bytesNat d 36 4) 12
  else []

/-- A VOXEL that passes its checks and can read its tables and slots groups them all, writes its outputs and ends DONE. It draws
as many free values as its slots may need (log 19). -/
theorem voxelWork_good {s : State} {e : Fin 2} {hd : Header} {d w : Line} (hd' : d = s.line (hamKey (voxDesc hd)))
    (hw : w = s.line (hamKey (voxSweep hd))) (hdesc : s.firstBadOf [hamKey (voxDesc hd), hamKey (voxSweep hd)] = none)
    (hcheck : voxelCheck s hd = none) (htab : s.firstBadOf (voxTabKeys d) = none)
    (hslot : s.firstBadOf (hamKeys (voxSlot0 hd) (voxNpkt hd * voxSlotl hd)) = none) :
    voxelWork e [] s hd =
      (let r := s.voxelRun hd d w (voxNpkt hd)
      ((s.drawn (257 * voxNpkt hd)).putNoted (.coil e) (voxelOutputs hd w r)).engDone
        (.coil e) r.drops.length (2 * voxelOcc hd d w) []) := by
  subst hd' hw
  unfold voxTabKeys at htab
  simp only [voxelWork, hdesc, hcheck, htab, hslot]
  rfl

/-- A VOXEL of good lines writes its points, coordinates and summary (R217 to R224). -/
theorem voxelWritesPointsCoordinatesAndSummary : Claims.VoxelWritesPointsCoordinatesAndSummary := by
  unfold Claims.VoxelWritesPointsCoordinatesAndSummary
  rintro s e c d w r hc hop hw hd hwl hdt hwt hcheck htab hslot rfl
  obtain ⟨hrun, -, -⟩ := working_running hc
  have hdesc : s.firstBadOf [hamKey (voxDesc c.hdr), hamKey (voxSweep c.hdr)] = none :=
    firstBadOf_none (by simp only [List.forall_mem_cons, hdt, hwt, List.not_mem_nil, false_implies, implies_true, and_self])
  have htab : s.firstBadOf (voxTabKeys d) = none := firstBadOf_none fun k hk => by
    unfold voxTabKeys at hk
    split at hk
    · next hsph =>
      obtain ⟨haz, hel⟩ := htab (beq_iff_eq.1 hsph)
      exact (List.mem_append.1 hk).elim (hamKeys_tagOk haz k) (hamKeys_tagOk hel k)
    · cases hk
  have hsized := voxelRun_sized s c.hdr d w (voxNpkt c.hdr)
  refine ⟨_, execVoxel_working hc hop, ?_⟩
  rw [voxelWork_good hd hwl hdesc hcheck htab (firstBadOf_none (hamKeys_tagOk hslot))]
  generalize s.voxelRun c.hdr d w (voxNpkt c.hdr) = r at hsized ⊢
  generalize 257 * voxNpkt c.hdr = n
  refine ⟨worked_engDone _ _ _ ((drawn_unit s n _).symm ▸ hrun), fun hnodup => ?_, ?_, fun k hsum hpts hco => ?_,
    onlyUnit_trans (onlyUnit_drawn s _ n) (onlyUnit_engDone _ _ _ _ _)⟩
  · have hlines := fun x hx => putNoted_mem (x := x) (.coil e) ((storesWf_drawn s n).trans hw) hnodup hx
    obtain ⟨hpoints, hcoords, hsummary⟩ := voxelOutputs_read hsized fun x hx => (hlines x hx).1
    simp only [engDone_line, engDone_tagOk, engDone_bytesAt, hsummary]
    exact ⟨hlines, hpoints, hcoords, bytesNat_words r.summary (i := 0) (Nat.zero_lt_succ _) (by decide),
      bytesNat_words r.summary (i := 1) (Nat.succ_lt_succ (Nat.zero_lt_succ _)) (by decide)⟩
  · rw [stat_engDone, drawn_unit]
  · rw [← drawn_line s n, ← drawn_tag s n]
    exact engDone_ne _ _ _ _ (voxelOutputs_ne r hsum hpts hco)

end Sys2Proof.Machine

/-- Settles O24: each writes its outputs from their lines on, a SCATTER the last feature of each cell, a VOXEL what it groups. -/
theorem coilPlacesFeaturesAndVoxels : Obligations.CoilPlacesFeaturesAndVoxels :=
  ⟨scatterPlacesEachFeatureInItsCell, voxelWritesPointsCoordinatesAndSummary⟩
end

section
/-! SUPPORT. The order of values, and the selection and suppression of a Waling command (R227, R230). -/

open Sys2Proof Sys2Proof.Machine Sys2Proof.Claims

namespace Sys2Proof.Machine

/-! ### The order of values -/

/-- A mantissa aligned lower is scaled up. -/
theorem alignInt_lower (a : Bool) (m : Nat) {e e1 e0 : Int} (h1 : e1 ≤ e) (h0 : e0 ≤ e1) :
    alignInt a m e e0 = alignInt a m e e1 * ((2 ^ (e1 - e0).toNat : Nat) : Int) := by
  have hsplit : (e - e0).toNat = (e - e1).toNat + (e1 - e0).toNat := by omega
  unfold alignInt
  rw [hsplit, Nat.pow_add, Int.natCast_mul, ← Int.mul_assoc]
  cases a
  · rfl
  · exact (Int.neg_mul _ _).symm

/-- Finite values compare as their mantissas do, aligned at any exponent that is low enough. -/
theorem fpLt_fin {a b : Bool} {m n : Nat} {e f e0 : Int} (he : e0 ≤ e) (hf : e0 ≤ f) :
    fpLt (.fin a m e) (.fin b n f) = true ↔ alignInt a m e e0 < alignInt b n f e0 := by
  have hpos : 0 < ((2 ^ (min e f - e0).toNat : Nat) : Int) := Int.natCast_pos.2 (Nat.pow_pos (by decide))
  rw [alignInt_lower a m (Int.min_le_left e f) (Int.le_min.2 ⟨he, hf⟩),
    alignInt_lower b n (Int.min_le_right e f) (Int.le_min.2 ⟨he, hf⟩), Int.mul_lt_mul_right hpos]
  exact decide_eq_true_iff

/-- The exponent of a finite value. -/
def Fp.expo : Fp → Int
  | .fin _ _ e => e
  | _ => 0

/-- Below, among or above the finite values. -/
def Fp.tier : Fp → Int
  | .inf true => -1
  | .inf false => 1
  | _ => 0

/-- Where a number stands within its tier: a finite value by its mantissa at exponent `e0`. -/
def Fp.height (e0 : Int) : Fp → Int
  | .fin a m e => alignInt a m e e0
  | _ => 0

/-- The comparison of numbers is that of their tiers and heights, a linear order (R37). -/
theorem fpLt_iff {x y : Fp} {e0 : Int} (hx : x ≠ .nan) (hy : y ≠ .nan) (hex : e0 ≤ x.expo) (hey : e0 ≤ y.expo) :
    fpLt x y = true ↔ x.tier < y.tier ∨ x.tier = y.tier ∧ x.height e0 < y.height e0 := by
  cases x with
  | nan => exact absurd rfl hx
  | inf a =>
    cases y with
    | nan => exact absurd rfl hy
    | inf b => cases a <;> cases b <;> simp only [fpLt, Fp.tier, Fp.height] <;> decide
    | fin b n f => cases a <;> simp [fpLt, Fp.tier]
  | fin a m e =>
    cases y with
    | nan => exact absurd rfl hy
    | inf b => cases b <;> simp [fpLt, Fp.tier]
    | fin b n f =>
      rw [fpLt_fin (e := e) (f := f) hex hey]
      simp only [Fp.tier, Fp.height, Int.lt_irrefl, false_or, true_and]

/-- Of two values at most one is the smaller. -/
theorem fpLt_asymm {x y : Fp} (hx : x ≠ .nan) (hy : y ≠ .nan) (h : fpLt x y = true) : fpLt y x = false := by
  have hex : min x.expo y.expo ≤ x.expo := Int.min_le_left _ _
  have hey : min x.expo y.expo ≤ y.expo := Int.min_le_right _ _
  rw [fpLt_iff hx hy hex hey] at h
  rw [← Bool.not_eq_true, fpLt_iff hy hx hey hex]
  omega

/-- Not to be smaller is transitive among numbers. -/
theorem fpLt_false_trans {x y z : Fp} (hx : x ≠ .nan) (hy : y ≠ .nan) (hz : z ≠ .nan) (hxy : fpLt x y = false)
    (hyz : fpLt y z = false) : fpLt x z = false := by
  obtain ⟨e0, hex, hey, hez⟩ : ∃ e0, e0 ≤ x.expo ∧ e0 ≤ y.expo ∧ e0 ≤ z.expo :=
    ⟨min x.expo (min y.expo z.expo), by omega, by omega, by omega⟩
  rw [← Bool.not_eq_true, fpLt_iff hx hy hex hey] at hxy
  rw [← Bool.not_eq_true, fpLt_iff hy hz hey hez] at hyz
  rw [← Bool.not_eq_true, fpLt_iff hx hz hex hez]
  omega

/-- A number that another value does not exceed is not NaN. -/
theorem ne_nan_of_fpLe {x y : Fp} (h : fpLe x y = true) : y ≠ .nan := by
  rintro rfl
  cases x <;> cases h

/-! ### The selection (R227) -/

/-- Every candidate has a number as its score. -/
def scored (cs : List Cand) : Prop := ∀ c ∈ cs, c.score ≠ .nan

/-- No candidate is better than one before it. -/
def descending (cs : List Cand) : Prop := cs.Pairwise fun a b => fpLt a.score b.score = false

theorem insertCand_perm (c : Cand) (cs : List Cand) : (insertCand c cs).Perm (c :: cs) := by
  induction cs with
  | nil => exact .refl _
  | cons x xs ih =>
    unfold insertCand
    split
    · exact .refl _
    · exact (ih.cons x).trans (.swap c x xs)

/-- A candidate goes behind those that it does not beat and before those that it beats. -/
theorem insertCand_descending {c : Cand} {cs : List Cand} (hs : scored (c :: cs)) (hd : descending cs) :
    descending (insertCand c cs) := by
  induction cs with
  | nil => exact List.pairwise_singleton _ c
  | cons x xs ih =>
    obtain ⟨hc, hx, hxs⟩ : c.score ≠ .nan ∧ x.score ≠ .nan ∧ scored xs := by simpa [scored] using hs
    obtain ⟨hfirst, hrest⟩ := List.pairwise_cons.1 hd
    unfold insertCand
    split
    · next hlt =>
      have hcx := fpLt_asymm hx hc hlt
      refine List.pairwise_cons.2 ⟨fun y hy => ?_, hd⟩
      rcases List.mem_cons.1 hy with rfl | hy
      · exact hcx
      · exact fpLt_false_trans hc hx (hxs y hy) hcx (hfirst y hy)
    · next hge =>
      refine List.pairwise_cons.2 ⟨fun y hy => ?_, ih (List.forall_mem_cons.2 ⟨hc, hxs⟩) hrest⟩
      rcases List.mem_cons.1 ((insertCand_perm c xs).mem_iff.1 hy) with rfl | hy
      · exact Bool.eq_false_iff.2 hge
      · exact hfirst y hy

/-- The first `k` after an insertion depend on the first `k` before it. -/
theorem insertCand_take (c : Cand) (k : Nat) (cs : List Cand) :
    (insertCand c (cs.take k)).take k = (insertCand c cs).take k := by
  induction cs generalizing k with
  | nil => rw [List.take_nil]
  | cons x xs ih =>
    cases k with
    | zero => rfl
    | succ k =>
      simp only [List.take_succ_cons, insertCand]
      split
      · cases k with
        | zero => rfl
        | succ k => simp [List.take_take]
      · rw [List.take_succ_cons, List.take_succ_cons, ih]

/-- All candidates by descending score. -/
def ranked (cs : List Cand) : List Cand := cs.foldl (fun l c => insertCand c l) []

/-- The selection is the front of the ranking. -/
theorem walSelect_eq (k : Nat) (cs : List Cand) : walSelect k cs = (ranked cs).take k := by
  have hfold : ∀ l : List Cand,
      cs.foldl (fun l c => (insertCand c l).take k) (l.take k) = (cs.foldl (fun l c => insertCand c l) l).take k := by
    induction cs with
    | nil => exact fun _ => rfl
    | cons c cs ih =>
      intro l
      rw [List.foldl_cons, List.foldl_cons, insertCand_take, ih]
  have hnil := hfold []
  rwa [List.take_nil] at hnil

theorem ranked_perm (cs : List Cand) : (ranked cs).Perm cs := by
  have hfold : ∀ l : List Cand, (cs.foldl (fun l c => insertCand c l) l).Perm (l ++ cs) := by
    induction cs with
    | nil => exact fun l => by rw [List.append_nil]; exact .refl l
    | cons c cs ih =>
      intro l
      exact (ih _).trans (((insertCand_perm c l).append_right cs).trans List.perm_middle.symm)
  exact hfold []

theorem ranked_descending {cs : List Cand} (hs : scored cs) : descending (ranked cs) := by
  have hfold : ∀ l : List Cand, scored (l ++ cs) → descending l → descending (cs.foldl (fun l c => insertCand c l) l) := by
    clear hs
    induction cs with
    | nil => exact fun _ _ hd => hd
    | cons c cs ih =>
      intro l hl hd
      have hperm := List.perm_middle (a := c) (l₁ := l) (l₂ := cs)
      have hl : scored (c :: l ++ cs) := fun x hx => hl x (hperm.mem_iff.2 hx)
      exact ih _ (fun x hx => hl x (((insertCand_perm c l).append_right cs).mem_iff.1 hx))
        (insertCand_descending (fun x hx => hl x (List.mem_append_left _ hx)) hd)
  exact hfold [] hs .nil

/-- The selection takes as many candidates as K, and none left out is better than one taken. -/
theorem walSelect_spec (k : Nat) {cs : List Cand} (hs : scored cs) :
    (walSelect k cs).length = min k cs.length ∧ (∀ a ∈ walSelect k cs, a ∈ cs) ∧ descending (walSelect k cs) ∧
    (∀ a ∈ cs, a ∉ walSelect k cs → ∀ b ∈ walSelect k cs, fpLt b.score a.score = false) := by
  have hperm := ranked_perm cs
  have hdesc := ranked_descending hs
  rw [walSelect_eq]
  refine ⟨by rw [List.length_take, hperm.length_eq], fun a ha => hperm.mem_iff.1 (List.mem_of_mem_take ha), hdesc.take,
    fun a ha hout b hb => ?_⟩
  have ha : a ∈ (ranked cs).drop k := by
    rw [← hperm.mem_iff, ← List.take_append_drop k (ranked cs), List.mem_append] at ha
    exact ha.resolve_left hout
  rw [← List.take_append_drop k (ranked cs)] at hdesc
  exact (List.pairwise_append.1 hdesc).2.2 b hb a ha

/-- A candidate that reaches the threshold has a number as its score. -/
theorem walValid_scored (s : State) (h : WalHdr) (n : Nat) : scored (s.walValid h n) := by
  intro c hc
  have hvalid := (List.mem_filter.1 hc).2
  rw [candValid, Bool.and_eq_true] at hvalid
  exact ne_nan_of_fpLe hvalid.1

/-! ### The suppression (R230) -/

section
variable {α : Type} (p : List α → α → Bool)

/-- Keep or leave each element in turn, by what is kept already: what is kept stays in order. -/
theorem foldl_keep_sublist (l acc : List α) :
    (l.foldl (fun kept j => if p kept j then kept ++ [j] else kept) acc).Sublist (acc ++ l) := by
  induction l generalizing acc with
  | nil => simp
  | cons x l ih =>
    rw [List.foldl_cons]
    split
    · simpa using ih (acc ++ [x])
    · exact (ih acc).trans ((List.sublist_cons_self x l).append_left acc)

theorem foldl_keep_length {n : Nat} (hp : ∀ kept j, p kept j = true → kept.length < n) (l : List α) {acc : List α}
    (ha : acc.length ≤ n) : (l.foldl (fun kept j => if p kept j then kept ++ [j] else kept) acc).length ≤ n := by
  induction l generalizing acc with
  | nil => exact ha
  | cons x l ih =>
    rw [List.foldl_cons]
    split
    · next hx =>
      refine ih ?_
      rw [List.length_append]
      exact hp acc x hx
    · exact ih ha

end

theorem walKeep_topk {h : WalHdr} (sel : List Cand) (hop : h.op = 1) : walKeep h sel = sel := if_pos hop

theorem walKeep_sublist (h : WalHdr) (sel : List Cand) : (walKeep h sel).Sublist sel := by
  by_cases hop : h.op = 1
  · rewrite [walKeep_topk sel hop]
    exact .refl sel
  · unfold walKeep
    rw [if_neg hop]
    exact foldl_keep_sublist _ sel []

theorem walKeep_length {h : WalHdr} (sel : List Cand) (hop : h.op ≠ 1) : (walKeep h sel).length ≤ h.maxout := by
  unfold walKeep
  rw [if_neg hop]
  refine foldl_keep_length _ (fun kept j hk => ?_) sel (Nat.zero_le _)
  rw [Bool.and_eq_true, decide_eq_true_iff] at hk
  exact hk.1

end Sys2Proof.Machine
end

section
/-! SUPPORT. TOPK, NMS2D and NMSBEV where their candidates' lines are good (R226 to R232). -/

open Sys2Proof Sys2Proof.Machine Sys2Proof.Claims

namespace Sys2Proof.Machine

theorem execTopk_working {s : State} {e : Fin 2} {c : Placed} (hc : s.working (.wal e) = some c)
    (hop : bytesNat c.hdr 12 1 = 1) : exec (.topk e []) s = .next (walWork e [] s c.hdr) := by
  change execTopk e [] s = _
  simp [execTopk, hc, hop]

theorem execNms2d_working {s : State} {e : Fin 2} {c : Placed} (hc : s.working (.wal e) = some c)
    (hop : bytesNat c.hdr 12 1 = 2) : exec (.nms2d e []) s = .next (walWork e [] s c.hdr) := by
  change execNms2d e [] s = _
  simp [execNms2d, hc, hop]

theorem execNmsbev_working {s : State} {e : Fin 2} {c : Placed} (hc : s.working (.wal e) = some c)
    (hop : bytesNat c.hdr 12 1 = 3) : exec (.nmsbev e []) s = .next (walWork e [] s c.hdr) := by
  change execNmsbev e [] s = _
  simp [execNmsbev, hc, hop]

/-- The bytes that a Waling command writes (R231). -/
def State.walBytes (s : State) (h : WalHdr) : List Byte :=
  let valid := s.walValid h h.n
  let sel := walSelect h.k valid
  walOutput h sel (walKeep h sel) valid.length

/-- A Waling command that passes its checks and can read its candidates writes its output and ends DONE. -/
theorem walWork_good {s : State} {e : Fin 2} {hd : Header} {h : WalHdr} (hh : h = walHdr hd) (hcheck : walCheck hd = none)
    (hread : s.firstBadOf (hamKeys h.inLine (ceilDiv (32 * h.n) 256)) = none) :
    walWork e [] s hd =
      (s.putNoted (.wal e) (hamLines h.out (linesOfBytes (ceilDiv (s.walBytes h).length 256) (s.walBytes h)))).engDone (.wal e)
        (h.n - (s.walValid h h.n).length) (2 * walOcc h) [] := by
  subst hh
  simp only [walWork, hcheck, hread]
  rfl

theorem walRecord_length (c : Cand) : (walRecord c).length = 32 := toBytes_length _ 32

/-- The records of the candidates kept come first in the output. -/
theorem walOutput_record (h : WalHdr) (sel kept : List Cand) (valid : Nat) {i : Nat} (hi : i < kept.length) :
    32 * i + 32 ≤ (walOutput h sel kept valid).length ∧
    ((walOutput h sel kept valid).drop (32 * i)).take 32 = walRecord kept[i] := by
  have hrec : ∀ c ∈ kept, (walRecord c).length = 32 := fun c _ => walRecord_length c
  have hlen := length_flatMap_blocks hrec
  unfold walOutput
  simp only [List.append_assoc]
  constructor
  · rw [List.length_append]
    omega
  · have hfit : 32 ≤ ((kept.flatMap walRecord).drop (32 * i)).length := by rw [List.length_drop]; omega
    rw [List.drop_append_of_le_length (by omega), List.take_append_of_le_length hfit, Nat.mul_comm, flatMap_block hrec hi]

/-- What a Waling command leaves whose candidates can be read (R227, R230 to R232). -/
theorem walWork_leaves {s : State} {e : Fin 2} {c : Placed} {h : WalHdr} (hc : s.working (.wal e) = some c)
    (hh : h = walHdr c.hdr) (hcheck : walCheck c.hdr = none) (hw : s.storesWf = true)
    (hread : ∀ j, j < ceilDiv (32 * h.n) 256 → s.tagOk (hamKey (h.inLine + j)) = true) :
    walingLeaves e c h s (walWork e [] s c.hdr) := by
  obtain ⟨hrun, -, -⟩ := working_running hc
  obtain ⟨hlen, hmem, hdesc, hout⟩ := walSelect_spec h.k (walValid_scored s h h.n)
  rw [walWork_good hh hcheck (firstBadOf_none (hamKeys_tagOk hread))]
  have hlines := fun x hx => putNoted_hamLines (s := s) (.wal e) (l := h.out)
    (ls := linesOfBytes (ceilDiv (s.walBytes h).length 256) (s.walBytes h)) hw (x := x) hx
  refine ⟨worked_engDone _ _ _ hrun, hlen, hmem, fun j a b ha hb => ?_, hout, walKeep_sublist _ _, walKeep_topk _,
    walKeep_length _, fun j hj => ?_, fun i a ha => ?_, fun k hk => ?_, stat_engDone _ _ _ _ _, onlyUnit_engDone _ _ _ _ _⟩
  · obtain ⟨hj, rfl⟩ := List.getElem?_eq_some_iff.1 ha
    obtain ⟨hj', rfl⟩ := List.getElem?_eq_some_iff.1 hb
    exact List.pairwise_iff_getElem.1 hdesc j (j + 1) hj hj' (Nat.lt_succ_self j)
  · have hline := hlines _ (mem_hamLines_linesOfBytes (l := h.out) (s.walBytes h) hj)
    rw [← hamKey_add] at hline
    exact ⟨hline.1.trans (getD_linesOfBytes _ hj).symm, hline.2⟩
  · obtain ⟨hi, rfl⟩ := List.getElem?_eq_some_iff.1 ha
    obtain ⟨hend, hrecord⟩ := walOutput_record h (walSelect h.k (s.walValid h h.n)) _ (s.walValid h h.n).length hi
    have hn := Nat.le_trans hend (le_ceilDiv_mul _ (show 0 < 256 by decide))
    exact (bytesAt_of_written hend hn fun x hx => (hlines x hx).1).trans hrecord
  · refine engDone_ne _ _ _ _ (hamLines_ne ?_)
    rwa [linesOfBytes_length]

end Sys2Proof.Machine

/-- Settles O25: the three commands do one work: it takes the front of the candidates' ranking and keeps a part of it in order. -/
theorem walingSelectsByDescendingScore : Obligations.WalingSelectsByDescendingScore := by
  unfold Obligations.WalingSelectsByDescendingScore
  rintro s e c h hc rfl hcheck hw hread
  have hleaves := walWork_leaves hc rfl hcheck hw hread
  exact ⟨fun hop => ⟨_, execTopk_working hc hop, hleaves⟩, fun hop => ⟨_, execNms2d_working hc hop, hleaves⟩,
    fun hop => ⟨_, execNmsbev_working hc hop, hleaves⟩⟩
end

section
/-! SUPPORT. Skep's engines, descriptors and slots: what each update of them changes and leaves (R269, R272). -/

open Sys2Proof Sys2Proof.Machine Sys2Proof.Claims

namespace Sys2Proof.Machine

/-! ### One engine -/

@[simp] theorem skep_modSkep_self (s : State) (i : Fin 2) (f : SkepState → SkepState) :
    (s.modSkep i f).skep i = f (s.skep i) := by
  simp [State.modSkep, State.skep]

theorem skep_modSkep_ne (s : State) {i n : Fin 2} (f : SkepState → SkepState) (h : n ≠ i) :
    (s.modSkep i f).skep n = s.skep n := by
  have hne : i.val ≠ n.val := fun e => h (Fin.ext e.symm)
  simp [State.modSkep, State.skep, hne]

/-! ### Descriptors -/

@[simp] theorem descs_modDesc (s : State) (i : Fin 2) (k : Nat) (f : SkepDesc → SkepDesc) :
    ((s.modDesc i k f).skep i).descs = (s.skep i).descs.modify k f := by
  simp [State.modDesc]

theorem descs_modDesc_get {s : State} {i : Fin 2} {k : Nat} {d : SkepDesc} (f : SkepDesc → SkepDesc)
    (h : (s.skep i).descs[k]? = some d) : ((s.modDesc i k f).skep i).descs[k]? = some (f d) := by
  rw [descs_modDesc, List.getElem?_modify_eq, h]
  rfl

/-- An engine none of whose descriptors is closed keeps them all (log 88). -/
theorem dropClosed_of_open {y : SkepState} (h : ∀ d ∈ y.descs, d.closed = false) : y.dropClosed = y := by
  unfold SkepState.dropClosed
  extract_lets held
  refine if_neg fun hany => ?_
  obtain ⟨d, hd, hc⟩ := List.any_eq_true.1 hany
  simp [h d hd] at hc

theorem modSkep_dropClosed {s : State} {i : Fin 2} (h : ∀ d ∈ (s.skep i).descs, d.closed = false) :
    s.modSkep i SkepState.dropClosed = s := by
  rw [State.modSkep, dropClosed_of_open h, State.skep]
  simp

/-- What keeps a descriptor open keeps all of them so. -/
theorem modify_open {ds : List SkepDesc} {k : Nat} {f : SkepDesc → SkepDesc} (hf : ∀ d, (f d).closed = d.closed)
    (h : ∀ d ∈ ds, d.closed = false) : ∀ d ∈ ds.modify k f, d.closed = false := by
  intro d hd
  obtain ⟨n, hn, rfl⟩ := List.getElem_of_mem hd
  rw [List.getElem_modify]
  split
  · rw [hf]
    exact h _ (List.getElem_mem _)
  · exact h _ (List.getElem_mem _)

/-! ### Slots -/

@[simp] theorem slots_setSlot_self (s : State) (i : Fin 2) (j : Fin 8) (x : Option SkepSlot) :
    ((s.setSlot i j x).skep i).slots[j] = x := by
  simp [State.setSlot]

@[simp] theorem descs_setSlot (s : State) (i : Fin 2) (j : Fin 8) (x : Option SkepSlot) :
    ((s.setSlot i j x).skep i).descs = (s.skep i).descs := by
  simp [State.setSlot]

/-- A slot that is set holds its sample, under the descriptor that the sample names. -/
theorem skepHolds_setSlot {s : State} {i : Fin 2} (j : Fin 8) {x : SkepSlot} {d : SkepDesc}
    (h : (s.skep i).descs[x.desc]? = some d) : SkepHolds (s.setSlot i j (some x)) i j x d :=
  ⟨slots_setSlot_self s i j _, by rwa [descs_setSlot]⟩

theorem otherSlots_trans {i : Fin 2} {j : Fin 8} {s t r : State} (h : otherSlots i j s t) (g : otherSlots i j t r) :
    otherSlots i j s r := by
  obtain ⟨hslots, hskeps⟩ := h
  obtain ⟨gslots, gskeps⟩ := g
  exact ⟨fun k hk => (gslots k hk).trans (hslots k hk), fun n hn => (gskeps n hn).trans (hskeps n hn)⟩

theorem otherSlots_of_skeps {s t : State} (i : Fin 2) (j : Fin 8) (h : t.skeps = s.skeps) : otherSlots i j s t := by
  simp [otherSlots, State.skep, h]

theorem otherSlots_setSlot (s : State) (i : Fin 2) (j : Fin 8) (x : Option SkepSlot) :
    otherSlots i j s (s.setSlot i j x) := by
  refine ⟨fun k hk => ?_, fun n hn => skep_modSkep_ne s _ hn⟩
  have hne : j.val ≠ k.val := fun e => hk (Fin.ext e.symm)
  simp [State.setSlot, hne]

/-- A change of an engine that leaves its slots. -/
theorem otherSlots_modSkep (s : State) (i : Fin 2) (j : Fin 8) {f : SkepState → SkepState}
    (hf : (f (s.skep i)).slots = (s.skep i).slots) : otherSlots i j s (s.modSkep i f) :=
  ⟨fun k _ => by rw [skep_modSkep_self, hf], fun _ hn => skep_modSkep_ne s f hn⟩

theorem otherSlots_modDesc (s : State) (i : Fin 2) (j : Fin 8) (k : Nat) (f : SkepDesc → SkepDesc) :
    otherSlots i j s (s.modDesc i k f) := otherSlots_modSkep s i j rfl

/-- The sample takes the next emission index of its bucket (R280). -/
theorem takeEmission_holds {s : State} {i : Fin 2} (j : Fin 8) {d : SkepDesc} {x : SkepSlot} (b : Nat)
    (h : (s.skep i).descs[x.desc]? = some d) :
    SkepHolds (s.takeEmission i j d x b) i j { x with status := .done, emit := some (d.k.getD b 0), phase := .emitting }
      { d with k := d.k.set b (d.k.getD b 0 + 1) } :=
  skepHolds_setSlot j (descs_modDesc_get _ h)

theorem otherSlots_takeEmission (s : State) (i : Fin 2) (j : Fin 8) (d : SkepDesc) (x : SkepSlot) (b : Nat) :
    otherSlots i j s (s.takeEmission i j d x b) :=
  otherSlots_trans (otherSlots_modDesc s i j _ _) (otherSlots_setSlot _ i j _)

end Sys2Proof.Machine
end

section
/-! SUPPORT. The memory that Skep writes and reads: runs of lines, the staging area (R270) and the stream of a request (R288). -/

open Sys2Proof Sys2Proof.Machine Sys2Proof.Claims

namespace Sys2Proof.Machine

/-! ### Runs of lines -/

/-- A run of lines written leaves the tag of every line outside it. -/
theorem tag_putLines_ne (s : State) {j k : Nat} (ls : List Line) (h : j < k ∨ k + ls.length ≤ j) :
    (s.putLines k ls).tag j = s.tag j := by
  induction ls generalizing s k with
  | nil => rfl
  | cons l ls ih =>
    rw [List.length_cons] at h
    exact (ih _ (by omega)).trans (tag_putLine_ne s l (by omega))

theorem tagOk_putLines_ne (s : State) {j k : Nat} (ls : List Line) (h : j < k ∨ k + ls.length ≤ j) :
    (s.putLines k ls).tagOk j = s.tagOk j := by
  induction ls generalizing s k with
  | nil => rfl
  | cons l ls ih =>
    rw [List.length_cons] at h
    exact (ih _ (by omega)).trans (tagOk_putLine_ne s l (by omega))

/-- A run of lines written has tags that match (R15). -/
theorem tagOk_putLines_get {s : State} (k : Nat) {ls : List Line} {n : Nat} (hn : n < ls.length) (h : s.storesWf = true) :
    (s.putLines k ls).tagOk (k + n) = true := by
  induction ls generalizing s k n with
  | nil => exact absurd hn (Nat.not_lt_zero n)
  | cons l ls ih =>
    cases n with
    | zero => exact (tagOk_putLines_ne _ ls (by omega)).trans (tagOk_putLine_self k l h)
    | succ n =>
      have hrest := ih (k + 1) (Nat.lt_of_succ_lt_succ hn) (storesWf_putLine k l h)
      rwa [Nat.add_right_comm] at hrest

/-! ### What only writes memory -/

/-- Beside memory and its tags only the count of the free draws differs. -/
def onlyMemory (s t : State) : Prop := t = { s with mem := t.mem, tags := t.tags, freeCtr := t.freeCtr }

theorem onlyMemory_refl (s : State) : onlyMemory s s := rfl

theorem onlyMemory_trans {s t r : State} (h : onlyMemory s t) (g : onlyMemory t r) : onlyMemory s r := by
  unfold onlyMemory at h g ⊢
  rw [h] at g
  exact g

theorem onlyMemory_putLines (s : State) (k : Nat) (ls : List Line) : onlyMemory s (s.putLines k ls) := by
  induction ls generalizing s k with
  | nil => exact onlyMemory_refl s
  | cons l ls ih => exact onlyMemory_trans (show onlyMemory s (s.putLine k l) from rfl) (ih _ _)

section
variable {s t : State} (h : onlyMemory s t)
include h

theorem onlyMemory.skeps : t.skeps = s.skeps := (congrArg State.skeps h).trans rfl

theorem onlyMemory.skep (i : Fin 2) : t.skep i = s.skep i := by rw [State.skep, h.skeps, State.skep]

theorem onlyMemory.units : t.units = s.units := (congrArg State.units h).trans rfl

theorem onlyMemory.ties : t.ties = s.ties := (congrArg State.ties h).trans rfl

theorem onlyMemory.ctxs : t.ctxs = s.ctxs := (congrArg State.ctxs h).trans rfl

end

/-! ### The staging area -/

/-- Write a free line to a key (log 16). -/
def State.putFree (s : State) (k : Nat) : State := s.drawLine.2.putLine k s.drawLine.1

/-- The staging area is 512 lines, each of which becomes free (R270). -/
theorem freeStage_eq (s : State) (d : Line) :
    s.freeStage d = (hamKeys (repStage d) 512).foldl State.putFree s := by
  rw [hamKeys, List.foldl_map]
  rfl

theorem line_putFree_ne (s : State) {j k : Nat} (h : j ≠ k) : (s.putFree k).line j = s.line j :=
  line_putLine_ne s.drawLine.2 _ h

theorem tag_putFree_ne (s : State) {j k : Nat} (h : j ≠ k) : (s.putFree k).tag j = s.tag j :=
  tag_putLine_ne s.drawLine.2 _ h

theorem putFrees_ne (s : State) {ks : List Nat} {j : Nat} (h : j ∉ ks) :
    (ks.foldl State.putFree s).line j = s.line j ∧ (ks.foldl State.putFree s).tag j = s.tag j := by
  induction ks generalizing s with
  | nil => exact ⟨rfl, rfl⟩
  | cons k ks ih =>
    obtain ⟨hk, hks⟩ := not_or.1 (mt List.mem_cons.2 h)
    obtain ⟨hline, htag⟩ := ih (s.putFree k) hks
    exact ⟨hline.trans (line_putFree_ne s hk), htag.trans (tag_putFree_ne s hk)⟩

theorem storesWf_putFrees {s : State} (ks : List Nat) (h : s.storesWf = true) :
    (ks.foldl State.putFree s).storesWf = true := by
  induction ks generalizing s with
  | nil => exact h
  | cons k ks ih => exact ih (storesWf_putLine (s := s.drawLine.2) k _ h)

theorem onlyMemory_putFrees (s : State) (ks : List Nat) : onlyMemory s (ks.foldl State.putFree s) := by
  induction ks generalizing s with
  | nil => exact onlyMemory_refl s
  | cons k ks ih => exact onlyMemory_trans (show onlyMemory s (s.putFree k) from rfl) (ih _)

/-- Skep's accesses through its staging area write no other line (R270). -/
theorem outside_freeStage (s : State) (d : Line) : outside (repStage d) 512 s (s.freeStage d) := by
  intro a ha
  rw [freeStage_eq]
  refine putFrees_ne s fun hmem => ?_
  obtain ⟨n, hn, rfl⟩ := List.mem_map.1 hmem
  have hn := List.mem_range.1 hn
  rw [hamKey_add] at ha
  omega

theorem storesWf_freeStage {s : State} (d : Line) (h : s.storesWf = true) : (s.freeStage d).storesWf = true := by
  rw [freeStage_eq]
  exact storesWf_putFrees _ h

theorem onlyMemory_freeStage (s : State) (d : Line) : onlyMemory s (s.freeStage d) := by
  rw [freeStage_eq]
  exact onlyMemory_putFrees s _

/-- A sample's lines, written through the staging area. -/
theorem onlyMemory_freeStage_putLines (s : State) (d : Line) (k : Nat) (ls : List Line) :
    onlyMemory s ((s.freeStage d).putLines k ls) :=
  onlyMemory_trans (onlyMemory_freeStage s d) (onlyMemory_putLines _ k ls)

theorem freeStage_putLines_ne (s : State) (d : Line) {k a : Nat} (ls : List Line) (h : a < k ∨ k + ls.length ≤ a)
    (hs : a < hamKey (repStage d) ∨ hamKey (repStage d) + 512 ≤ a) :
    ((s.freeStage d).putLines k ls).line a = s.line a ∧ ((s.freeStage d).putLines k ls).tag a = s.tag a := by
  obtain ⟨hline, htag⟩ := outside_freeStage s d a hs
  exact ⟨(line_putLines_ne _ ls h).trans hline, (tag_putLines_ne _ ls h).trans htag⟩

theorem freeStage_putLines_get {s : State} (d : Line) (k : Nat) {ls : List Line} {n : Nat} {l : Line} (h : s.storesWf = true)
    (hl : ls[n]? = some l) :
    ((s.freeStage d).putLines k ls).line (k + n) = l ∧ ((s.freeStage d).putLines k ls).tagOk (k + n) = true := by
  obtain ⟨hn, rfl⟩ := List.getElem?_eq_some_iff.1 hl
  have hw := storesWf_freeStage d h
  exact ⟨line_putLines_get k ls n hn hw, tagOk_putLines_get k hn hw⟩

/-! ### The stream of a request -/

/-- Skep's own state is no part of what a stream is read from (R288). -/
theorem streamFrom_modSkep (s : State) (i : Fin 2) (f : SkepState → SkepState) (wins : List DWord) (src n k : Nat)
    (acc : List (List Byte)) : (s.modSkep i f).streamFrom wins src n k acc = s.streamFrom wins src n k acc := by
  induction n generalizing k acc with
  | zero => rfl
  | succ n ih =>
    simp only [State.streamFrom, ih]
    rfl

theorem jpegBytes_modSkep (s : State) (i : Fin 2) (f : SkepState → SkepState) (c : Nat) (r : Packet) :
    (s.modSkep i f).jpegBytes c r = s.jpegBytes c r := by
  simp only [State.jpegBytes, streamFrom_modSkep]
  rfl

end Sys2Proof.Machine
end

section
/-! SUPPORT. The end of a decode at its budget, the emission and the record of a sample (R280 to R284). -/

open Sys2Proof Sys2Proof.Machine Sys2Proof.Claims

namespace Sys2Proof.Machine

/-! ### Budget expiry (R284) -/

theorem execBudgetExpiry_moving {s : State} {i : Fin 2} {j : Fin 8} {x : SkepSlot} (hx : (s.skep i).slots[j] = some x)
    (hp : x.phase = .decoding) (hm : ∀ d, (s.skep i).descs[x.desc]? = some d → s.skepMover d.desc = true) :
    exec (.budgetExpiry i j) s = .next ((s.failSlot i j x .decodeLimit x.budget).modRegs (.skp i) fun r =>
      { r with sticky := r.sticky ||| 0x40#32 }) := by
  change execBudgetExpiry i j s = _
  unfold execBudgetExpiry
  cases hd : (s.skep i).descs[x.desc]? with
  | none => simp [hx, hp, hd]
  | some d => simp [hx, hp, hd, hm d hd]

theorem execBudgetExpiry_waiting {s : State} {i : Fin 2} {j : Fin 8} {x : SkepSlot} {d : SkepDesc}
    (h : SkepHolds s i j x d) (hm : s.skepMover d.desc = false) : exec (.budgetExpiry i j) s = .next s := by
  obtain ⟨hx, hd⟩ := h
  change execBudgetExpiry i j s = _
  simp [execBudgetExpiry, hx, hd, hm]

/-! ### Emission (R280, R282) -/

theorem emitMay_of {s : State} {i : Fin 2} {x : SkepSlot} {d : SkepDesc} {b k : Nat} (hb : x.bucket = some b)
    (hk : x.emit = some k) (hp : x.phase = .emitting) (hfirst : (s.skep i).firstEmission x = true)
    (hbuf : k < (bucketOf d.desc b).nbuf ∨
      s.tieReached (bucketOf d.desc b).tieRel (k - (bucketOf d.desc b).nbuf + 1) = true) : s.emitMay i x d = true := by
  simpa [State.emitMay, hb, hk, hp, hfirst] using hbuf

/-- The state after an emission: the sample's lines stand in its buffer, and one more sample is done. -/
def State.emitted (s : State) (i : Fin 2) (j : Fin 8) (x : SkepSlot) (d : SkepDesc) (base : Nat) : State :=
  (((s.freeStage d.desc).putLines base x.image).setSlot i j (some { x with image := [], phase := .emitted })).modSkep i
    fun y => { y with done := satInc y.done }

theorem execEmission_may {s : State} {i : Fin 2} {j : Fin 8} {x : SkepSlot} {d : SkepDesc} {b k : Nat}
    (h : SkepHolds s i j x d) (hb : x.bucket = some b) (hk : x.emit = some k) (hmay : s.emitMay i x d = true)
    (hm : s.skepMover d.desc = true) :
    exec (.emission i j) s = .next (s.emitted i j x d
      (hamKey ((bucketOf d.desc b).buf + k % max 1 (bucketOf d.desc b).nbuf * bucketBufl d.desc (bucketOf d.desc b)))) := by
  obtain ⟨hx, hd⟩ := h
  change execEmission i j s = _
  simp [execEmission, State.emitted, hx, hd, hb, hk, hmay, hm]

theorem skepHolds_emitted {s : State} {i : Fin 2} {j : Fin 8} {x : SkepSlot} {d : SkepDesc} (base : Nat)
    (h : SkepHolds s i j x d) : SkepHolds (s.emitted i j x d base) i j { x with image := [], phase := .emitted } d := by
  obtain ⟨-, hd⟩ := h
  have hput := (onlyMemory_freeStage_putLines s d.desc base x.image).skep i
  simpa [SkepHolds, State.emitted, State.setSlot, hput] using hd

section
variable (s : State) (i : Fin 2) (j : Fin 8) (x : SkepSlot) (d : SkepDesc) (base : Nat)

theorem done_emitted : ((s.emitted i j x d base).skep i).done = satInc (s.skep i).done := by
  have hput := (onlyMemory_freeStage_putLines s d.desc base x.image).skep i
  simp [State.emitted, State.setSlot, hput]

theorem otherSlots_emitted : otherSlots i j s (s.emitted i j x d base) :=
  otherSlots_trans (otherSlots_of_skeps i j (onlyMemory_freeStage_putLines s d.desc base x.image).skeps)
    (otherSlots_trans (otherSlots_setSlot _ i j _) (otherSlots_modSkep _ i j rfl))

end

/-! ### The record (R281, R282) -/

theorem recordMay_of {s : State} {i : Fin 2} {x : SkepSlot} {d : SkepDesc} (hp : x.phase = .emitted ∨ x.phase = .recording)
    (hfirst : (s.skep i).firstEmission x = true)
    (hroom : d.r < repNrec d.desc ∨ s.tieReached (repTieRrel d.desc) (d.r - repNrec d.desc + 1) = true) :
    s.recordMay i x d = true := by
  simpa [State.recordMay, hfirst, hp] using hroom

/-- The adds that go with a record: TIE_EMIT for an emitted sample, then TIE_REC (R281, R282). -/
def recordAdds (d : Line) (x : SkepSlot) : List (Nat × Nat) :=
  (match x.phase, x.bucket with
    | .emitted, some b => [((bucketOf d b).tieEmit, 1)]
    | _, _ => []) ++ [(repTieRec d, 1)]

/-- The line of a descriptor's next record (R281). -/
def recordKey (d : SkepDesc) : Nat := hamKey (repRecl d.desc + d.r % max 1 (repNrec d.desc))

theorem Status.code_lt (st : Status) : st.code < 256 := by cases st <;> decide

/-- FORMAT, STATUS and REQ of a record (R281). -/
theorem skepRecord_fields (d : Line) (x : SkepSlot) :
    bytesNat (skepRecord d x) 0 1 = 1 ∧ bytesNat (skepRecord d x) 1 1 = x.status.code ∧
    bytesNat (skepRecord d x) 16 4 = x.q % 2 ^ 32 := by
  unfold skepRecord
  refine ⟨?_, ?_, ?_⟩ <;> rw [bytesNat_lineOfBytes _ (by decide)]
  · simp
  · simp [natOfBytes_natToBytes, Nat.mod_eq_of_lt x.status.code_lt]
  · simp [List.drop_append, List.drop_of_length_le, natOfBytes_natToBytes]

/-- The state with a sample's record written and its adds made. -/
def State.recorded (s : State) (x : SkepSlot) (d : SkepDesc) : State :=
  (s.putLine (recordKey d) (skepRecord d.desc x)).tieAdds (recordAdds d.desc x)

/-- Adds change nothing but the ties. -/
theorem tieAdds_frame (s : State) (m : List (Nat × Nat)) : s.tieAdds m = { s with ties := (s.tieAdds m).ties } := by
  induction m generalizing s with
  | nil => rfl
  | cons x m ih => exact ih (s.tieAdd x.1 _)

/-- A record is one line; with its adds it changes no more than that line and ties. -/
theorem recorded_frame (s : State) (x : SkepSlot) (d : SkepDesc) :
    s.recorded x d = { s.putLine (recordKey d) (skepRecord d.desc x) with ties := (s.recorded x d).ties } :=
  tieAdds_frame _ _

@[simp] theorem skep_recorded (s : State) (x : SkepSlot) (d : SkepDesc) (n : Fin 2) :
    (s.recorded x d).skep n = s.skep n := by
  rw [recorded_frame, State.skep, State.skep, putLine_skeps]

/-- A record adds to its ties, and to no other (R282). -/
theorem tieVal_recorded {s : State} (x : SkepSlot) (d : SkepDesc) (y : Nat) (h : s.storesWf = true) :
    (s.recorded x d).tieVal y = s.tieVal y + addsTo (recordAdds d.desc x) y :=
  tieVal_tieAdds _ y (storesWf_putLine _ _ h)

/-- The state after a sample has left its slot: its descriptor has one more record, and a sample that failed counts. -/
def State.freed (s : State) (i : Fin 2) (j : Fin 8) (x : SkepSlot) : State :=
  ((s.modDesc i x.desc fun y => { y with r := y.r + 1 }).modSkep i fun y =>
    { y with fail := if x.status.ok then y.fail else satInc y.fail }).setSlot i j none

theorem descs_freed (s : State) (i : Fin 2) (j : Fin 8) (x : SkepSlot) :
    ((s.freed i j x).skep i).descs = (s.skep i).descs.modify x.desc fun y => { y with r := y.r + 1 } := by
  simp [State.freed]

@[simp] theorem slots_freed_self (s : State) (i : Fin 2) (j : Fin 8) (x : SkepSlot) :
    ((s.freed i j x).skep i).slots[j] = none := slots_setSlot_self ..

@[simp] theorem ties_freed (s : State) (i : Fin 2) (j : Fin 8) (x : SkepSlot) : (s.freed i j x).ties = s.ties := rfl

@[simp] theorem ctxs_freed (s : State) (i : Fin 2) (j : Fin 8) (x : SkepSlot) : (s.freed i j x).ctxs = s.ctxs := rfl

theorem fail_freed (s : State) (i : Fin 2) (j : Fin 8) (x : SkepSlot) :
    ((s.freed i j x).skep i).fail = if x.status.ok then (s.skep i).fail else satInc (s.skep i).fail := by
  simp [State.freed, State.setSlot, State.modDesc]

theorem otherSlots_freed (s : State) (i : Fin 2) (j : Fin 8) (x : SkepSlot) : otherSlots i j s (s.freed i j x) :=
  otherSlots_trans (otherSlots_modDesc s i j _ _)
    (otherSlots_trans (otherSlots_modSkep _ i j rfl) (otherSlots_setSlot _ i j none))

/-- A tally test that waits for slot 7 takes it (R290). -/
def State.tallyTakes (s : State) (i : Fin 2) (j : Fin 8) : State :=
  if j = 7 && (s.unit (.skp i)).regs.tallyPending && !(s.unit (.skp i)).regs.quarantine then
    s.modUnit (.skp i) fun y => { y with tallyRunning := true }
  else s

theorem tallyTakes_frame (s : State) (i : Fin 2) (j : Fin 8) :
    s.tallyTakes i j = { s with units := (s.tallyTakes i j).units } := by
  unfold State.tallyTakes
  split <;> rfl

@[simp] theorem skep_tallyTakes (s : State) (i n : Fin 2) (j : Fin 8) : (s.tallyTakes i j).skep n = s.skep n := by
  rw [tallyTakes_frame, State.skep, State.skep]

@[simp] theorem ties_tallyTakes (s : State) (i : Fin 2) (j : Fin 8) : (s.tallyTakes i j).ties = s.ties := by
  rw [tallyTakes_frame]

@[simp] theorem ctxs_tallyTakes (s : State) (i : Fin 2) (j : Fin 8) : (s.tallyTakes i j).ctxs = s.ctxs := by
  rw [tallyTakes_frame]

theorem undisturbed_tallyTakes (s : State) (i : Fin 2) (j : Fin 8) : Undisturbed s (s.tallyTakes i j) :=
  .ite (undisturbed_modUnit s _ fun _ => rfl) (.refl s)

theorem Undisturbed.tagOk {s t : State} (h : Undisturbed s t) (k : Nat) : t.tagOk k = s.tagOk k := by
  rw [State.tagOk, State.tagOk, State.badTag, h.tags, h.line, State.badTag]

/-- The state after RECORD_WRITE. -/
def State.afterRecord (s : State) (i : Fin 2) (j : Fin 8) (x : SkepSlot) (d : SkepDesc) : State :=
  ((s.recorded x d).freed i j x).tallyTakes i j

section
variable (s : State) (i : Fin 2) (j : Fin 8) (x : SkepSlot) (d : SkepDesc)

theorem skep_afterRecord (n : Fin 2) : (s.afterRecord i j x d).skep n = ((s.recorded x d).freed i j x).skep n :=
  skep_tallyTakes ..

/-- A record writes its line and no other, and every unit runs what it ran. -/
theorem undisturbed_afterRecord : Undisturbed (s.putLine (recordKey d) (skepRecord d.desc x)) (s.afterRecord i j x d) := by
  have hadds : Undisturbed (s.putLine (recordKey d) (skepRecord d.desc x)) (s.recorded x d) := undisturbed_tieAdds _ _
  have hfreed : Undisturbed (s.recorded x d) ((s.recorded x d).freed i j x) := .of_units rfl rfl rfl rfl
  exact hadds.trans (hfreed.trans (undisturbed_tallyTakes _ i j))

theorem ctxs_afterRecord : (s.afterRecord i j x d).ctxs = s.ctxs := by
  rw [State.afterRecord, ctxs_tallyTakes, ctxs_freed, recorded_frame, putLine_ctxs]

theorem otherSlots_afterRecord : otherSlots i j s (s.afterRecord i j x d) := by
  have hfreed := otherSlots_freed (s.recorded x d) i j x
  simpa only [otherSlots, skep_afterRecord, skep_recorded] using hfreed

theorem fail_afterRecord : ((s.afterRecord i j x d).skep i).fail =
    if x.status.ok then (s.skep i).fail else satInc (s.skep i).fail := by
  rw [skep_afterRecord, fail_freed, skep_recorded]

end

theorem descs_afterRecord {s : State} {i : Fin 2} {j : Fin 8} {x : SkepSlot} {d : SkepDesc} (h : SkepHolds s i j x d) :
    ((s.afterRecord i j x d).skep i).descs[x.desc]? = some { d with r := d.r + 1 } := by
  obtain ⟨-, hd⟩ := h
  rw [skep_afterRecord, descs_freed, skep_recorded, List.getElem?_modify_eq, hd]
  rfl

theorem tieVal_afterRecord {s : State} (i : Fin 2) (j : Fin 8) (x : SkepSlot) (d : SkepDesc) (y : Nat)
    (h : s.storesWf = true) : (s.afterRecord i j x d).tieVal y = s.tieVal y + addsTo (recordAdds d.desc x) y := by
  rw [← tieVal_recorded x d y h, State.tieVal, State.afterRecord, ties_tallyTakes, ties_freed, State.tieVal]

theorem execRecordWrite_may {s : State} {i : Fin 2} {j : Fin 8} {x : SkepSlot} {d : SkepDesc} (h : SkepHolds s i j x d)
    (hmay : s.recordMay i x d = true) (hopen : ∀ e ∈ (s.skep i).descs, e.closed = false) :
    exec (.recordWrite i j) s = .next (s.afterRecord i j x d) := by
  obtain ⟨hx, hd⟩ := h
  change execRecordWrite i j s = _
  have hdrop : ((s.recorded x d).freed i j x).modSkep i SkepState.dropClosed = (s.recorded x d).freed i j x := by
    refine modSkep_dropClosed ?_
    rw [descs_freed, skep_recorded]
    exact modify_open (fun _ => rfl) hopen
  rw [State.afterRecord, ← hdrop]
  unfold execRecordWrite State.recorded recordAdds
  simp only [hx, hd, hmay, Bool.not_true, Bool.false_eq_true, if_false]
  -- TIE_EMIT is added only where the sample is emitted and has a bucket; in each case the adds are those of the record.
  cases x.phase <;> cases x.bucket <;> rfl

end Sys2Proof.Machine

/-- Settles O40: a decode at its budget and a sample with its turn go on to their record; the record frees the slot. -/
theorem skepSamplesAreEmittedAndRecorded : Obligations.SkepSamplesAreEmittedAndRecorded := by
  unfold Obligations.SkepSamplesAreEmittedAndRecorded
  refine ⟨?_, ?_, ?_, ?_⟩
  · intro s i j x hx hp hm
    refine ⟨_, execBudgetExpiry_moving hx hp hm, slots_setSlot_self s i j _, ?_, otherSlots_setSlot s i j _,
      descs_setSlot s i j _, fun v _ => ?_, rfl, rfl, rfl⟩
    · simp [State.modRegs, State.modUnit, bitAt]
    · exact ((undisturbed_modRegs _ (.skp i) _).trans (undisturbed_modRegs _ (.skp i) _)).runs v
  · intro s i j x d h hm
    exact execBudgetExpiry_waiting h hm
  · rintro s i j x d b k base h hm hb hk hp hfirst hw hbuf rfl
    refine ⟨_, execEmission_may h hb hk (emitMay_of hb hk hp hfirst hbuf) hm, fun n l hl => freeStage_putLines_get _ _ hw hl,
      fun a ha hs => freeStage_putLines_ne s _ _ ha hs, skepHolds_emitted _ h, done_emitted .., otherSlots_emitted .., ?_, ?_⟩
    · exact (onlyMemory_freeStage_putLines ..).units
    · exact (onlyMemory_freeStage_putLines ..).ties
  · rintro s i j x d key h hw hp hfirst hopen hroom rfl
    have hleft := undisturbed_afterRecord s i j x d
    have hline := (hleft.line (recordKey d)).trans (line_putLine_self _ _ hw)
    obtain ⟨hformat, hstatus, hreq⟩ := skepRecord_fields d.desc x
    refine ⟨_, execRecordWrite_may h (recordMay_of hp hfirst hroom) hopen, ?_, hline ▸ hformat, hline ▸ hstatus,
      hline ▸ hreq, (hleft.tagOk _).trans (tagOk_putLine_self _ _ hw), fun a ha => ⟨?_, ?_⟩,
      fun y => tieVal_afterRecord i j x d y hw, descs_afterRecord h, fail_afterRecord s i j x d,
      otherSlots_afterRecord s i j x d, hleft.runs, ctxs_afterRecord s i j x d⟩
    · rw [skep_afterRecord, slots_freed_self]
    · exact (hleft.line a).trans (line_putLine_ne s _ ha)
    · exact (hleft.tag a).trans (tag_putLine_ne s _ ha)
end

section
/-! SUPPORT. The acceptance of a request and the completion of its decode (R271 to R287). -/

open Sys2Proof Sys2Proof.Machine Sys2Proof.Claims

namespace Sys2Proof.Machine

/-! ### Acceptance (R271, R272, R274) -/

theorem execRequestAccept_accepts {s : State} {i : Fin 2} {j : Fin 8} {k : Nat} {d : SkepDesc} (hup : s.intakeUp = true)
    (hq : (s.unit (.skp i)).regs.quarantine = false) (hj : s.freeSlot i = some j) (hk : s.waitingDesc i = some k)
    (hd : (s.skep i).descs[k]? = some d) : exec (.requestAccept i) s = .next (s.acceptRequest i k d j) := by
  change execRequestAccept i s = _
  simp [execRequestAccept, hup, hq, hj, hk, hd]

/-- The line of a descriptor's next request, which is entry q modulo NREQ of its list, four to a line (R271). -/
def reqLineKey (d : SkepDesc) : Nat := hamKey (repReql d.desc + d.q % max 1 (repNreq d.desc) / 4)

/-- The next request of a descriptor (R271). -/
def State.nextReq (s : State) (d : SkepDesc) : Packet :=
  (s.line (reqLineKey d)).extractLsb' (512 * (d.q % max 1 (repNreq d.desc) % 4)) 512

/-- A descriptor whose request has been accepted goes on to the lowest one behind it without a record (R272, R289). -/
def SkepDesc.advance (d : SkepDesc) : SkepDesc :=
  let q := nextRequest d.past d.past.length (d.q + 1)
  { d with q := q, past := d.past.filter (q < ·) }

/-- The engine has taken a request of descriptor `k`, and the rotation goes on behind it (R272). -/
def State.advance (s : State) (i : Fin 2) (k : Nat) : State :=
  (s.modDesc i k SkepDesc.advance).modSkep i fun y => { y with rot := (k + 1) % max 1 y.descs.length }

theorem descs_advance {s : State} {i : Fin 2} {k : Nat} {d : SkepDesc} (h : (s.skep i).descs[k]? = some d) :
    ((s.advance i k).skep i).descs[k]? = some d.advance := by
  rw [State.advance, skep_modSkep_self]
  exact descs_modDesc_get _ h

theorem otherSlots_advance (s : State) (i : Fin 2) (j : Fin 8) (k : Nat) : otherSlots i j s (s.advance i k) :=
  otherSlots_trans (otherSlots_modDesc s i j k _) (otherSlots_modSkep _ i j rfl)

theorem jpegBytes_modDesc (s : State) (i : Fin 2) (k : Nat) (f : SkepDesc → SkepDesc) (c : Nat) (r : Packet) :
    (s.modDesc i k f).jpegBytes c r = s.jpegBytes c r := jpegBytes_modSkep ..

/-- Beside Skep itself, an acceptance leaves all that its writes to the staging area leave. -/
theorem setSlot_leaves {s t : State} {k l n : Nat} (i : Fin 2) (j : Fin 8) (x : Option SkepSlot)
    (hm : onlyMemory (s.advance i k) t) (ho : outside l n (s.advance i k) t) :
    outside l n s (t.setSlot i j x) ∧ (t.setSlot i j x).units = s.units ∧ (t.setSlot i j x).ties = s.ties ∧
    (t.setSlot i j x).ctxs = s.ctxs :=
  ⟨ho, hm.units, hm.ties, hm.ctxs⟩

/-- The slot of a request that has passed its header checks with bucket `b`, and is to be decoded (R274, R284, R285). -/
def acceptedSlot (k b : Nat) (d : SkepDesc) (req : Packet) (c : Checked) (stream : List Byte) : SkepSlot :=
  { desc := k, q := d.q, req := req, w := c.w, h := c.h, bucket := some b, budget := c.budget, cycles := 0
    key := crc64 (natToBytes 4 (reqLen req) ++ natToBytes 4 (optWord d.desc b) ++ stream)
    status := .done, partialFill := false, hit := false, bad := false, emit := none, image := [], phase := .decoding }

/-- A good request that is not cached enters its slot. -/
theorem acceptRequest_good {s : State} (i : Fin 2) (j : Fin 8) (k : Nat) {b : Nat} {d : SkepDesc} {req : Packet} {c : Checked}
    (htag : s.tagOk (reqLineKey d) = true) (hr : req = s.nextReq d) (hreq : reqOk req = true)
    (hstream : (s.jpegBytes d.ctx req).2 = none)
    (hc : c = headerChecks d.desc (reqLen req) (s.jpegBytes d.ctx req).1 none)
    (hst : c.status = .done) (hb : c.bucket = some b) (hcache : caches d.desc req = false) :
    s.acceptRequest i k d j = ((s.advance i k).freeStage d.desc).setSlot i j
      (some (acceptedSlot k b d req c (s.jpegBytes d.ctx req).1)) := by
  have hread : (s.line (hamKey (repReql d.desc + d.q % max 1 (repNreq d.desc) / 4))).extractLsb'
      (512 * (d.q % max 1 (repNreq d.desc) % 4)) 512 = req := hr.symm
  have htag : s.tagOk (hamKey (repReql d.desc + d.q % max 1 (repNreq d.desc) / 4)) = true := htag
  simp only [State.acceptRequest, hread, htag, hreq, jpegBytes_modSkep, jpegBytes_modDesc, hstream, ← hc, hst, hb, hcache,
    Bool.not_true, Bool.false_eq_true, if_false]
  rfl

/-! ### Decode (R280, R283, R287) -/

theorem execDecodeComplete_hit {s : State} {i : Fin 2} {j : Fin 8} {run : SkepRun} {x : SkepSlot} {d : SkepDesc} {b : Nat}
    (h : SkepHolds s i j x d) (hm : s.skepMover d.desc = true) (hb : x.bucket = some b) (hp : x.phase = .decoding)
    (hbudget : run.cycles < x.budget) (hpar : run.parity = false) (hhit : x.hit = true) :
    exec (.decodeComplete i j run) s =
      .next ((s.modSkep i fun y => { y with hit := satInc y.hit }).takeEmission i j d { x with cycles := run.cycles } b) := by
  obtain ⟨hx, hd⟩ := h
  change execDecodeComplete i j run s = _
  simp [execDecodeComplete, hx, hd, hb, hp, hpar, hm, hhit, Nat.not_le.2 hbudget]

/-- A decode that is not cached leaves its lines in the scratch area of its slot (R286). -/
theorem execDecodeComplete_decoded {s : State} {i : Fin 2} {j : Fin 8} {run : SkepRun} {x : SkepSlot} {d : SkepDesc} {b : Nat}
    {c : Checked} {ls : List Line} {part : Bool}
    (h : SkepHolds s i j x d) (hm : s.skepMover d.desc = true) (hb : x.bucket = some b) (hp : x.phase = .decoding)
    (hbudget : run.cycles < x.budget) (hpar : run.parity = false) (hhit : x.hit = false)
    (hcache : caches d.desc x.req = false) (hstream : (s.jpegBytes d.ctx x.req).2 = none)
    (hc : c = headerChecks d.desc (reqLen x.req) (s.jpegBytes d.ctx x.req).1 none) (hst : c.status = .done)
    (hw : c.w = x.w) (hh : c.h = x.h) (hdec : decodeSample d.desc (bucketOf d.desc b) c none = .ok (ls, part)) :
    exec (.decodeComplete i j run) s =
      .next (((s.freeStage d.desc).putLines (scratchLine d.desc j.val) ls).takeEmission i j d
        { x with cycles := run.cycles, partialFill := part, image := ls } b) := by
  subst hc
  obtain ⟨hx, hd⟩ := h
  change execDecodeComplete i j run s = _
  simp [execDecodeComplete, hx, hd, hb, hp, hpar, hm, hhit, Nat.not_le.2 hbudget, hstream, hst, hw, hh, hdec, hcache]

/-- A good request that is not cached enters the free slot, and its descriptor goes on (R271, R272, R274, R284). -/
theorem skepAcceptsRequests : Claims.SkepAcceptsRequests := by
  unfold Claims.SkepAcceptsRequests
  intro s i j k b d req c hup hq hj hk hd htag hr hreq hstream hc hst hb hcache
  have hstage := onlyMemory_freeStage (s.advance i k) d.desc
  have hdesc : (((s.advance i k).freeStage d.desc).skep i).descs[k]? = some d.advance := by
    rw [hstage.skep]
    exact descs_advance hd
  obtain ⟨hslots, -⟩ := otherSlots_trans (otherSlots_advance s i j k) (otherSlots_trans (otherSlots_of_skeps i j hstage.skeps)
    (otherSlots_setSlot _ i j (some (acceptedSlot k b d req c (s.jpegBytes d.ctx req).1))))
  have hexec := execRequestAccept_accepts hup hq hj hk hd
  rw [acceptRequest_good i j k htag hr hreq hstream hc hst hb hcache] at hexec
  exact ⟨_, _, _, hexec, skepHolds_setSlot j hdesc, rfl, rfl, rfl, rfl, rfl, rfl, rfl, rfl, rfl, rfl, rfl, hslots,
    setSlot_leaves i j _ hstage (outside_freeStage _ _)⟩

/-- The sample takes the next emission index of its bucket (R280); a decode has written its scratch lines (R286). -/
theorem skepDecodesTakeEmissionIndices : Claims.SkepDecodesTakeEmissionIndices := by
  unfold Claims.SkepDecodesTakeEmissionIndices
  constructor
  · intro s i j run x d b h hm hb hp hbudget hpar hhit
    have ⟨_, hdesc⟩ := h
    have hd : ((s.modSkep i fun y => { y with hit := satInc y.hit }).skep i).descs[x.desc]? = some d := by
      rwa [skep_modSkep_self]
    refine ⟨_, execDecodeComplete_hit h hm hb hp hbudget hpar hhit, takeEmission_holds j b hd, ?_,
      otherSlots_trans (otherSlots_modSkep s i j rfl) (otherSlots_takeEmission _ i j d _ b), rfl, rfl, rfl, rfl⟩
    simp [State.takeEmission, State.setSlot, State.modDesc]
  · intro s i j run x d b c ls part h hm hb hp hbudget hpar hhit hcache hstream hc hst hw hh hdec
    have ⟨_, hdesc⟩ := h
    have hmem := onlyMemory_freeStage_putLines s d.desc (scratchLine d.desc j.val) ls
    have hd : (((s.freeStage d.desc).putLines (scratchLine d.desc j.val) ls).skep i).descs[x.desc]? = some d := by
      rwa [hmem.skep]
    refine ⟨_, execDecodeComplete_decoded h hm hb hp hbudget hpar hhit hcache hstream hc hst hw hh hdec,
      takeEmission_holds j b hd, fun a hs hscratch => freeStage_putLines_ne s d.desc ls hscratch hs,
      otherSlots_trans (otherSlots_of_skeps i j hmem.skeps) (otherSlots_takeEmission _ i j d _ b), hmem.units, hmem.ties⟩

end Sys2Proof.Machine

/-- Settles O41: a request that is accepted takes its slot, and a decode that completes, or a hit, its emission index. -/
theorem skepRequestsAreAcceptedAndDecoded : Obligations.SkepRequestsAreAcceptedAndDecoded :=
  ⟨skepAcceptsRequests, skepDecodesTakeEmissionIndices⟩
end

section
/-! SUPPORT. The rings and their doorbells (R361 to R365), and the reply that waits (R371). -/

open Sys2Proof Sys2Proof.Machine Sys2Proof.Claims

namespace Sys2Proof.Machine

/-! ### What leaves the units and the stores alone -/

/-- No unit differs, and memory, tags and ties are the same. -/
def leavesWork (s t : State) : Prop := t.units = s.units ∧ sameStores s t

theorem leavesWork_refl (s : State) : leavesWork s s := ⟨rfl, rfl, rfl, rfl⟩

theorem leavesWork_trans {s t r : State} (h : leavesWork s t) (g : leavesWork t r) : leavesWork s r := by
  obtain ⟨hu, hm, ht, hx⟩ := h
  obtain ⟨gu, gm, gt, gx⟩ := g
  exact ⟨gu.trans hu, gm.trans hm, gt.trans ht, gx.trans hx⟩

theorem leavesWork_event (s : State) (k : EventKind) (d : List Byte) : leavesWork s (s.event k d) :=
  ⟨event_units s k d, event_mem s k d, event_tags s k d, event_ties s k d⟩

/-- A recorder that takes events queues the one raised, and no other (R478, R479). -/
theorem oneEvent_event {s : State} (k : EventKind) (d : List Byte) (h : recorderOpen s) : oneEvent s (s.event k d) k d := by
  obtain ⟨hrun, hroom⟩ := h
  have htaken : (s.evr.stopped || decide (s.evr.queue.length ≥ 256)) = false := by simp [hrun, Nat.not_le.2 hroom]
  exact ⟨_, congrArg Recorder.queue (event_taken htaken), rfl, rfl, rfl, rfl⟩

/-! ### Wake events and HIF_STATUS leave the rest -/

/-- A wake event changes at most where the power states go (R497). -/
theorem wakeUp_frame (s : State) (pin : Bool) : s.wakeUp pin = { s with power := { s.power with
    entering := (s.wakeUp pin).power.entering
    exiting := (s.wakeUp pin).power.exiting } } := by
  unfold State.wakeUp
  split <;> rfl

/-- An interrupt message leaves the chip or turns pending (R372). -/
theorem msix_frame (s : State) (v : Nat) : s.msix v = { s with
    hif := { s.hif with msixPend := (s.msix v).hif.msixPend }
    out := (s.msix v).out } := by
  obtain ⟨-, h⟩ | ⟨-, h⟩ := msix_cases s v <;> rw [h]

/-- Setting a sticky bit changes no more of the endpoint than the bit and its interrupt (R360, R372). -/
theorem hifSticky_frame (s : State) (b : Nat) : s.hifSticky b = { s with
    hif := { s.hif with sticky := (s.hifSticky b).hif.sticky, msixPend := (s.hifSticky b).hif.msixPend }
    out := (s.hifSticky b).out } := by
  unfold State.hifSticky
  split
  · rfl
  · rw [msix_frame]

theorem bitAt_hifSticky {s : State} {b : Nat} (h : b < 32) : bitAt (s.hifSticky b).hif.sticky b = true := by
  unfold State.hifSticky
  split
  · assumption
  · rw [msix_frame]
    simp [bitAt, h]

/-! ### One ring -/

/-- A write that is no default reads back, canonical store or not. -/
theorem sparseGet_put_listed {α : Type} [DecidableEq α] {d v : α} (m : Sparse α) (k : Nat) (h : v ≠ d) :
    sparseGet d (sparsePut d m k v) k = v := by
  induction m with
  | nil => simp [sparsePut, sparseGet, h]
  | cons x m ih =>
    obtain ⟨i, w⟩ := x
    simp only [sparsePut, h, if_false]
    split
    · simp [sparseGet]
    split
    · simp [sparseGet]
    · next hne => simp only [sparseGet, if_neg (Ne.symm hne), ih]

theorem ringOf_setRing_some (s : State) (k : Nat) (r : Ring) : (s.setRing k (some r)).ringOf k = some r := by
  unfold State.setRing State.ringOf
  split
  · rfl
  · have hopen : ({ s.ctx k with ring := some r } : Ctx) ≠ Ctx.init := fun e => by injection congrArg Ctx.ring e
    exact congrArg Ctx.ring (sparseGet_put_listed s.ctxs k hopen)

theorem ringOf_setRing_ne (s : State) {j k : Nat} (r : Option Ring) (h : j ≠ k) : (s.setRing k r).ringOf j = s.ringOf j := by
  unfold State.setRing State.ringOf
  by_cases hk : k = 0
  · subst hk
    simp [h, State.ctx]
  · simp [hk, State.modCtx, ctx_setCtx_ne s _ h]

/-- The rings stand in the endpoint and in the context table only. -/
theorem ringOf_congr {s t : State} (ha : t.hif.admin = s.hif.admin) (hc : t.ctxs = s.ctxs) (k : Nat) :
    t.ringOf k = s.ringOf k := by simp only [State.ringOf, State.ctx, ha, hc]

@[simp] theorem ringOf_wakeUp (s : State) (pin : Bool) (k : Nat) : (s.wakeUp pin).ringOf k = s.ringOf k := by
  rw [wakeUp_frame]
  exact ringOf_congr rfl rfl k

@[simp] theorem ringOf_hifSticky (s : State) (b k : Nat) : (s.hifSticky b).ringOf k = s.ringOf k := by
  rw [hifSticky_frame]
  exact ringOf_congr rfl rfl k

@[simp] theorem ringOf_emit (s : State) (o : Out) (k : Nat) : (s.emit o).ringOf k = s.ringOf k := ringOf_congr rfl rfl k

theorem leavesWork_wakeUp (s : State) (pin : Bool) : leavesWork s (s.wakeUp pin) := by
  rw [wakeUp_frame]
  exact leavesWork_refl s

theorem leavesWork_hifSticky (s : State) (b : Nat) : leavesWork s (s.hifSticky b) := by
  rw [hifSticky_frame]
  exact leavesWork_refl s

/-- A ring replaced leaves what is neither the endpoint nor the context table. -/
theorem setRing_frame (s : State) (k : Nat) (r : Option Ring) : s.setRing k r = { s with
    hif := { s.hif with admin := (s.setRing k r).hif.admin }
    ctxs := (s.setRing k r).ctxs } := by
  unfold State.setRing
  split <;> rfl

theorem leavesWork_setRing (s : State) (k : Nat) (r : Option Ring) : leavesWork s (s.setRing k r) := by
  rw [setRing_frame]
  exact leavesWork_refl s

/-! ### Doorbells (R363 to R365, R497) -/

theorem exec_sqTail {s : State} (ring : Fin 4096) (v : Word) (h : s.power.phase ≠ .recovery) :
    exec (.sqTail ring v) s = .next (s.writeSqTail ring.val v) := by
  change Host.Outcome.next (s.writeBar4 (16 * ring.val) v) = _
  simp [State.writeBar4, h]

theorem exec_rqHead {s : State} (ring : Fin 4096) (v : Word) (h : s.power.phase ≠ .recovery) :
    exec (.rqHead ring v) s = .next (s.writeRqHead ring.val v) := by
  change Host.Outcome.next (s.writeBar4 (16 * ring.val + 4) v) = _
  have hring : (16 * ring.val + 4) / 16 = ring.val := by omega
  simp [State.writeBar4, h, hring]

theorem writeSqTail_moves {s : State} {k : Nat} {v : Word} {r : Ring} (hr : s.ringOf k = some r)
    (hv : (v - r.h).toNat ≤ 2 ^ r.sqLog2) :
    s.writeSqTail k v = (s.setRing k (some { r with tail := v })).wakeUp false := by
  simp only [State.writeSqTail, hr, Nat.not_lt.2 hv, if_false]

/-- Beyond the ring's size, and for a ring that is not open, SQ_TAIL only sets DB_BAD (R364). -/
theorem writeSqTail_bad {s : State} {k : Nat} {v : Word}
    (h : ∀ r, s.ringOf k = some r → 2 ^ r.sqLog2 < (v - r.h).toNat) :
    s.writeSqTail k v = (s.hifSticky 5).wakeUp false := by
  unfold State.writeSqTail
  cases hr : s.ringOf k with
  | none => rfl
  | some r => exact if_pos (h r hr)

theorem writeRqHead_open {s : State} {k : Nat} {v : Word} {r : Ring} (hr : s.ringOf k = some r) :
    s.writeRqHead k v = (s.setRing k (some { r with rqHead := v })).wakeUp false := by
  simp only [State.writeRqHead, hr]

/-- What a doorbell that is taken does: its ring is the new one, the others stay, the sticky bits stay. -/
theorem setRing_wakeUp_moves (s : State) (k : Nat) (r : Ring) :
    let t := (s.setRing k (some r)).wakeUp false
    t.ringOf k = some r ∧ (∀ j, j ≠ k → t.ringOf j = s.ringOf j) ∧ t.hif.sticky = s.hif.sticky ∧ leavesWork s t := by
  refine ⟨?_, fun j hj => ?_, ?_, leavesWork_trans (leavesWork_setRing s k _) (leavesWork_wakeUp _ _)⟩
  · rw [ringOf_wakeUp, ringOf_setRing_some]
  · rw [ringOf_wakeUp, ringOf_setRing_ne s _ hj]
  · rw [wakeUp_frame, setRing_frame]

/-! ### The reply that waits (R365, R371) -/

/-- A reply without an interrupt into a ring in host memory: its bytes leave for its place, and the next reply waits. -/
theorem putReply_host {s : State} {k : Nat} {r : Ring} {rep : Reply} (hhost : r.rqHost = true) (hirq : rep.noirq = true)
    (haddr : r.rqAddr + 32 * (r.r.toNat % 2 ^ r.rqLog2) < 2 ^ 48) :
    s.putReply k r rep =
      (s.emit (.hostWrite (r.rqAddr + 32 * (r.r.toNat % 2 ^ r.rqLog2)) (replyBytes rep (r.r + 1#32)))).setRing k
        (some { r with r := r.r + 1#32, waiting := r.waiting.drop 1 }) := by
  simp only [State.putReply, hhost, hirq, haddr, if_true]

/-- Where one reply waits, which ends no frame and may be written, it is written and nothing follows it. -/
theorem flushRing_one {s t : State} {k : Nat} {r r' : Ring} {rep : Reply} (n : Nat) (hr : s.ringOf k = some r)
    (hwait : r.waiting = [rep]) (hmay : s.replyMay r = true) (hend : rep.frameEnd = false)
    (ht : s.putReply k r rep = t) (hr' : t.ringOf k = some r') (hnone : r'.waiting = []) :
    State.flushRing k (n + 2) s = t := by
  have hrest : State.flushRing k (n + 1) t = t := by simp only [State.flushRing, hr', hnone]
  rw [State.flushRing]
  simp only [hr, hwait, hmay, hend, ht, hrest, Bool.not_true, Bool.false_eq_true, if_false]

theorem exec_replyWrite {s : State} (ring : Fin 4096) (h : s.protilUp = true) :
    exec (.replyWrite ring) s = .next (State.flushRing ring.val 64 s) := by
  change execReplyWrite ring s = _
  simp only [execReplyWrite, h, if_true]

theorem exec_replyStall {s : State} {ring : Fin 4096} {r : Ring} (hr : s.ringOf ring.val = some r) (hwait : r.waiting ≠ [])
    (hmay : s.replyMay r = false) :
    exec (.replyStall ring) s = .next (s.event .replyStall (words [ring.val])) := by
  change execReplyStall ring s = _
  simp [execReplyStall, hr, hwait, hmay]

end Sys2Proof.Machine

/-- Settles O42: each doorbell rests on what a ring read returns after a write to it and to another ring. -/
theorem doorbellsMoveTheRings : Obligations.DoorbellsMoveTheRings := by
  unfold Obligations.DoorbellsMoveTheRings
  refine ⟨?_, ?_, ?_, ?_, ?_⟩
  · intro s ring v r hphase hr hv
    obtain ⟨hself, hother, hsticky, hwork⟩ := setRing_wakeUp_moves s ring.val { r with tail := v }
    exact ⟨_, (exec_sqTail ring v hphase).trans (congrArg _ (writeSqTail_moves hr hv)), hself, hsticky, hother, hwork⟩
  · intro s ring v hphase hbad
    refine ⟨_, (exec_sqTail ring v hphase).trans (congrArg _ (writeSqTail_bad hbad)), ?_, fun k => ?_,
      leavesWork_trans (leavesWork_hifSticky s 5) (leavesWork_wakeUp _ _)⟩
    · rw [wakeUp_frame]
      exact bitAt_hifSticky (by decide)
    · rw [ringOf_wakeUp, ringOf_hifSticky]
  · intro s ring v r hphase hr
    obtain ⟨hself, hother, -, hwork⟩ := setRing_wakeUp_moves s ring.val { r with rqHead := v }
    exact ⟨_, (exec_rqHead ring v hphase).trans (congrArg _ (writeRqHead_open hr)), hself, hother, hwork⟩
  · intro s ring r rep hr hup hwait hend hirq hroom hhost haddr
    have hmay : s.replyMay r = true := by simp [State.replyMay, hroom, hhost]
    have hput := putReply_host (s := s) (k := ring.val) hhost hirq haddr
    rw [hwait, List.drop_one, List.tail_cons] at hput
    have hself := ringOf_setRing_some
      (s.emit (.hostWrite (r.rqAddr + 32 * (r.r.toNat % 2 ^ r.rqLog2)) (replyBytes rep (r.r + 1#32)))) ring.val
      { r with r := r.r + 1#32, waiting := [] }
    refine ⟨_, (exec_replyWrite ring hup).trans (congrArg _ (flushRing_one 62 hr hwait hmay hend hput hself rfl)), ?_, hself,
      fun k hk => ?_, leavesWork_setRing _ _ _⟩
    · rw [setRing_frame]
      rfl
    · rw [ringOf_setRing_ne _ _ hk, ringOf_emit]
  · intro s ring r hr hwait hmay hopen
    exact ⟨_, exec_replyStall hr hwait hmay, oneEvent_event _ _ hopen, event_hif .., event_ctxs .., leavesWork_event ..⟩
end

section
/-! SUPPORT. The resets of the endpoint and its link (R355, R359, R360, R500). -/

open Sys2Proof Sys2Proof.Machine Sys2Proof.Claims

namespace Sys2Proof.Machine

/-! ### Steps through the context table -/

/-- Only the context table differs. -/
def onlyCtxs (s t : State) : Prop := t = { s with ctxs := t.ctxs }

theorem onlyCtxs_refl (s : State) : onlyCtxs s s := rfl

theorem onlyCtxs_trans {s t r : State} (h : onlyCtxs s t) (g : onlyCtxs t r) : onlyCtxs s r := by
  unfold onlyCtxs at h g ⊢
  rw [h] at g
  exact g

theorem onlyCtxs_leavesWork {s t : State} (h : onlyCtxs s t) : leavesWork s t := by
  rw [h]
  exact leavesWork_refl s

/-- No context has a current frame, and the stores are canonical. -/
def frameless (s : State) : Prop := s.storesWf = true ∧ ∀ c, (s.ctx c).run = none

/-- A step `f c` gives the entry of context `c` the value that `g` gives it, and changes nothing else, where no context has a
current frame. -/
def entryStep (f : State → Nat → State) (g : Ctx → Ctx) : Prop :=
  ∀ s c, frameless s → onlyCtxs s (f s c) ∧ frameless (f s c) ∧ ∀ b, (f s c).ctx b = if b = c then g (s.ctx b) else s.ctx b

/-- Replacing an entry without a current frame by another leaves every context without one. -/
theorem frameless_setCtx {s : State} {c : Nat} {x : Ctx} (h : frameless s) (hx : x.run = none) : frameless (s.setCtx c x) := by
  obtain ⟨hwf, hrun⟩ := h
  refine ⟨storesWf_setCtx c x hwf, fun b => ?_⟩
  by_cases hb : b = c
  · rw [hb, ctx_setCtx_self c x hwf, hx]
  · rw [ctx_setCtx_ne s x hb, hrun b]

theorem ctx_setCtx {s : State} {c : Nat} {g : Ctx → Ctx} (h : s.storesWf = true) (b : Nat) :
    (s.setCtx c (g (s.ctx c))).ctx b = if b = c then g (s.ctx b) else s.ctx b := by
  split
  · next hb => rw [hb, ctx_setCtx_self c _ h]
  · next hb => exact ctx_setCtx_ne s _ hb

/-- Steps through a list of contexts give each of them its new entry, where giving it twice is giving it once. -/
theorem entryStep_foldl {f : State → Nat → State} {g : Ctx → Ctx} (hf : entryStep f g) (hg : ∀ x, g (g x) = g x)
    (l : List Nat) {s : State} (h : frameless s) :
    onlyCtxs s (l.foldl f s) ∧ frameless (l.foldl f s) ∧
    ∀ b, (l.foldl f s).ctx b = if b ∈ l then g (s.ctx b) else s.ctx b := by
  induction l generalizing s with
  | nil => exact ⟨onlyCtxs_refl s, h, fun b => by simp⟩
  | cons c l ih =>
    obtain ⟨honly, hframeless, hctx⟩ := hf s c h
    obtain ⟨honly', hframeless', hctx'⟩ := ih hframeless
    refine ⟨onlyCtxs_trans honly honly', hframeless', fun b => ?_⟩
    rw [List.foldl_cons, hctx' b, hctx b]
    by_cases hb : b = c <;> by_cases hl : b ∈ l <;> simp [hb, hl, hg]

/-- A context that the table does not list is FREE. -/
theorem ctx_unlisted {s : State} {c : Nat} (h : c ∉ s.ctxs.map (·.1)) : s.ctx c = Ctx.init := by
  unfold State.ctx
  generalize s.ctxs = m at h
  induction m with
  | nil => rfl
  | cons x m ih =>
    rw [List.map_cons, List.mem_cons, not_or] at h
    obtain ⟨hx, hm⟩ := h
    simp only [sparseGet, if_neg (Ne.symm hx), ih hm]

/-- Steps through the whole table give every context its new entry, where a FREE one keeps its own. -/
theorem entryStep_table {f : State → Nat → State} {g : Ctx → Ctx} (hf : entryStep f g) (hg : ∀ x, g (g x) = g x)
    (hinit : g Ctx.init = Ctx.init) {s t : State} (h : frameless t) (hfree : ∀ c, s.ctx c = Ctx.init → t.ctx c = Ctx.init)
    (b : Nat) : (((s.ctxs.map (·.1)).foldl f t).ctx b) = g (t.ctx b) := by
  obtain ⟨-, -, hctx⟩ := entryStep_foldl hf hg (s.ctxs.map (·.1)) h
  rw [hctx b]
  split
  · rfl
  · next hb => rw [hfree b (ctx_unlisted hb), hinit]

/-! ### A Function Level Reset without a current frame (R359) -/

/-- A context in RUN is stopped as by CONTEXT_STOP. -/
def Ctx.afterStop (x : Ctx) : Ctx :=
  if x.state = .run then { x with state := .loaded, reqs := [], nextReq := x.frame } else x

/-- The ring of a context is closed. -/
def Ctx.ringClosed (x : Ctx) : Ctx := { x with ring := none }

@[simp] theorem state_afterStop (x : Ctx) : x.afterStop.state = if x.state = .run then .loaded else x.state := by
  unfold Ctx.afterStop
  split <;> rfl

theorem afterStop_afterStop (x : Ctx) : x.afterStop.afterStop = x.afterStop := by
  have hstate : x.afterStop.state ≠ .run := by
    rw [state_afterStop]
    split
    · decide
    · assumption
  rw [Ctx.afterStop, if_neg hstate]

theorem entryStep_stopSilently : entryStep State.stopSilently Ctx.afterStop := by
  rintro s c ⟨hwf, hrun⟩
  by_cases hstate : (s.ctx c).state = .run
  · have hstop : s.stopSilently c = s.setCtx c (s.ctx c).afterStop := by
      simp [State.stopSilently, Ctx.afterStop, hstate, hrun]
    rw [hstop]
    refine ⟨rfl, frameless_setCtx ⟨hwf, hrun⟩ ?_, ctx_setCtx hwf⟩
    simp [Ctx.afterStop, hstate, hrun]
  · have hstop : s.stopSilently c = s := by simp [State.stopSilently, hstate]
    rw [hstop]
    refine ⟨rfl, ⟨hwf, hrun⟩, fun b => ?_⟩
    split
    · next hb => rw [hb, Ctx.afterStop, if_neg hstate]
    · rfl

/-- A frame's reply may have waited on the ring; without a current frame nothing ends. -/
theorem finishFrame_frameless {s : State} (c : Nat) (aborted : Bool) (h : frameless s) : s.finishFrame c aborted = s := by
  obtain ⟨-, hrun⟩ := h
  unfold State.finishFrame
  simp only [hrun]

theorem entryStep_closeRing : entryStep State.closeRing Ctx.ringClosed := by
  rintro s c ⟨hwf, hrun⟩
  have hframeless : frameless (s.setCtx c (s.ctx c).ringClosed) := frameless_setCtx ⟨hwf, hrun⟩ (hrun c)
  have hclose : s.closeRing c = s.setCtx c (s.ctx c).ringClosed := by
    unfold State.closeRing
    extract_lets x aborted s1
    cases aborted
    · rfl
    · exact finishFrame_frameless c _ hframeless
  rw [hclose]
  exact ⟨rfl, hframeless, ctx_setCtx hwf⟩

/-- The endpoint after a Function Level Reset: its registers have their reset values, what describes the link stays (R359). -/
def HostIf.flr (x : HostIf) : HostIf :=
  { HostIf.init with linkUp := x.linkUp, linkWidth := x.linkWidth, linkSpeed := x.linkSpeed, perstLow := x.perstLow }

/-- The endpoint is reset, and the replies of abandoned frames are dropped. -/
def State.flrEndpoint (s : State) : State := { s with hoop := { s.hoop with abandoned := [] }, hif := s.hif.flr }

theorem flr_eq (s : State) : s.flr = (s.ctxs.map (·.1)).foldl State.closeRing
    ((s.ctxs.map (·.1)).foldl State.stopSilently s).flrEndpoint := rfl

/-- What a Function Level Reset does where no context has a current frame. -/
theorem flr_frameless {s : State} (h : frameless s) :
    s.flr.hif = s.hif.flr ∧ (∀ c, s.flr.ctx c = (s.ctx c).afterStop.ringClosed) ∧ leavesWork s s.flr := by
  have hctx1 := entryStep_table entryStep_stopSilently afterStop_afterStop rfl h fun _ hc => hc
  obtain ⟨honly1, hframeless1, -⟩ := entryStep_foldl entryStep_stopSilently afterStop_afterStop (s.ctxs.map (·.1)) h
  rw [flr_eq]
  generalize (s.ctxs.map (·.1)).foldl State.stopSilently s = s1 at *
  have hframeless2 : frameless s1.flrEndpoint := hframeless1
  have hfree : ∀ c, s.ctx c = Ctx.init → s1.flrEndpoint.ctx c = Ctx.init := fun c hc => (hctx1 c).trans (by rw [hc]; rfl)
  obtain ⟨honly2, -, -⟩ := entryStep_foldl entryStep_closeRing (fun _ => rfl) (s.ctxs.map (·.1)) hframeless2
  refine ⟨?_, fun c => ?_, ?_⟩
  · rw [honly2, honly1]
    rfl
  · rw [entryStep_table entryStep_closeRing (fun _ => rfl) rfl hframeless2 hfree c]
    exact congrArg Ctx.ringClosed (hctx1 c)
  · have hwork : leavesWork s1 s1.flrEndpoint := leavesWork_refl s1
    exact leavesWork_trans (onlyCtxs_leavesWork honly1) (leavesWork_trans hwork (onlyCtxs_leavesWork honly2))

/-! ### PERST_N and the link (R355, R360, R500) -/

theorem exec_perstN_fall {s : State} (h : s.hif.perstLow = false) :
    exec (.perstN false) s =
      .next { s.flr with hif := { s.flr.hif with linkUp := false, linkWidth := 0, linkSpeed := 0, perstLow := true } } := by
  change execPerstN false s = _
  simp [execPerstN, h, State.linkDown]

theorem exec_pcieLinkUp {s : State} {w v : Nat} (hperst : s.hif.perstLow = false) (hw : w = 1 ∨ w = 2 ∨ w = 4)
    (hlo : 1 ≤ v) (hhi : v ≤ 5) (hst : s.power.st ≠ 5) :
    exec (.pcieLinkUp w v) s = .next { s with hif := { s.hif with linkUp := true, linkWidth := w, linkSpeed := v } } := by
  change execPcieLinkUp w v s = _
  simp [execPcieLinkUp, hperst, hw, within, hlo, hhi, hst]

end Sys2Proof.Machine

/-- Settles O47: the reset steps through the context table, stops each context and closes its ring; the link's fields are only
the endpoint's. -/
theorem endpointResetsAndLink : Obligations.EndpointResetsAndLink := by
  unfold Obligations.EndpointResetsAndLink
  refine ⟨fun s hwf hrun => ?_, fun s => ⟨_, rfl, rfl, rfl, leavesWork_refl s⟩, fun s => ⟨_, rfl, rfl, rfl, leavesWork_refl s⟩,
    fun s w v hperst hw hlo hhi hst => ⟨_, exec_pcieLinkUp hperst hw hlo hhi hst, rfl, rfl, leavesWork_refl s⟩⟩
  obtain ⟨hhif, hctx, hwork⟩ := flr_frameless ⟨hwf, hrun⟩
  have hring : ∀ c, (s.flr.ctx c).ring = none := fun c => by rw [hctx c]; rfl
  refine ⟨⟨_, rfl, hhif, fun c => ⟨hring c, ?_⟩, hwork⟩, fun hperst => ⟨_, exec_perstN_fall hperst, ?_, hring, hwork⟩⟩
  · rw [hctx c]
    exact state_afterStop (s.ctx c)
  · rw [hhif]
    rfl
end

section
/-! SUPPORT. The mailboxes (R375 to R378, R406), the acknowledges of fragments (R468) and the erase request (R483). -/

open Sys2Proof Sys2Proof.Machine Sys2Proof.Claims

namespace Sys2Proof.Machine

/-! ### What notices leave alone -/

/-- Only what a notice goes through differs: the endpoint, the links, what has left the chip, the notices of master 0x08, and where
the power states go (R378, R406, R497). -/
def onlyNotices (s t : State) : Prop := t = { s with
  hif := t.hif
  links := t.links
  out := t.out
  hoop := { s.hoop with notice08 := t.hoop.notice08 }
  power := { s.power with entering := t.power.entering, exiting := t.power.exiting } }

theorem onlyNotices_refl (s : State) : onlyNotices s s := rfl

theorem onlyNotices_trans {s t r : State} (h : onlyNotices s t) (g : onlyNotices t r) : onlyNotices s r := by
  unfold onlyNotices at h g ⊢
  rw [h] at g
  exact g

theorem onlyNotices_wakeUp (s : State) (pin : Bool) : onlyNotices s (s.wakeUp pin) := by
  rw [wakeUp_frame]
  rfl

theorem onlyNotices_msix (s : State) (v : Nat) : onlyNotices s (s.msix v) := by
  rw [msix_frame]
  rfl

theorem onlyNotices_notifyMaster (s : State) (ch m : Nat) : onlyNotices s (s.notifyMaster ch m) := by
  unfold State.notifyMaster
  split
  · exact onlyNotices_msix s 2
  split
  · rfl
  split <;> rfl

theorem onlyNotices_ringNotice (s : State) (ch m : Nat) : onlyNotices s (s.ringNotice ch m) := by
  unfold State.ringNotice
  extract_lets t
  have ht : onlyNotices s t := by
    unfold t
    split
    · exact onlyNotices_wakeUp s false
    · exact onlyNotices_refl s
  exact onlyNotices_trans ht (onlyNotices_notifyMaster t ch m)

section
variable {s t : State} (h : onlyNotices s t)
include h

theorem onlyNotices.mbox : t.mbox = s.mbox := (congrArg State.mbox h).trans rfl

theorem onlyNotices.chan (ch : Fin 64) : t.chan ch = s.chan ch := by rw [State.chan, h.mbox, State.chan]

theorem onlyNotices.binding (ch : Nat) : t.binding ch = s.binding ch := (congrArg (State.binding · ch) h).trans rfl

theorem onlyNotices.isSender (ch : Fin 64) (m : Nat) : t.isSender ch m = s.isSender ch m :=
  (congrArg (State.isSender · ch m) h).trans rfl

theorem onlyNotices.isReceiver (ch : Fin 64) (m : Nat) : t.isReceiver ch m = s.isReceiver ch m :=
  (congrArg (State.isReceiver · ch m) h).trans rfl

theorem onlyNotices.leavesWork : leavesWork s t := by
  rw [h]
  exact leavesWork_refl s

end

/-! ### One channel -/

theorem chan_modChan_self (s : State) (ch : Fin 64) (f : Mailbox → Mailbox) : (s.modChan ch f).chan ch = f (s.chan ch) := by
  simp [State.modChan, State.chan]

theorem chan_modChan_ne (s : State) {ch d : Fin 64} (f : Mailbox → Mailbox) (h : d ≠ ch) :
    (s.modChan ch f).chan d = s.chan d := by
  have hne : ch.val ≠ d.val := fun e => h (Fin.ext e.symm)
  simp [State.modChan, State.chan, hne]

/-- A write to a channel by master 0x08 clears its notice (R378, R432). -/
theorem seen08_frame (s : State) (ch : Fin 64) (m : Nat) :
    s.seen08 ch m = { s with hoop := { s.hoop with notice08 := (s.seen08 ch m).hoop.notice08 } } := by
  unfold State.seen08
  split <;> rfl

theorem onlyNotices_seen08 (s : State) (ch : Fin 64) (m : Nat) : onlyNotices s (s.seen08 ch m) := by
  rw [seen08_frame]
  rfl

/-- One channel has been changed by `f`, and notices have gone out. -/
def chanStep (s t : State) (ch : Fin 64) (f : Mailbox → Mailbox) : Prop :=
  ∃ x, onlyNotices s x ∧ onlyNotices (x.modChan ch f) t

section
variable {s t : State} {ch : Fin 64} {f : Mailbox → Mailbox} (h : chanStep s t ch f)
include h

theorem chanStep.self : t.chan ch = f (s.chan ch) := by
  obtain ⟨x, hx, ht⟩ := h
  rw [ht.chan, chan_modChan_self, hx.chan]

theorem chanStep.other {d : Fin 64} (hd : d ≠ ch) : t.chan d = s.chan d := by
  obtain ⟨x, hx, ht⟩ := h
  rw [ht.chan, chan_modChan_ne x f hd, hx.chan]

theorem chanStep.leavesWork : leavesWork s t := by
  obtain ⟨x, hx, ht⟩ := h
  exact leavesWork_trans hx.leavesWork ht.leavesWork

end

/-- A master's write that only changes its channel: beside the notice that it has seen, the channel alone differs. -/
theorem chanStep_seen08 (s : State) (ch : Fin 64) (m : Nat) (f : Mailbox → Mailbox) :
    chanStep s ((s.seen08 ch m).modChan ch f) ch f ∧ ((s.seen08 ch m).modChan ch f).out = s.out :=
  ⟨⟨_, onlyNotices_seen08 s ch m, onlyNotices_refl _⟩, by rw [seen08_frame]; rfl⟩

/-! ### Rings (R375, R377, R378) -/

theorem exec_mbRing {s : State} {m : Byte} (ch : Fin 64) (v : Word) (h : s.reaches m.toNat 0x800000 = true) :
    exec (.mbRing m ch v) s = .next (s.writeRing m.toNat ch v) := by
  change execMbRing m ch v s = _
  simp only [execMbRing, h, if_true]

theorem exec_mbAck {s : State} {m : Byte} (ch : Fin 64) (v : Word) (h : s.reaches m.toNat 0x800000 = true) :
    exec (.mbAck m ch v) s = .next (s.writeAck m.toNat ch v) := by
  change execMbAck m ch v s = _
  simp only [execMbAck, h, if_true]

/-- The ring of a channel with a local receiver freezes the message and tells the receiver. -/
theorem writeRing_local {s : State} {m : Nat} {ch : Fin 64} {v : Word} (hm : s.isSender ch m = true) (hv : bitAt v 0 = true)
    (hst : (s.chan ch).st ≠ 1) (hr : (s.binding ch.val).2 < 0x10) :
    s.writeRing m ch v =
      ((s.seen08 ch m).modChan ch fun x => { x with st := 1 }).ringNotice ch.val (s.binding ch.val).2 := by
  have hseen := onlyNotices_seen08 s ch m
  have hbind : ((s.seen08 ch m).modChan ch fun x => { x with st := 1 }).binding ch.val = s.binding ch.val :=
    hseen.binding ch.val
  simp [State.writeRing, State.ringChan, hseen.isSender, hseen.chan, hm, hv, hst, hbind, Nat.not_le.2 hr]

/-- A ring while the message waits is out of order (R377). -/
theorem writeRing_waiting {s : State} {m : Nat} {ch : Fin 64} {v : Word} (hm : s.isSender ch m = true) (hv : bitAt v 0 = true)
    (hst : (s.chan ch).st = 1) : s.writeRing m ch v = (s.seen08 ch m).modChan ch fun x => { x with badOrder := true } := by
  have hseen := onlyNotices_seen08 s ch m
  simp [State.writeRing, State.badOrder, hseen.isSender, hseen.chan, hm, hv, hst]

section
variable {s : State} {m : Nat} {ch : Fin 64} (hsnd : m ≠ (s.binding ch.val).1) (hrcv : m ≠ (s.binding ch.val).2)
include hsnd hrcv

/-- A master that is neither end of a channel sets FOREIGN, whichever register it writes (R376). -/
theorem foreignWrite_unbound : (s.seen08 ch m).foreignWrite ch m =
    (s.seen08 ch m).modChan ch fun x => { x with foreign := true } := by
  simp [State.foreignWrite, (onlyNotices_seen08 s ch m).binding, hsnd, hrcv]

theorem writeRing_unbound (v : Word) :
    s.writeRing m ch v = (s.seen08 ch m).modChan ch fun x => { x with foreign := true } := by
  have hm : s.isSender ch m = false := by simp [State.isSender, Ne.symm hsnd]
  simp [State.writeRing, (onlyNotices_seen08 s ch m).isSender, hm, foreignWrite_unbound hsnd hrcv]

theorem writeAck_unbound (v : Word) :
    s.writeAck m ch v = (s.seen08 ch m).modChan ch fun x => { x with foreign := true } := by
  have hm : s.isReceiver ch m = false := by simp [State.isReceiver, Ne.symm hrcv]
  simp [State.writeAck, (onlyNotices_seen08 s ch m).isReceiver, hm, foreignWrite_unbound hsnd hrcv]

end

/-- The Osier cluster and Hoop are told by a notice that leaves for them. -/
theorem notify_mem_ringNotice (s : State) (ch : Nat) {m : Nat} (h : m = 2 ∨ m = 3) : Out.notify m ∈ (s.ringNotice ch m).out := by
  obtain rfl | rfl := h <;> simp [State.ringNotice, State.notifyMaster, State.emit]

theorem notice08_ringNotice (s : State) (ch : Fin 64) : (s.ringNotice ch.val 8).hoop.notice08.getLsbD ch.val = true := by
  simp [State.ringNotice, State.notifyMaster]

/-! ### A flit given to an idle link (R392, R393) -/

theorem slot_empty {x : LinkState} (hm : x.txq = []) (ht : x.xq = []) : x.slot = none := by
  simp [LinkState.slot, LinkState.slotTransfer, hm, ht]

theorem pump_empty {s : State} {l : Fin 6} (n : Nat) (h : (s.link l).slot = none) : pump l n s = s := by
  cases n with
  | zero => rfl
  | succ n =>
    rw [pump]
    simp only [h]

/-- A MACK alone on its link is sent or waits, and nothing follows it. -/
theorem onlyNotices_pump {s : State} {l : Fin 6} {f : Flit} (n : Nat) (hm : (s.link l).txq = [f]) (ht : (s.link l).xq = [])
    (hf : f.typ = tMack) : onlyNotices s (pump l (n + 1) s) := by
  have hslot : (s.link l).slot = some (f, { s.link l with txq := [], gap := false }) := by simp [LinkState.slot, hm, ht]
  have hleave : s.leave f = (f, s) := by simp [State.leave, hf, tMack, tBeacon, tDelayReq, tDelayResp]
  have htail : f.typ ≠ tTail := by rw [hf]; decide
  rw [pump]
  simp only [hslot, hleave, htail, if_false]
  split
  · exact onlyNotices_refl s
  · rw [pump_empty n]
    · rfl
    · exact (congrArg LinkState.slot (link_setLink_self s l _)).trans (slot_empty rfl ht)

/-- An acknowledge's MACK on links that hold nothing goes out alone. -/
theorem onlyNotices_sendRouted {s : State} {f : Flit} (hidle : linksIdle s) (hf : f.typ = tMack) :
    onlyNotices s (s.sendRouted f) := by
  unfold State.sendRouted
  split
  · next l _ =>
    obtain ⟨hm, ht⟩ := hidle l
    unfold State.sendFlit
    split
    · exact onlyNotices_refl s
    · have hgive : onlyNotices s (s.modLink l fun x => { x with txq := insertFlit s.self f x.txq }) := rfl
      refine onlyNotices_trans hgive (onlyNotices_pump (f := f) 255 ?_ ?_ hf)
      · simp [State.modLink, hm, insertFlit]
      · simp [State.modLink, ht]
  · exact onlyNotices_refl s

/-! ### Acknowledges (R375, R378, R406) -/

theorem onlyNotices_ackNotice {s : State} (ch : Fin 64) (code : BitVec 16) (hidle : linksIdle s) :
    onlyNotices s (s.ackNotice ch code) := by
  unfold State.ackNotice
  extract_lets snd
  split
  · exact onlyNotices_sendRouted hidle rfl
  · exact onlyNotices_notifyMaster s ch.val snd

theorem onlyNotices_ackChan {s : State} (ch : Fin 64) (code : BitVec 16) (hidle : linksIdle s) :
    onlyNotices (s.modChan ch fun x => { x with ack := code, st := 2 }) (s.ackChan ch code) :=
  onlyNotices_ackNotice ch code hidle

/-! ### Fragments of fault signature records (R468) -/

theorem fsrPump_empty {s : State} (toHost : Bool) (h : s.hoop.fsrs = []) : s.fsrPump toHost = s := by
  simp [State.fsrPump, h]

/-- Where records leave the queue empty, Hoop has nothing to send. -/
theorem fsrSend_empties {s : State} (h : s.fsrLeave.hoop.fsrs = []) : s.fsrSend = s.fsrLeave := by
  rw [State.fsrSend, fsrPump_empty true h, fsrPump_empty false h]

theorem fsrSend_empty {s : State} (h : s.hoop.fsrs = []) : s.fsrSend = s := by
  have hleave : s.fsrLeave = s := by
    have hhoop : { s.hoop with fsrs := [] } = s.hoop := by rw [← h]
    simp only [State.fsrLeave, h, List.filter_nil, hhoop]
  rw [fsrSend_empties (by rw [hleave, h]), hleave]

/-- An acknowledge on a channel that carries no fragment, while no record waits, lets nothing go on. -/
theorem ackedNext_empty {s : State} {ch : Fin 64} (hfrag : s.fragmentOn ch = none) (hfsrs : s.hoop.fsrs = []) :
    s.ackedNext ch = s := by
  simp [State.ackedNext, hfrag, fsrSend_empty hfsrs]

theorem ackedNext_fragment {s : State} {ch : Fin 64} {h : Bool} (hrun : s.hoopRuns = true) (hfrag : s.fragmentOn ch = some h) :
    s.ackedNext ch = s.fsrAcked h := by
  simp [State.ackedNext, hrun, hfrag]

/-- The receiver's acknowledge ends the message (R375). -/
theorem chanStep_writeAck {s : State} {m : Nat} {ch : Fin 64} (v : Word) (hm : s.isReceiver ch m = true)
    (hst : (s.chan ch).st = 1) (hfsrs : s.hoop.fsrs = []) (hfrag : s.fragmentOn ch = none) (hidle : linksIdle s) :
    chanStep s (s.writeAck m ch v) ch fun x => { x with ack := v.extractLsb' 0 16, st := 2 } := by
  have hseen := onlyNotices_seen08 s ch m
  have hidle' : linksIdle (s.seen08 ch m) := by rwa [seen08_frame]
  have hack := onlyNotices_ackChan ch (v.extractLsb' 0 16) hidle'
  have hwrite : s.writeAck m ch v = ((s.seen08 ch m).ackChan ch (v.extractLsb' 0 16)).ackedNext ch := by
    simp [State.writeAck, hseen.isReceiver, hseen.chan, hm, hst]
  rw [hwrite, ackedNext_empty]
  · exact ⟨_, hseen, hack⟩
  · rw [hack, hseen]
    exact hfrag
  · rw [hack, hseen]
    exact hfsrs

/-- The only record, once the receiver whose channel is bound has acknowledged it all, leaves the queue. -/
theorem fsrLeave_last {s : State} {f : Fsr} {h : Bool} (hf : s.hoop.fsrs = [f]) (hall : f.acked h = f.count)
    (hbound : s.fsrBound (!h) = false) : s.fsrLeave = { s with hoop := { s.hoop with fsrs := [] } } := by
  cases h <;> simp_all [State.fsrLeave, Fsr.acked]

/-- A record with one more fragment acknowledged by a receiver. -/
def Fsr.ack (f : Fsr) (toHost : Bool) : Fsr :=
  if toHost then { f with hostAck := f.hostAck + 1 } else { f with safetyAck := f.safetyAck + 1 }

/-- No fragment is in flight to the receiver, and the queue holds the records `fs`. -/
def State.fragmentTaken (s : State) (toHost : Bool) (fs : List Fsr) : State :=
  { s with hoop := { s.hoop with
      fsrs := fs
      fragHost := s.hoop.fragHost && !toHost
      fragSafety := s.hoop.fragSafety && toHost } }

/-- The acknowledge of the last fragment of the only record, where no other receiver's is required. -/
theorem fsrAcked_last {s : State} {f : Fsr} {h : Bool} (hf : s.hoop.fsrs = [f]) (hlast : f.acked h + 1 = f.count)
    (hbound : s.fsrBound (!h) = false) : s.fsrAcked h = s.fragmentTaken h [] := by
  have hlt : f.acked h < f.count := by omega
  have hall : (f.ack h).acked h = (f.ack h).count := by cases h <;> exact hlast
  have hack : s.fsrAcked h = (s.fragmentTaken h [f.ack h]).fsrSend := by
    cases h <;> simp [State.fsrAcked, State.fragmentTaken, hf, hlt, Fsr.ack]
  have hleave : (s.fragmentTaken h [f.ack h]).fsrLeave = s.fragmentTaken h [] := fsrLeave_last rfl hall hbound
  rw [hack, fsrSend_empties (by rw [hleave]; rfl), hleave]

/-- In Park neither the link nor the safety port is served (R495, R499). -/
theorem exec_fsrFragmentAck_park {s : State} (h : Bool) (hst : s.power.st = 5) : exec (.fsrFragmentAck h) s = .next s := by
  change execFsrFragmentAck h s = _
  simp [execFsrFragmentAck, hst]

theorem exec_fsrFragmentAck {s : State} {h : Bool} (hrun : s.hoopRuns = true) (hfrag : s.fragmentOn (fsrChannel h) = some h)
    (hst : (s.chan (fsrChannel h)).st = 1) :
    exec (.fsrFragmentAck h) s = .next ((s.ackChan (fsrChannel h) 0#16).ackedNext (fsrChannel h)) := by
  have hpark : s.power.st ≠ 5 := by
    unfold State.hoopRuns at hrun
    simp_all
  change execFsrFragmentAck h s = _
  simp [execFsrFragmentAck, hpark, hrun, hfrag, hst]

/-- The acknowledge of the last fragment: the message ends, and the record with it. -/
theorem ackedNext_last {s : State} {f : Fsr} {h : Bool} (hrun : s.hoopRuns = true)
    (hfrag : s.fragmentOn (fsrChannel h) = some h) (hf : s.hoop.fsrs = [f]) (hlast : f.acked h + 1 = f.count)
    (hbound : s.fsrBound (!h) = false) (hidle : linksIdle s) :
    (s.ackChan (fsrChannel h) 0#16).ackedNext (fsrChannel h) = (s.ackChan (fsrChannel h) 0#16).fragmentTaken h [] := by
  have hack := onlyNotices_ackChan (fsrChannel h) 0#16 hidle
  rw [ackedNext_fragment (h := h), fsrAcked_last (f := f) _ hlast] <;> rw [hack] <;> assumption

theorem exec_eraseRequest {s : State} {ch : Fin 64} (hsnd : (s.binding ch.val).1 ≠ 0) (hrcv : (s.binding ch.val).2 = 0x03)
    (hst : (s.chan ch).st = 1) (herase : s.evr.erasing = false) (hprog : s.evr.prog = none) (hrun : s.hoopRuns = true)
    (hmagic : fieldNat (s.chan ch).msg 0 32 = 0x45524153) (hcount : fieldNat (s.chan ch).msg 32 32 = s.evr.count) :
    exec (.eraseRequest ch) s = .next { s with evr := { s.evr with erasing := true, eraseCh := ch.val } } := by
  change execEraseRequest ch s = _
  simp [execEraseRequest, hsnd, hrcv, hst, herase, hprog, hrun, hmagic, hcount]

end Sys2Proof.Machine

/-- Settles O48: every write changes one channel, and beside it only what notices go through; the last acknowledge of the only
record empties the queue of records. -/
theorem mailboxesRingAndAcknowledge : Obligations.MailboxesRingAndAcknowledge := by
  unfold Obligations.MailboxesRingAndAcknowledge
  refine ⟨?_, ?_, ?_, ?_, fun s h => exec_fsrFragmentAck_park h, ?_, ?_⟩
  · intro s m ch v hreach hm hv hst hr
    have hstep : chanStep s _ ch fun x => { x with st := 1 } :=
      ⟨_, onlyNotices_seen08 s ch m.toNat, onlyNotices_ringNotice _ ch.val (s.binding ch.val).2⟩
    refine ⟨_, (exec_mbRing ch v hreach).trans (congrArg _ (writeRing_local hm hv hst hr)), hstep.self,
      fun d => hstep.other, notify_mem_ringNotice _ ch.val, fun h8 => ?_, hstep.leavesWork⟩
    rw [h8]
    exact notice08_ringNotice _ ch
  · intro s m ch v hreach hm hv hst
    obtain ⟨hstep, hout⟩ := chanStep_seen08 s ch m.toNat fun x => { x with badOrder := true }
    exact ⟨_, (exec_mbRing ch v hreach).trans (congrArg _ (writeRing_waiting hm hv hst)), hstep.self,
      fun d => hstep.other, hout, hstep.leavesWork⟩
  · intro s m ch v hreach hsnd hrcv _
    obtain ⟨hstep, hout⟩ := chanStep_seen08 s ch m.toNat fun x => { x with foreign := true }
    exact ⟨⟨_, (exec_mbRing ch v hreach).trans (congrArg _ (writeRing_unbound hsnd hrcv v)), hstep.self,
        fun d => hstep.other, hout, hstep.leavesWork⟩,
      ⟨_, (exec_mbAck ch v hreach).trans (congrArg _ (writeAck_unbound hsnd hrcv v)), hstep.self,
        fun d => hstep.other, hout, hstep.leavesWork⟩⟩
  · intro s m ch v hreach hm hst hfsrs hfrag hidle
    have hstep := chanStep_writeAck v hm hst hfsrs hfrag hidle
    exact ⟨_, exec_mbAck ch v hreach, hstep.self, fun d => hstep.other, hstep.leavesWork⟩
  · intro s h f hrun hfrag hst hf hlast hbound hidle
    have hack := onlyNotices_ackChan (fsrChannel h) 0#16 hidle
    have hstep : chanStep s (s.ackChan (fsrChannel h) 0#16) (fsrChannel h) fun x => { x with ack := 0#16, st := 2 } :=
      ⟨s, onlyNotices_refl s, hack⟩
    have hdone := ackedNext_last hrun hfrag hf hlast hbound hidle
    refine ⟨_, (exec_fsrFragmentAck hrun hfrag hst).trans (congrArg _ hdone), rfl, congrArg Mailbox.st hstep.self,
      congrArg Mailbox.ack hstep.self, ?_, ?_, hstep.leavesWork⟩ <;>
    · rw [hack]
      rfl
  · intro s ch hsnd hrcv hst herase hprog hrun hmagic hcount
    exact ⟨_, exec_eraseRequest hsnd hrcv hst herase hprog hrun hmagic hcount, rfl, rfl, leavesWork_refl s⟩
end
